-- ==== Sys2Proof/Word.lean ====
section
/-! DEFINITION. The word types of the P4896 and the shape of its sparse tables.
Plain abbreviations; the arithmetic on them stands in Machine/Bits.lean. -/

namespace Sys2Proof

/-- A byte of a memory format (R7: multi-byte fields are little-endian). -/
abbrev Byte := BitVec 8

/-- A half-word: sample codes, committed output values, detail codes. -/
abbrev Half := BitVec 16

/-- A 32-bit word: every register (R537) and every core register (R329). -/
abbrev Word := BitVec 32

/-- A 64-bit word: timebase values (R21), segment parameters (R99), digests (R217). -/
abbrev DWord := BitVec 64

/-- A 128-bit capability body (R395); its tag is held beside it. -/
abbrev CapBits := BitVec 128

/-- A sparse table by number: rising keys, an unlisted key stands for the entry's start value. -/
abbrev Tbl (α : Type) := List (Nat × α)

end Sys2Proof
end

