-- ==== Sys2Proof/Syntax.lean ====
section
/-! DEFINITION. The commands the block takes: one constructor per row of the operation table, and the plain
data their operands carry. Operands that come from outside the device (converted codes, received frames, answers of
the host, of drives and of the flash, measured clocks and temperatures) are data of the command. -/

namespace Sys2Proof

/-- R38: the world of a subchannel, a queue, an initiator. -/
inductive World where
  | safety | service
  deriving DecidableEq, Repr

/-- An address with its space: ASEL 0 host, 1 device physical, 2 archive ring, 3 field image (R39, R43). -/
structure Addr where
  asel : Nat := 0
  addr : Nat := 0
  deriving DecidableEq, Repr

/-- R39: a channel command word, W0 to W3. -/
structure Ccw where
  w0 : Word := 0
  w1 : Word := 0
  w2 : Word := 0
  w3 : Word := 0
  deriving DecidableEq, Repr

/-- R99: an operation as its submission entry carries it; `slot` is the address of the entry (R103). -/
structure Op where
  code : Nat := 0
  sub : Nat := 0
  tag : Nat := 0
  queue : Nat := 0
  chain : Addr := {}
  inl : List Ccw := []
  slot : Addr := {}
  parm : DWord := 0
  deadline : DWord := 0
  deriving DecidableEq, Repr

/-- R184, R191: the code of a conversion; `bad` says that a HOUSE conversion of a reference lies outside its ±0.2 %. -/
structure AdcResult where
  code : Half := 0
  bad : Bool := false
  deriving DecidableEq, Repr

/-- R186, R242: a diagnostic condition; `fb` says that the FB-based part of SHORT_SUP or SHORT_GND detects it. -/
structure Detected where
  cond : Fin 7 := 0
  fb : Bool := false
  deriving DecidableEq, Repr

/-- R269, R273: the data that an NVMe command brings, and whether a correctable or an uncorrectable AER error was met on the
way. -/
structure NvReply where
  data : List Byte := []
  cor : Bool := false
  unc : Bool := false
  deriving DecidableEq, Repr

/-- Who makes an access: a channel core, a supervisor core, a host function, a sequencer or mover for a
subchannel, the commit unit, a DMA channel, the Daster monitor. -/
inductive Initiator where
  | te (n : Fin 64)
  | scS
  | scV
  | pf (f : Fin 2)
  | seq (sub : Fin 4096)
  /-- the mover, for the data of a subchannel's program -/
  | mover (sub : Fin 4096)
  /-- the commit unit, for a ring of a world -/
  | commit (w : World)
  | dma (ch : Fin 32)
  | monitor
  /-- the queue engine, for a queue or ring of a world -/
  | queue (w : World)
  /-- the device's own structures: context area, dispatch tables, index and epoch tables -/
  | device
  deriving DecidableEq, Repr

/-- R16: the transaction a stalled crossing ends with an error. -/
inductive Stalled where
  | nothing
  | coreFetch (core : Fin 66)
  | coreData (core : Fin 66) (addr : Word)
  | hostRead (f : Fin 2)
  | hostWrite (f : Fin 2)
  | ccwFetch (sub : Fin 4096)
  | dataArea (sub : Fin 4096)
  | dmaElement (ch : Fin 32) (write : Bool)
  /-- reads of the queue engine: a queue's tail, a ring's head, a queue's oldest entry read -/
  | tailRead (q : Fin 1024)
  | headRead (ring : Fin 1024)
  | entryRead (q : Fin 1024)
  /-- writes of the queue engine: a queue's head, a ring's tail -/
  | headWrite (q : Fin 1024)
  | ringWrite (ring : Fin 1024)
  /-- the read of the descriptor that a DMA channel has just begun; its status write -/
  | dmaDesc (ch : Fin 32)
  | dmaStatus (ch : Fin 32)
  deriving DecidableEq, Repr

/-- R208: a Confluence record of 16 bytes. -/
structure CflRec where
  w0 : Word := 0
  w1 : Word := 0
  w2 : Word := 0
  w3 : Word := 0
  deriving DecidableEq, Repr

/-- R208: a Confluence frame; `crcOk` says whether its CRC-32C is right on arrival. -/
structure CflFrame where
  crcOk : Bool := true
  cyc : Nat := 0
  pos : Nat := 0
  mstate : Nat := 0
  lock : Bool := false
  view : Nat := 0
  uplinks : Nat := 0
  hash : Word := 0
  digests : List CflRec := []
  echoes : List CflRec := []
  deriving DecidableEq, Repr

/-- R305, R309: a frame that arrives on a Brook link: its bytes after the preamble, and the time at which it begins. -/
structure BkArrival where
  bytes : List Byte := []
  begun : DWord := 0
  deriving DecidableEq, Repr

/-- R272, R274: what Identify of a drive answers. -/
structure DriveId where
  /-- a single NVMe endpoint on function 0 (R269) -/
  nvme : Bool := true
  adminOk : Bool := true
  /-- the 4,096-byte format is available -/
  fmt4k : Bool := true
  serial : List Byte := []
  /-- namespace size in 4 KiB blocks, MDTS in blocks, and I/O queue pairs granted -/
  blocks : Nat := 0
  mdts : Nat := 32
  queues : Nat := 8
  deriving DecidableEq, Repr

/-- R302: whom the Sift unit serves. -/
inductive SiftUser where
  | dma (ch : Fin 32)
  | sub (n : Fin 4096)
  deriving DecidableEq, Repr

/-- R334: what every 32-bit instruction carries: the core that executes it, INV and PG; and what the checks of core state
find while it executes (R254, R358): 0 nothing, else the ARG of cause 0x15. -/
structure Hdr where
  core : Fin 66
  inv : Bool := false
  pg : Fin 8 := 0
  ecc : Fin 10 := 0
  deriving DecidableEq, Repr

/-- What a 16-bit instruction carries: the core that executes it, and what the checks of core state find (as in `Hdr`). -/
structure Short where
  core : Fin 66
  ecc : Fin 10 := 0
  deriving DecidableEq, Repr

/-- R442, R445, R449: what SECDED finds in a unit of memory that is read: nothing, an error that it corrects, or one that
it cannot. -/
inductive Secded where
  | clean | corrected | uncorrectable
  deriving DecidableEq, Repr

/-- R437, R439: an access that waits at the Weir: its requester, device physical address and bytes. -/
structure WeirAsk where
  req : Fin 76
  addr : BitVec 36
  len : Nat := 1
  /-- Weir cycles waited -/
  wait : Nat := 0
  /-- what its read finds at the address -/
  found : Secded := .clean
  deriving DecidableEq, Repr

/-- R448: the read of one granule or half-block that the scrubber asks for; `last` ends its pass. -/
structure ScrubAsk where
  addr : BitVec 36
  wait : Nat := 0
  found : Secded := .clean
  last : Bool := false
  deriving DecidableEq, Repr

/-- R515, R516: how a line reaches the monitor: whole, with a wrong checksum, too long or malformed, after characters lost in
the receive FIFO, or with a letter that is no command. -/
inductive LineIs where
  | good | badSum | malformed | overrun | unknown
  deriving DecidableEq, Repr

/-- R466: a configuration request of the host. -/
inductive CfgReq where
  | read (off : BitVec 12)
  /-- Bus Master Enable := 1 -/
  | busMaster
  /-- MSI-X Enable and Function Mask -/
  | msix (en mask : Bool)
  /-- Completion Timeout Value of Device Control 2 (R460) -/
  | timeout (v : BitVec 4)
  /-- any other write: configuration space that this module's rules give no effect -/
  | other
  deriving DecidableEq, Repr

/-- R461: a write of the MSI-X control or of one table entry. -/
inductive MsixWr where
  | control (en mask : Bool)
  | entry (v : Fin 64) (addr : DWord) (data : Word) (mask : Bool)
  deriving DecidableEq, Repr

/-- R459, R460: what a request toward the host was for. -/
inductive HostUse where
  | ccw (sub : Fin 4096)
  | data (sub : Fin 4096)
  | tail (q : Fin 1024)
  | head (ring : Fin 1024)
  | entry (q : Fin 1024)
  deriving DecidableEq, Repr

/-- R485 step 4: what memory tests, training and the reads of the slot headers found. -/
structure MemInit where
  memOk : Bool := true
  dramOk : Bool := true
  romOk : Bool := true
  /-- TEs whose Loam failed its test -/
  loamBad : List (Fin 64) := []
  hdrA : List Byte := []
  hdrB : List Byte := []
  deriving DecidableEq, Repr

/-- R485 step 7, R191: what the start-up calibration of a bank read. -/
structure CalRead where
  bank : Fin 12
  temp : BitVec 11 := 0
  iBank : BitVec 11 := 0
  refFault : Bool := false
  deriving DecidableEq, Repr

/-- The commands of the block, one per row of the operation table. -/
inductive Instr where
  /-- LINK_FRAME_LOSS_SAFE (R12): No valid die-to-die link frame for 1 µs moves every output pin to its safe state until a main-die reset completes. -/
  | linkFrameLossSafe
  /-- HANDSHAKE_WATCHDOG (R16): A crossing handshake that does not complete within 2 µs marks the island stalled, raises the island-watchdog source and ends the transaction with an error. -/
  | handshakeWatchdog (isl : Fin 212) (who : Stalled)
  /-- HANDSHAKE_COMPLETE_AFTER_STALL (R17): A stalled island completes a handshake and its CLK_STATE returns to running. -/
  | handshakeCompleteAfterStall (isl : Fin 212)
  /-- KEEPALIVE_LOSS (R18): A pin output stage that sees no keep-alive refresh for 1 µs moves its pin to the safe state by itself. -/
  | keepaliveLoss (pin : Fin 96)
  /-- ISLAND_FREQ_UPDATE (R19): Every 10 µs each island status register updates FREQ and SLOW from the measured clock. -/
  | islandFreqUpdate (isl : Fin 212) (freq : BitVec 12)
  /-- WDOG_CLEAR (R20): Clearing WDOG in an island status register also clears the island's bit in DEV_ISL_FAULT. -/
  | wdogClear (who : Initiator) (isl : Fin 212)
  /-- TIMEBASE_TICK (R21): The timebase island advances the 64-bit nanosecond count by 10 every 10 ns and broadcasts it, applying any composite rate adjustment. -/
  | timebaseTick
  /-- LATCHING_READ (R23): A read of TB_NOW_LO or another _LO register that refers to R23 returns the low word and latches the high word for the reading initiator. -/
  | latchingRead (who : Initiator) (off : BitVec 22)
  /-- REGISTER_WRITE (R8): A write to a register that has no row of its own sets its fields or shadows under the access codes and the world rules. -/
  | registerWrite (who : Initiator) (off : BitVec 22) (val : Word)
  /-- START (R86): A START operation reaches the subchannel and, if accepted, queues it to OWNER_TE in START PENDING; otherwise it is rejected. -/
  | start (o : Op)
  /-- RESUME (R86): A RESUME operation continues a SUSPENDED subchannel by moving it to RESUME PENDING, or is rejected. -/
  | resume (o : Op)
  /-- HALT (R84): A HALT operation stops the program at the next command boundary, ending a WAITEV at once and a SAMPLE or FETCHSTORE after the unit in progress. -/
  | halt (o : Op)
  /-- CLEAR (R85): A CLEAR operation abandons any command before its commit point, lets a committed one complete, and increments the generation. -/
  | clear (o : Op)
  /-- CANCEL (R86): A CANCEL operation withdraws a START or RESUME still pending, or is rejected. -/
  | cancel (o : Op)
  /-- CONTEXT_GRANT (R143): A resident context becomes free for a pending subchannel, which becomes resident, ACTIVE, and fetches its first or suspending CCW, or is withdrawn if its deadline has passed. -/
  | contextGrant (sub : Fin 4096)
  /-- CCW_FETCH_COMPLETE (R74): A CCW fetch or prefetch returns and the CCW is held for checking and execution; an error is kept until that CCW becomes the one to execute. -/
  | ccwFetchComplete (sub : Fin 4096)
  /-- CCW_FETCH_TIMEOUT (R80): A CCW fetch that receives no response within its limit ends the program with control check 0x0501 or 0x0502. -/
  | ccwFetchTimeout (sub : Fin 4096)
  /-- DATA_ACCESS_TIMEOUT (R80): A data-area access without response within its limit ends the program with control check 0x0503 or 0x0504. -/
  | dataAccessTimeout (sub : Fin 4096) (moved : List Byte)
  /-- WRITE (R49): WRITE sends the data area as payload to the bound Brook satellite in the next link cycle. -/
  | write (sub : Fin 4096)
  /-- READ (R49): READ stores the payload of the bound satellite's next reply. -/
  | read (sub : Fin 4096)
  /-- CONTROL (R49): CONTROL sends a control frame with the code in ARG to the bound satellite. -/
  | control (sub : Fin 4096)
  /-- SENSE (R51): SENSE transfers the subchannel's 32-byte sense record. -/
  | sense (sub : Fin 4096)
  /-- TIC (R66): TIC makes the CCW at its address the next CCW. -/
  | tic (sub : Fin 4096)
  /-- DRIVE (R52): DRIVE reads and checks its output pattern, applies safe entries at its commit point and places away entries in the Sluice for the vote. -/
  | drive (sub : Fin 4096)
  /-- PROVE (R56): PROVE checks calibration, averages readings of listed pins, widens the windows by the guard band and writes RESULT and OUT. -/
  | prove (sub : Fin 4096)
  /-- WAITEV (R58): WAITEV waits for an arrival of its event source after the wait mark, or for its timeout alone. -/
  | waitev (sub : Fin 4096)
  /-- WAITEV_ARRIVAL (R60): A qualifying arrival ends a WAITEV with channel end, device end and status modifier. -/
  | waitevArrival (sub : Fin 4096)
  /-- WAITEV_TIMEOUT (R60): Expiry of a WAITEV timeout ends it with channel end and device end. -/
  | waitevTimeout (sub : Fin 4096)
  /-- SAMPLE (R61): SAMPLE captures sample codes of a pin every PARAM frames into memory or as a record of an archive ring. -/
  | sample (sub : Fin 4096)
  /-- ARCHIVE (R62): ARCHIVE appends one record with its data-area payload to an archive ring. -/
  | archive (sub : Fin 4096)
  /-- FETCHSTORE (R63): FETCHSTORE executes up to 64 fetch descriptors that copy records or raw store blocks into memory. -/
  | fetchstore (sub : Fin 4096)
  /-- NOP (R65): NOP ends at once with channel end and device end. -/
  | nop (sub : Fin 4096)
  /-- MARK (R65): MARK stores the 8-byte timebase value at which it executes. -/
  | mark (sub : Fin 4096)
  /-- SIGNAL (R65): SIGNAL raises a software event source at its commit point. -/
  | signal (sub : Fin 4096)
  /-- ROUTINE_COMMAND (R67): A command code 0x20-0xEF dispatches the routine that the class's dispatch table names. -/
  | routineCommand (sub : Fin 4096)
  /-- COMMAND_END (R68): A command reaches device end and the sequencer decides whether the chain continues, skips, suspends or ends with a posted CSW. -/
  | commandEnd (sub : Fin 4096)
  /-- RUNAWAY_CHAIN (R79): A CCW that would take the chain count above CHAIN_LIMIT ends the program with runaway chain 0x0C01. -/
  | runawayChain (sub : Fin 4096)
  /-- DBELL_SQ (R107): A host doorbell write for a submission queue is checked and makes the queue engine read the tail index once. -/
  | dbellSq (pf : Fin 2) (page : Fin 32) (num : Fin 1024) (aligned : Bool)
  /-- DBELL_CQ (R119): A host completion doorbell write is checked and makes the queue engine read the ring's head index once. -/
  | dbellCq (pf : Fin 2) (page : Fin 32) (num : Fin 1024) (aligned : Bool)
  /-- DBELL_CORE_SQ (R111): A core doorbell write for a submission queue of its world is checked and triggers a tail read. -/
  | dbellCoreSq (core : Fin 66) (num : Fin 1024)
  /-- DBELL_CORE_CQ (R111): A core completion doorbell write is checked and triggers a head read. -/
  | dbellCoreCq (core : Fin 66) (num : Fin 1024)
  /-- TAIL_INDEX_READ_COMPLETE (R107): The tail index read returns; entries up to it become available, or a bad index puts the queue in ERROR. -/
  | tailIndexReadComplete (q : Fin 1024)
  /-- HEAD_INDEX_READ_COMPLETE (R119): A ring's head index read returns and frees ring space, or a bad index puts the ring in ERROR. -/
  | headIndexReadComplete (ring : Fin 1024)
  /-- ENTRY_SLOT (R115): Every 10 ns a slot of the frame is assigned to the safety or service round and issues one entry read. -/
  | entrySlot
  /-- ENTRY_COPY_COMPLETE (R99): A copied submission entry is checked and handed to the owning TE, or puts the queue in ERROR if malformed. -/
  | entryCopyComplete (q : Fin 1024)
  /-- RING_TAIL_WRITE (R117): The device writes a ring's tail index covering entries written, no later than 500 ns after the last. -/
  | ringTailWrite (ring : Fin 1024)
  /-- RING_EVENT_TIMEOUT (R118): EVTIME expires after the first unsignalled entry and the ring's event source is raised. -/
  | ringEventTimeout (ring : Fin 1024)
  /-- HELD_CSW_POST (R121): Ring space appears and held CSWs are posted in creation order, possibly leaving STATUS PENDING. -/
  | heldCswPost (ring : Fin 1024)
  /-- QUEUE_ENABLE (R126): An ENABLE command checks and caches a queue or ring descriptor and resets its index, or enters ERROR. -/
  | queueEnable (w : World)
  /-- QUEUE_DISABLE (R126): A DISABLE command stops a queue or ring and discards the CSWs held for a ring. -/
  | queueDisable (w : World)
  /-- QUEUE_RESTART (R126): A RESTART command returns a queue or ring from ERROR to ENABLED, or repeats a failed ENABLE. -/
  | queueRestart (w : World)
  /-- DBELL_RESET (R129): A host write of DBELL_RESET with GO requests a reset of the page's reach. -/
  | dbellReset (pf : Fin 2) (page : Fin 32) (tag : Half) (qreset : Bool)
  /-- DBELL_REACH_RESET (R129): A supervisor-core write of DBELL_REACH_RESET with GO requests a reach reset. -/
  | dbellReachReset (w : World) (reach : Fin 32) (tag : Half) (qreset : Bool)
  /-- REACH_RESET_DRAIN_COMPLETE (R132): Every old-generation write of a resetting reach has completed and the subchannels advance their generations. -/
  | reachResetDrainComplete (reach : Fin 32)
  /-- GENERATION_INCREMENT (R125): A deferred generation increment takes place once 70 µs have passed since the previous one and its CSW is posted. -/
  | generationIncrement (sub : Fin 4096)
  /-- DEADLOCK_EXAMINATION (R137): Every 250 µs the quiescence detector examines each reach for quiescence. -/
  | deadlockExamination (reach : Fin 32)
  /-- DEADLOCK_END (R138): After three consecutive quiescent examinations the detector ends the WAITEVs with deadlock 0x0C03. -/
  | deadlockEnd (reach : Fin 32)
  /-- CORE_DISPATCH (R153): The channel core takes the next waiting command, takes its input snapshot and starts its routine. -/
  | coreDispatch (te : Fin 64)
  /-- STAGE_IN_COMPLETE (R156): The mover finishes staging a data area into Loam and the dispatch request is made. -/
  | stageInComplete (sub : Fin 4096)
  /-- BUDGET_EXPIRY (R157): The routine's cycle count reaches BUDGET and the command ends with budget exceeded before its commit point. -/
  | budgetExpiry (te : Fin 64)
  /-- SWAP_OUT_COMPLETE (R144): A waiting subchannel's context has been written to Basin and its resident slot is free. -/
  | swapOutComplete (te : Fin 64)
  /-- REBALANCER_WINDOW (R159): At each window close the rebalancer marks TEs SLOW or returns them to service. -/
  | rebalancerWindow
  /-- DEV_MIGRATE (R161): SC-S requests the migration of one subchannel to another TE, or it is refused with RESULT 1-5. -/
  | devMigrate (who : Initiator) (sub : Fin 4096) (dest : Fin 64)
  /-- MIGRATION_COMPLETE (R162): A resident subchannel reaches its command boundary, its context moves to the destination TE, and RESULT 0 is set. -/
  | migrationComplete (sub : Fin 4096)
  /-- DEV_TE_RETIRE (R164): SC-S retires a TE, which begins migrating its subchannels to a spare. -/
  | devTeRetire (who : Initiator) (te : Fin 64)
  /-- TE_STALL_RETIRE (R166): A TE island stalled for 20 µs is retired and its resident programs end with control check 0x0507. -/
  | teStallRetire (te : Fin 64)
  /-- SPARE_LOAD_COMPLETE (R165): A spare TE's Loam load completes, it replaces the retired TE in every TEMASK and migrations begin. -/
  | spareLoadComplete (te : Fin 64)
  /-- TE_DISP_INVAL (R150): A write removes a key, a class or the whole dispatch cache of a TE before its next dispatch. -/
  | teDispInval (who : Initiator) (te : Fin 64) (cls : Fin 64) (code : Byte) (classAll all : Bool)
  /-- DEV_DISP_CMD (R167): SC-S replaces a routine entry atomically, copying CUR to PREV and incrementing VER, or it is refused. -/
  | devDispCmd (who : Initiator) (cls : Fin 64) (code : Byte)
  /-- PIN_EDGE_ACCEPT (R174): An input change that has held for the filter time is accepted as a level, timestamped, counted for FQ and raises the pin source if EDGE matches. -/
  | pinEdgeAccept (pin : Fin 96) (level : Bool) (t : DWord)
  /-- WETTING_PULSE (R176): At the pin's slot of each 2 ms period a DI pin sinks the pulsed wetting current. -/
  | wettingPulse (pin : Fin 96) (mv : Nat)
  /-- ADC_SLOT_CONVERSION (R184): Each 625 ns slot of a bank frame converts the source its scan list names and updates the pin record. -/
  | adcSlotConversion (bank : Fin 12) (slot : Fin 8) (code : AdcResult)
  /-- PWM_PERIOD_BOUNDARY (R180): At a PWM period boundary the output turns on and a held non-zero VALUE takes effect. -/
  | pwmPeriodBoundary (pin : Fin 96)
  /-- AUDIO_SAMPLE (R181): An audio PWM pin consumes one FIFO sample and sets the next duty, or counts an underrun. -/
  | audioSample (pin : Fin 96)
  /-- OVERCURRENT_TRIP (R186): A current above the threshold turns the output off within 300 ns and latches it off. -/
  | overcurrentTrip (pin : Fin 96)
  /-- DIAGNOSTIC_DETECT (R186): A pin diagnostic detects its condition, sets ACTIVE and, if fatal, moves the pin to safe state with LATCHOFF. -/
  | diagnosticDetect (pin : Fin 96) (cond : Detected)
  /-- TEST_PULSE (R188): Every OPEN_PER period an off output receives its test pulse for the OPEN or SHORT_GND check. -/
  | testPulse (pin : Fin 96) (isOpen isShort : Bool)
  /-- WALK_STEP (R189): Every 100 µs the walking pattern pulses one participating pin and the others check for CROSS. -/
  | walkStep (moved : List (Fin 96))
  /-- FAULT_REPORT (R197): 10 µs after detection a fault is reported or suppressed, with storm record and first-fault record. -/
  | faultReport
  /-- GUARD_BAND_UPDATE (R192): Every 100 µs the bank guard band is recomputed and may start a background calibration. -/
  | guardBandUpdate (bank : Fin 12) (temp iBank : BitVec 11) (vfld : Byte)
  /-- BACKGROUND_CALIBRATION_PERIOD (R191): The BGCAL_PER period falls due and a background calibration starts. -/
  | backgroundCalibrationPeriod (bank : Fin 12)
  /-- CAL_GO (R191): BANK_CMD.CAL_GO starts an on-demand calibration of the bank into the shadow set. -/
  | calGo (who : Initiator) (bank : Fin 12)
  /-- CALIBRATION_COMPLETE (R191): A calibration completes and at the next frame boundary the shadow set becomes active. -/
  | calibrationComplete (bank : Fin 12) (temp iBank : BitVec 11) (refFault : Bool)
  /-- COMMON_CAUSE_BEGIN (R195): A supply or ground cause held for 5 µs begins a common-cause condition, raising the supply source once. -/
  | commonCauseBegin (banks : BitVec 12) (gndofs vinHi : Bool)
  /-- COMMON_CAUSE_END (R195): A common-cause condition ends after 100 µs with none of its causes present. -/
  | commonCauseEnd
  /-- PIN_RECFG (R200): A GO write checks and applies the shadowed configuration of a pin or pair, or sets a refusal RESULT. -/
  | pinRecfg (who : Initiator) (pin : Fin 96) (pair cal : Bool)
  /-- PIN_RECFG_COMPLETE (R201): A successful reconfiguration takes effect within 10 µs and BUSY reads 0. -/
  | pinRecfgComplete (pin : Fin 96)
  /-- SCAN_GO (R202): BANK_CMD.SCAN_GO checks a new scan list and schedules it, or refuses it. -/
  | scanGo (who : Initiator) (bank : Fin 12)
  /-- SCAN_LIST_APPLY (R202): A pending scan list takes effect at the first frame boundary. -/
  | scanListApply (bank : Fin 12)
  /-- CFL_FRAME_SEND (R208): At each 64 ns link cycle start each UP Confluence link sends a frame with header, digest and echo slots. -/
  | cflFrameSend
  /-- CFL_FRAME_RECEIVE (R209): A received Confluence frame is CRC-checked, its header and identity checked, and its records taken. -/
  | cflFrameReceive (link : Fin 3) (f : CflFrame)
  /-- DIGEST (R219): A received digest record is echoed, answered absent if FENCED, and held for the vote. -/
  | digest (link : Fin 3)
  /-- ECHO (R219): A received echo record confirms a partner's receipt and may carry its own digest. -/
  | echo (link : Fin 3)
  /-- ABSENT (R227): An absent record marks a partner's subchannel FENCED for the vote. -/
  | absent (link : Fin 3)
  /-- TRANSFER (R237): A transfer record carries rejoin stream data to the joining member. -/
  | transfer (link : Fin 3)
  /-- JOIN_REQUEST (R212): A join request control record offers a member for formation or rejoin. -/
  | joinRequest (link : Fin 3)
  /-- JOIN_ACCEPT (R212): A join accept fixes the forming set, ACT_OFS and the entry cycle. -/
  | joinAccept (link : Fin 3)
  /-- EXCLUSION_NOTICE (R233): An exclusion notice marks a position excluded, redecides open votes and may promote a standby. -/
  | exclusionNotice (link : Fin 3)
  /-- REJOIN_DONE (R237): A rejoin-done notice places the joiner in service and raises the vote source. -/
  | rejoinDone (link : Fin 3)
  /-- HOLD (R237): A hold notice makes every in-service member hold commit requests. -/
  | hold (link : Fin 3)
  /-- RELEASE (R237): A release notice ends the commit hold. -/
  | release (link : Fin 3)
  /-- CFL_LINK_UP (R207): A Confluence link completes training and its identity and wiring checks and goes UP. -/
  | cflLinkUp (link : Fin 3) (pos : Fin 4) (mode : Fin 4) (members : BitVec 4) (hash : List Word) (rttLast rttMin rttMax : Byte)
  /-- CFL_LINK_DOWN (R209): No valid frame for 2 µs makes a link DOWN and it retrains. -/
  | cflLinkDown (link : Fin 3)
  /-- CFL_RETRAIN (R210): CFL_CTL.RETRAIN makes a FAILED link train again. -/
  | cflRetrain (who : Initiator) (link : Fin 3)
  /-- FORMATION_ENTRY (R213): At the entry cycle the forming members step their timebases and enter IN SERVICE or STANDBY. -/
  | formationEntry
  /-- DIGEST_RESEND (R219): A digest without echo by RTT_MAX + 64 ns is sent again to that partner. -/
  | digestResend (sub : Fin 4096) (link : Fin 3)
  /-- VOTE_WINDOW_CLOSE (R222): A vote window closes VOTE_WIN after its opening and the vote is decided with the digests held. -/
  | voteWindowClose (sub : Fin 4096)
  /-- ACTUATION_INSTANT (R224): At t_act the Sluice releases or discards the pending image as the vote outcome gives. -/
  | actuationInstant (sub : Fin 4096)
  /-- QUORUM_LOSS_TIMEOUT (R231): A member reaching fewer in-service members than quorum − 1 for 1 ms excludes itself. -/
  | quorumLossTimeout
  /-- TIMEBASE_OFFSET_TIMEOUT (R231): A timebase offset above 20 ns for 100 µs excludes the member. -/
  | timebaseOffsetTimeout
  /-- VOTE_RECORD_EXPIRY (R225): A decided vote record older than 1 ms is discarded. -/
  | voteRecordExpiry
  /-- LEAVE (R231): VOTE_CTL.LEAVE excludes this member with reason 8. -/
  | leave (who : Initiator)
  /-- REJOIN (R236): VOTE_CTL.REJOIN starts a rejoin of an EXCLUDED member by state transfer. -/
  | rejoin (who : Initiator)
  /-- REJOIN_STEP_COMPLETE (R237): A rejoin step ends and the next step of the state transfer begins. -/
  | rejoinStepComplete
  /-- REJOIN_HOLD_TIMEOUT (R237): Dirty blocks not sent within a 50 µs hold release it and repeat steps 4 and 5, failing after eight attempts. -/
  | rejoinHoldTimeout
  /-- COMMIT_ACCEPT (R251): The commit unit accepts a command at its commit point, sending its digest or releasing the Sluice in SIMPLEX. -/
  | commitAccept (sub : Fin 4096)
  /-- COMMIT_STORES_COMPLETE (R251): The held stores complete at the Weir and the device releases register stores, events, commit marks and the CSW request. -/
  | commitStoresComplete (sub : Fin 4096)
  /-- STAGE_OUT_COMPLETE (R156): The staging buffer has been written back to the data area before acceptance. -/
  | stageOutComplete (sub : Fin 4096)
  /-- RETRY_WINDOW (R255): Each 1 s window closes the count of recovered rollbacks for RETRY_WIN_MAX. -/
  | retryWindow
  /-- COMMIT_UNIT_FAULT (R258): A commit-unit check fails after the point of no return, excluding the member or latching outputs safe. -/
  | commitUnitFault (sub : Fin 4096) (stage : Fin 4)
  /-- WARM_RESET_REQUEST (R261): DEV_RESET with KIND 1 requests a warm main-die reset. -/
  | warmResetRequest (who : Initiator)
  /-- COLD_RESET_REQUEST (R261): DEV_RESET with KIND 2 requests a cold main-die reset. -/
  | coldResetRequest (who : Initiator)
  /-- RESET_PIN_LOW (R261): RESET_n low for at least 1 µs is qualified as a warm or cold reset request. -/
  | resetPinLow (ns : Nat)
  /-- MAIN_DIE_RESET (R262): Once accepted commits complete step 5, the main die resets, all outputs go safe and memories are kept or lost by reset kind. -/
  | mainDieReset
  /-- POWER_LOSS_DETECT (R263): VBULK below 4.2 V for 2 µs or PF_n low for 100 ns starts the power-loss sequence. -/
  | powerLossDetect (cause : Fin 4)
  /-- POWER_LOSS_COMMITS_COMPLETE (R264): Commits accepted before detection complete and the journal record is written with FUA. -/
  | powerLossCommitsComplete
  /-- JOURNAL_WRITE_COMPLETE (R263): The journal write completes and an NVMe Flush is issued to every present drive. -/
  | journalWriteComplete
  /-- POWER_LOSS_RESET (R263): VBULK below 3.3 V or 5 ms after detection resets the main die. -/
  | powerLossReset
  /-- POWER_LOSS_RESTART (R267): If the input has recovered, a cold start begins 10 ms after the power-loss reset. -/
  | powerLossRestart
  /-- DRIVE_LINK_UP (R272): A drive link comes up and its controller is enabled. -/
  | driveLinkUp (drv : Fin 16) (width : Fin 8) (speed : Fin 5)
  /-- DRIVE_IDENTIFY_COMPLETE (R272): Identify completes and the drive becomes READY, FOREIGN or FAILED. -/
  | driveIdentifyComplete (drv : Fin 16) (id : DriveId)
  /-- DRIVE_INIT_TIMEOUT (R272): CAP.TO expires during initialisation and the drive is FAILED. -/
  | driveInitTimeout (drv : Fin 16)
  /-- DRIVE_LINK_DOWN (R272): A drive link goes down and the drive becomes ABSENT with commands in flight ended. -/
  | driveLinkDown (drv : Fin 16)
  /-- NVME_COMPLETION (R273): An NVMe command completes, successfully or with an error status ending its archive command. -/
  | nvmeCompletion (id : Nat) (sct : Fin 8) (sc : Byte) (data : NvReply)
  /-- NVME_COMMAND_TIMEOUT (R273): An NVMe command not complete within TMO is aborted and counted as a timeout. -/
  | nvmeCommandTimeout (id : Nat)
  /-- DRIVE_RESET (R272): SILT_DRV_CMD RESET pulses SPERST_n of a FAILED drive. -/
  | driveReset (who : Initiator) (drv : Fin 16)
  /-- DRIVE_ADOPT (R274): SILT_DRV_CMD ADOPT accepts a FOREIGN drive as blank and empties its rings. -/
  | driveAdopt (who : Initiator) (drv : Fin 16)
  /-- DRIVE_REMOVE (R272): SILT_DRV_CMD REMOVE stops new commands, flushes and shuts the drive down. -/
  | driveRemove (who : Initiator) (drv : Fin 16)
  /-- DRIVE_SHUTDOWN_COMPLETE (R272): Shutdown completes or 2 s pass and the drive becomes ABSENT. -/
  | driveShutdownComplete (drv : Fin 16)
  /-- DRIVE_LATENCY_WINDOW (R278): Every 100 ms each drive's write latency is reported and SLOW set or cleared. -/
  | driveLatencyWindow (drv : Fin 16) (mean max : Bool)
  /-- BOUNCE_SPACE_GRANT (R271): Bounce buffer space becomes free for a waiting ARCHIVE. -/
  | bounceSpaceGrant (sub : Fin 4096)
  /-- RECORD_ALLOCATE (R282): A record takes a sequence and blocks of its ring, or is refused as full. -/
  | recordAllocate (sub : Fin 4096)
  /-- RECORD_HEADER_WRITE (R284): Once the commit mark is released, payload written and predecessor committed, the header block is written with FUA. -/
  | recordHeaderWrite (ring : Fin 256)
  /-- RECORD_COMMITTED (R284): The header write completes, the record is committed, its index entry written and device end sent. -/
  | recordCommitted (ring : Fin 256)
  /-- RECORD_VOID (R285): An allocation whose command ends before its commit mark receives a void header. -/
  | recordVoid (ring : Fin 256)
  /-- RING_RELEASE (R287): SILT_RING_CMD RELEASE moves RELSEQ forward. -/
  | ringRelease (who : Initiator) (ring : Fin 256) (seq : Word)
  /-- RING_ENABLE (R289): SILT_RING_CMD ENABLE starts recovery of a ring. -/
  | ringEnable (who : Initiator) (ring : Fin 256)
  /-- RING_DISABLE (R289): SILT_RING_CMD DISABLE checkpoints and disables a ring once open records have ended. -/
  | ringDisable (who : Initiator) (ring : Fin 256)
  /-- RING_SCAN_COMPLETE (R289): The forward scan of a recovering ring ends and the ring goes ONLINE with an index rebuild started. -/
  | ringScanComplete (ring : Fin 256) (ckA ckB : List Byte) (blocks : Tbl (List Byte))
  /-- INDEX_REBUILD_COMPLETE (R289): The index rebuild reaches COMMITTED and INDEXED is set. -/
  | indexRebuildComplete (ring : Fin 256) (blocks : Tbl (List Byte))
  /-- SILT_COPY_GO (R292): SILT_COPY_CTL.GO starts a drive-to-drive block copy, or refuses it. -/
  | siltCopyGo (who : Initiator)
  /-- SILT_COPY_COMPLETE (R292): Every destination write of a copy has completed and DONE is set. -/
  | siltCopyComplete (err : Bool)
  /-- DMA_CH_TAIL (R293): A write of DMA_CH_TAIL makes descriptors available and starts an IDLE channel. -/
  | dmaChTail (who : Initiator) (ch : Fin 32) (tail : BitVec 12)
  /-- DMA_BURST (R297): A channel with a ready burst and its request asserted is served and moves BURST elements. -/
  | dmaBurst
  /-- DMA_REQUEST_WITHDRAW (R296): A withdrawn peripheral request fills unread elements of the current burst with DMA_CH_FILL. -/
  | dmaRequestWithdraw (ch : Fin 32) (read : Fin 1025)
  /-- DMA_DESCRIPTOR_COMPLETE (R298): All writes of a descriptor complete; its status is written and its completion pulse sent. -/
  | dmaDescriptorComplete (ch : Fin 32)
  /-- DMA_RESUME (R299): DMA_CH_CTL.RESUME leaves HALTED and continues at HEAD + 1. -/
  | dmaResume (who : Initiator) (ch : Fin 32)
  /-- DMA_ABORT (R299): DMA_CH_CTL.ABORT ends the current descriptor at a burst boundary and sets HEAD to TAIL. -/
  | dmaAbort (who : Initiator) (ch : Fin 32)
  /-- SIFT_BLOCK (R302): The Sift unit transforms one block of 256 samples forward or inverse. -/
  | siftBlock (user : SiftUser)
  /-- BROOK_OUTPUT_LATCH (R310): At T − 1 µs the link latches the committed output values for the cycle's PD_OUT frames. -/
  | brookOutputLatch (link : Fin 16) (syms : Fin 64)
  /-- PD_OUT (R308): At T + 5p µs the link sends PD_OUT to configured position p. -/
  | pdOut (link : Fin 16) (pos : Fin 8)
  /-- PD_IN (R312): A received PD_IN is checked for freshness and updates the position's inputs, ATTN and BUSY state. -/
  | pdIn (link : Fin 16) (f : BkArrival)
  /-- BROOK_INPUT_IMAGE_WRITE (R311): At T + 62 µs the link writes the input image and counts misses, marking positions LOST after PD_MISS. -/
  | brookInputImageWrite (link : Fin 16)
  /-- BROOK_MESSAGE_SEND (R315): The cycle's message slot sends the chosen exchange, retry, IDENT or staged frame. -/
  | brookMessageSend (link : Fin 16)
  /-- ACK (R319): An accepted ACK reply ends a WRITE, CONTROL or staged exchange. -/
  | ack (link : Fin 16) (f : BkArrival)
  /-- DATA (R319): An accepted DATA reply ends a READ, IDENT or BULK exchange. -/
  | data (link : Fin 16) (f : BkArrival)
  /-- NAK (R317): An accepted NAK ends the command with unit check 0x0201 without retry. -/
  | nak (link : Fin 16) (f : BkArrival)
  /-- BROOK_REPLY_TIMEOUT (R309): A reply not begun within 20 µs is a timeout; the attempt fails and is retried or ends the command. -/
  | brookReplyTimeout (link : Fin 16)
  /-- BK_TXDATA (R322): A write pushes 4 bytes into the link's transmit FIFO. -/
  | bkTxdata (who : Initiator) (link : Fin 16) (val : Word)
  /-- BK_RXDATA (R322): A read pops 4 bytes from the link's receive FIFO. -/
  | bkRxdata (who : Initiator) (link : Fin 16)
  /-- BROOK_SIGNAL_DETECT (R323): An enabled DOWN link detects signal and starts training. -/
  | brookSignalDetect (link : Fin 16)
  /-- BROOK_TRAINING_COMPLETE (R323): Training completes with 1 ms free of symbol errors and the link goes UP. -/
  | brookTrainingComplete (link : Fin 16) (eq : Byte)
  /-- BROOK_TRAINING_TIMEOUT (R323): Training not complete within 2 ms returns the link to DOWN, retried after 10 ms. -/
  | brookTrainingTimeout (link : Fin 16)
  /-- BROOK_LINK_DOWN (R323): Loss of signal for 2 µs or 64 symbol errors in a cycle takes the link DOWN. -/
  | brookLinkDown (link : Fin 16) (syms : Half)
  /-- BK_RETRAIN (R323): BK_CTL.RETRAIN returns the link to TRAINING. -/
  | bkRetrain (who : Initiator) (link : Fin 16)
  /-- BK_ENABLE (R323): A write of BK_CTL.EN enables or disables the link. -/
  | bkEnable (who : Initiator) (link : Fin 16) (en : Bool)
  /-- BK_CNT_CLR (R323): BK_CTL.CNT_CLR sets the link's error counters to 0. -/
  | bkCntClr (who : Initiator) (link : Fin 16)
  /-- BK_POS_RESET (R313): BK_CTL.POS_RESET returns a FAILED position to LOST. -/
  | bkPosReset (who : Initiator) (link : Fin 16) (mask : Byte)
  /-- BROOK_EYE_MEASURE (R324): Every 1 ms the shadow receiver reports eye margins and may start its own training after HOLD. -/
  | brookEyeMeasure (link : Fin 16) (v h : Byte)
  /-- SHADOW_TRAINING_COMPLETE (R324): The shadow receiver's training ends and verification of 2^20 symbols begins, or a failure is counted. -/
  | shadowTrainingComplete (link : Fin 16) (good : Bool) (eq : Byte)
  /-- SHADOW_VERIFIED (R324): The shadow receiver verifies 2^20 symbols with margin and becomes ready to take over. -/
  | shadowVerified (link : Fin 16) (clean : Bool) (v h : Byte)
  /-- SHADOW_SWAP (R325): A verified shadow takes over at the next idle interval and the former primary becomes the shadow. -/
  | shadowSwap (link : Fin 16)
  /-- LB (R337): LB loads a sign-extended byte. -/
  | lb (h : Hdr) (rd rs : Fin 32) (disp : BitVec 12)
  /-- LBU (R337): LBU loads a zero-extended byte. -/
  | lbu (h : Hdr) (rd rs : Fin 32) (disp : BitVec 12)
  /-- LH (R337): LH loads a sign-extended half-word. -/
  | lh (h : Hdr) (rd rs : Fin 32) (disp : BitVec 12)
  /-- LHU (R337): LHU loads a zero-extended half-word. -/
  | lhu (h : Hdr) (rd rs : Fin 32) (disp : BitVec 12)
  /-- LW (R337): LW loads a word. -/
  | lw (h : Hdr) (rd rs : Fin 32) (disp : BitVec 12)
  /-- SB (R337): SB stores a byte. -/
  | sb (h : Hdr) (rd rs : Fin 32) (disp : BitVec 12)
  /-- SH (R337): SH stores a half-word. -/
  | sh (h : Hdr) (rd rs : Fin 32) (disp : BitVec 12)
  /-- SW (R337): SW stores a word. -/
  | sw (h : Hdr) (rd rs : Fin 32) (disp : BitVec 12)
  /-- LW_S (R337): LW.S loads a word with the 16-bit address form. -/
  | lwS (core : Short) (rd rs : Fin 16) (d5 : Fin 32)
  /-- SW_S (R337): SW.S stores a word with the 16-bit address form. -/
  | swS (core : Short) (rt rs : Fin 16) (d5 : Fin 32)
  /-- ADD (R340): ADD writes a + b. -/
  | add (h : Hdr) (rd rs1 rs2 : Fin 32)
  /-- SUB (R340): SUB writes a − b. -/
  | sub (h : Hdr) (rd rs1 rs2 : Fin 32)
  /-- AND (R340): AND writes a & b. -/
  | andR (h : Hdr) (rd rs1 rs2 : Fin 32)
  /-- OR (R340): OR writes a | b. -/
  | orR (h : Hdr) (rd rs1 rs2 : Fin 32)
  /-- XOR (R340): XOR writes a ^ b. -/
  | xorR (h : Hdr) (rd rs1 rs2 : Fin 32)
  /-- ANDN (R340): ANDN writes a & ~b. -/
  | andn (h : Hdr) (rd rs1 rs2 : Fin 32)
  /-- SLL (R340): SLL shifts left by b[4:0]. -/
  | sll (h : Hdr) (rd rs1 rs2 : Fin 32)
  /-- SRL (R340): SRL shifts right logically by b[4:0]. -/
  | srl (h : Hdr) (rd rs1 rs2 : Fin 32)
  /-- SRA (R340): SRA shifts right arithmetically by b[4:0]. -/
  | sra (h : Hdr) (rd rs1 rs2 : Fin 32)
  /-- ROR (R340): ROR rotates right by b[4:0]. -/
  | ror (h : Hdr) (rd rs1 rs2 : Fin 32)
  /-- SLT (R340): SLT writes 1 if a < b signed. -/
  | slt (h : Hdr) (rd rs1 rs2 : Fin 32)
  /-- SLTU (R340): SLTU writes 1 if a < b unsigned. -/
  | sltu (h : Hdr) (rd rs1 rs2 : Fin 32)
  /-- MIN (R340): MIN writes the signed minimum. -/
  | min (h : Hdr) (rd rs1 rs2 : Fin 32)
  /-- MAX (R340): MAX writes the signed maximum. -/
  | max (h : Hdr) (rd rs1 rs2 : Fin 32)
  /-- MINU (R340): MINU writes the unsigned minimum. -/
  | minu (h : Hdr) (rd rs1 rs2 : Fin 32)
  /-- MAXU (R340): MAXU writes the unsigned maximum. -/
  | maxu (h : Hdr) (rd rs1 rs2 : Fin 32)
  /-- MUL (R340): MUL writes bits [31:0] of a × b. -/
  | mul (h : Hdr) (rd rs1 rs2 : Fin 32)
  /-- MULH (R340): MULH writes bits [63:32] of the signed product. -/
  | mulh (h : Hdr) (rd rs1 rs2 : Fin 32)
  /-- MULHU (R340): MULHU writes bits [63:32] of the unsigned product. -/
  | mulhu (h : Hdr) (rd rs1 rs2 : Fin 32)
  /-- DIV (R341): DIV divides signed, truncating toward zero, without trapping. -/
  | div (h : Hdr) (rd rs1 rs2 : Fin 32)
  /-- DIVU (R341): DIVU divides unsigned without trapping. -/
  | divu (h : Hdr) (rd rs1 rs2 : Fin 32)
  /-- REM (R341): REM writes the signed remainder. -/
  | rem (h : Hdr) (rd rs1 rs2 : Fin 32)
  /-- REMU (R341): REMU writes the unsigned remainder. -/
  | remu (h : Hdr) (rd rs1 rs2 : Fin 32)
  /-- CLZ (R340): CLZ counts leading zeros. -/
  | clz (h : Hdr) (rd rs1 : Fin 32)
  /-- POPC (R340): POPC counts 1 bits. -/
  | popc (h : Hdr) (rd rs1 : Fin 32)
  /-- SEXTB (R340): SEXTB sign-extends a byte. -/
  | sextb (h : Hdr) (rd rs1 : Fin 32)
  /-- SEXTH (R340): SEXTH sign-extends a half-word. -/
  | sexth (h : Hdr) (rd rs1 : Fin 32)
  /-- BSWAP (R340): BSWAP reverses the bytes. -/
  | bswap (h : Hdr) (rd rs1 : Fin 32)
  /-- ADDI (R340): ADDI adds a sign-extended immediate. -/
  | addi (h : Hdr) (rd rs1 : Fin 32) (imm : BitVec 10)
  /-- ANDI (R340): ANDI ANDs a sign-extended immediate. -/
  | andi (h : Hdr) (rd rs1 : Fin 32) (imm : BitVec 10)
  /-- ORI (R340): ORI ORs a zero-extended immediate. -/
  | ori (h : Hdr) (rd rs1 : Fin 32) (imm : BitVec 10)
  /-- XORI (R340): XORI XORs a zero-extended immediate. -/
  | xori (h : Hdr) (rd rs1 : Fin 32) (imm : BitVec 10)
  /-- SLLI (R340): SLLI shifts left by SHAMT. -/
  | slli (h : Hdr) (rd rs1 sh : Fin 32)
  /-- SRLI (R340): SRLI shifts right logically by SHAMT. -/
  | srli (h : Hdr) (rd rs1 sh : Fin 32)
  /-- SRAI (R340): SRAI shifts right arithmetically by SHAMT. -/
  | srai (h : Hdr) (rd rs1 sh : Fin 32)
  /-- RORI (R340): RORI rotates right by SHAMT. -/
  | rori (h : Hdr) (rd rs1 sh : Fin 32)
  /-- LUI (R340): LUI loads IMM16 into the upper half. -/
  | lui (h : Hdr) (rd : Fin 32) (imm : Half)
  /-- LLO (R340): LLO replaces the lower half with IMM16. -/
  | llo (h : Hdr) (rd : Fin 32) (imm : Half)
  /-- MOV_S (R340): MOV.S copies a register. -/
  | movS (core : Short) (rd rs : Fin 16)
  /-- ADD_S (R340): ADD.S adds in place. -/
  | addS (core : Short) (rd rs : Fin 16)
  /-- SUB_S (R340): SUB.S subtracts in place. -/
  | subS (core : Short) (rd rs : Fin 16)
  /-- AND_S (R340): AND.S ANDs in place. -/
  | andS (core : Short) (rd rs : Fin 16)
  /-- OR_S (R340): OR.S ORs in place. -/
  | orS (core : Short) (rd rs : Fin 16)
  /-- XOR_S (R340): XOR.S XORs in place. -/
  | xorS (core : Short) (rd rs : Fin 16)
  /-- SLL_S (R340): SLL.S shifts left by a register. -/
  | sllS (core : Short) (rd rs : Fin 16)
  /-- SRL_S (R340): SRL.S shifts right logically by a register. -/
  | srlS (core : Short) (rd rs : Fin 16)
  /-- SRA_S (R340): SRA.S shifts right arithmetically by a register. -/
  | sraS (core : Short) (rd rs : Fin 16)
  /-- MUL_S (R340): MUL.S multiplies in place. -/
  | mulS (core : Short) (rd rs : Fin 16)
  /-- NEG_S (R340): NEG.S negates. -/
  | negS (core : Short) (rd rs : Fin 16)
  /-- NOT_S (R340): NOT.S complements. -/
  | notS (core : Short) (rd rs : Fin 16)
  /-- SLLI_S (R340): SLLI.S shifts left by RS + 1. -/
  | slliS (core : Short) (rd rs : Fin 16)
  /-- SRLI_S (R340): SRLI.S shifts right logically by RS + 1. -/
  | srliS (core : Short) (rd rs : Fin 16)
  /-- SRAI_S (R340): SRAI.S shifts right arithmetically by RS + 1. -/
  | sraiS (core : Short) (rd rs : Fin 16)
  /-- ADDI_S (R340): ADDI.S adds a sign-extended 8-bit immediate. -/
  | addiS (core : Short) (rd : Fin 16) (imm : Byte)
  /-- LI_S (R340): LI.S loads a sign-extended 8-bit immediate. -/
  | liS (core : Short) (rd : Fin 16) (imm : Byte)
  /-- CMP (R342): CMP compares two registers and combines the result into a predicate. -/
  | cmp (h : Hdr) (pd cond : Fin 8) (rs1 rs2 : Fin 32) (pcomb : Fin 4)
  /-- CMPI (R342): CMPI compares a register with an immediate and sets a predicate. -/
  | cmpi (h : Hdr) (pd cond : Fin 8) (rs1 : Fin 32) (imm : BitVec 9)
  /-- PAND (R342): PAND ANDs two predicates. -/
  | pand (h : Hdr) (pd pa pb : Fin 8)
  /-- POR (R342): POR ORs two predicates. -/
  | por (h : Hdr) (pd pa pb : Fin 8)
  /-- PXOR (R342): PXOR XORs two predicates. -/
  | pxor (h : Hdr) (pd pa pb : Fin 8)
  /-- PANDN (R342): PANDN ANDs a predicate with the complement of another. -/
  | pandn (h : Hdr) (pd pa pb : Fin 8)
  /-- PNOT (R342): PNOT complements a predicate. -/
  | pnot (h : Hdr) (pd pa : Fin 8)
  /-- PMOV (R342): PMOV copies a predicate. -/
  | pmov (h : Hdr) (pd pa : Fin 8)
  /-- PRD (R342): PRD reads all predicates into a register. -/
  | prd (h : Hdr) (gr : Fin 32)
  /-- PWR (R342): PWR writes predicates 1-7 from a register. -/
  | pwr (h : Hdr) (gr : Fin 32)
  /-- BRA (R343): BRA branches PC-relative. -/
  | bra (h : Hdr) (off : BitVec 20)
  /-- CALL (R343): CALL pushes PC + 4 and branches. -/
  | call (h : Hdr) (off : BitVec 20)
  /-- BRA_S (R343): BRA.S branches unconditionally with a 13-bit offset. -/
  | braS (core : Short) (off : BitVec 13)
  /-- JMPR (R343): JMPR jumps to a register. -/
  | jmpr (h : Hdr) (rs1 : Fin 32)
  /-- CALLR (R343): CALLR pushes PC + 4 and jumps to a register. -/
  | callr (h : Hdr) (rs1 : Fin 32)
  /-- RET (R345): RET pops the return stack; popping the exit address on a channel core is the commit request. -/
  | ret (h : Hdr)
  /-- RSPUSH (R344): RSPUSH pushes a register onto the return stack. -/
  | rspush (h : Hdr) (rs1 : Fin 32)
  /-- RSPOP (R344): RSPOP pops the return stack into a register. -/
  | rspop (h : Hdr) (rd : Fin 32)
  /-- RSDEPTH (R344): RSDEPTH reads the return-stack depth. -/
  | rsdepth (h : Hdr) (rd : Fin 32)
  /-- GATE (R409): GATE checks a gate descriptor and arguments, writes a frame and enters the gate. -/
  | gate (h : Hdr) (n : Fin 1024)
  /-- GRET (R409): GRET returns from the innermost open gate. -/
  | gret (h : Hdr)
  /-- FENCE (R340): FENCE waits for earlier loads and unheld stores to complete. -/
  | fence (h : Hdr)
  /-- IFLUSH (R340): IFLUSH fences and empties the fetch buffer. -/
  | iflush (h : Hdr)
  /-- MFC (R332): MFC reads a control register. -/
  | mfc (h : Hdr) (rd : Fin 32) (cr : Fin 1024)
  /-- MTC (R332): MTC writes a control register. -/
  | mtc (h : Hdr) (cr : Fin 1024) (rs : Fin 32)
  /-- CPCC (R401): MTC CPCC copies the PCC with its tag into c7. -/
  | cpcc (h : Hdr) (rs : Fin 32)
  /-- CXPCC (R401): MTC CXPCC exchanges XPCC and c7. -/
  | cxpcc (h : Hdr) (rs : Fin 32)
  /-- CEPCC (R401): MTC CEPCC exchanges EPCC and c7. -/
  | cepcc (h : Hdr) (rs : Fin 32)
  /-- CXC0 (R401): MTC CXC0 exchanges XC0 and c7. -/
  | cxc0 (h : Hdr) (rs : Fin 32)
  /-- CEC0 (R401): MTC CEC0 exchanges EC0 and c7. -/
  | cec0 (h : Hdr) (rs : Fin 32)
  /-- ECINVAL (R401): MTC ECINVAL removes an object type, or all, from the core's epoch cache. -/
  | ecinval (h : Hdr) (rs : Fin 32)
  /-- LR (R339): LR loads a word from Basin and reserves its granule. -/
  | lr (h : Hdr) (rd rs1 : Fin 32)
  /-- SC (R339): SC stores if the reservation is held and reports success. -/
  | sc (h : Hdr) (rd rs2 rs1 : Fin 32)
  /-- XRET (R360): XRET restores the saved state and returns to RAX. -/
  | xret (h : Hdr)
  /-- BRK (R343): BRK halts the TE when halts are enabled. -/
  | brk (h : Hdr)
  /-- NOP_S (R343): NOP.S does nothing. -/
  | nopS (core : Short)
  /-- RET_S (R343): RET.S acts as RET. -/
  | retS (core : Short)
  /-- JMPR_S (R343): JMPR.S jumps to a register. -/
  | jmprS (core : Short) (rs : Fin 16)
  /-- CALLR_S (R343): CALLR.S pushes PC + 2 and jumps to a register. -/
  | callrS (core : Short) (rs : Fin 16)
  /-- BT_S (R343): BT.S branches if a predicate is true. -/
  | btS (core : Short) (p : Fin 8) (off : BitVec 6)
  /-- BF_S (R343): BF.S branches if a predicate is false. -/
  | bfS (core : Short) (p : Fin 8) (off : BitVec 6)
  /-- LOOP (R347): LOOP sets up a hardware loop level or skips an empty body. -/
  | loop (h : Hdr) (lvl : Fin 4) (ci : Bool) (cnt : BitVec 7) (rs : Fin 32) (endoff : BitVec 10)
  /-- DADD (R349): DADD adds packed decimal with carry in 0. -/
  | dadd (h : Hdr) (rd rs1 rs2 : Fin 32)
  /-- DADDC (R349): DADDC adds packed decimal with carry in ST.DC. -/
  | daddc (h : Hdr) (rd rs1 rs2 : Fin 32)
  /-- DSUB (R349): DSUB subtracts packed decimal with borrow in 0. -/
  | dsub (h : Hdr) (rd rs1 rs2 : Fin 32)
  /-- DSUBC (R349): DSUBC subtracts packed decimal with borrow in ST.DC. -/
  | dsubc (h : Hdr) (rd rs1 rs2 : Fin 32)
  /-- DADJ (R349): DADJ keeps N digits and replaces non-decimal digits. -/
  | dadj (h : Hdr) (rd rs1 n : Fin 32)
  /-- DCVT_BD (R349): DCVT.BD converts binary to packed decimal. -/
  | dcvtBd (h : Hdr) (rd rs1 : Fin 32)
  /-- DCVT_DB (R349): DCVT.DB converts packed decimal to binary. -/
  | dcvtDb (h : Hdr) (rd rs1 : Fin 32)
  /-- CLC (R350): CLC loads a capability with its tag. -/
  | clc (h : Hdr) (cd : Fin 8) (rs : Fin 32) (cs : Fin 8) (disp : BitVec 9)
  /-- CSC (R350): CSC stores a capability and sets the granule tag. -/
  | csc (h : Hdr) (cd : Fin 8) (rs : Fin 32) (cs : Fin 8) (disp : BitVec 9)
  /-- CMOV (R350): CMOV copies a capability register. -/
  | cmov (h : Hdr) (cd ca : Fin 8)
  /-- CCLR (R350): CCLR clears a capability register. -/
  | cclr (h : Hdr) (cd : Fin 8)
  /-- CSETB (R398): CSETB narrows a capability's bounds. -/
  | csetb (h : Hdr) (cd ca : Fin 8) (rs1 rs2 : Fin 32)
  /-- CANDP (R398): CANDP reduces a capability's permissions. -/
  | candp (h : Hdr) (cd ca : Fin 8) (rs1 : Fin 32)
  /-- CSEAL (R399): CSEAL seals a capability with the PCC's object type. -/
  | cseal (h : Hdr) (cd ca : Fin 8) (rs1 : Fin 32)
  /-- CUNSEAL (R398): CUNSEAL unseals a capability under an UNSEAL authority. -/
  | cunseal (h : Hdr) (cd ca : Fin 8) (rs2 : Fin 32)
  /-- CGET (R350): CGET reads a field of a capability. -/
  | cget (h : Hdr) (rs1 : Fin 32) (ca : Fin 8) (sel : Fin 32)
  /-- CJMP (R400): CJMP checks a capability and jumps with it as PCC. -/
  | cjmp (h : Hdr) (ca : Fin 8) (rs2 : Fin 32)
  /-- CRC16_B (R352): CRC16.B advances a CRC-16 by one byte. -/
  | crc16B (h : Hdr) (rd rs1 rs2 : Fin 32)
  /-- CRC16_W (R352): CRC16.W advances a CRC-16 by four bytes. -/
  | crc16W (h : Hdr) (rd rs1 rs2 : Fin 32)
  /-- CRC32C_B (R352): CRC32C.B advances a CRC-32C by one byte. -/
  | crc32cB (h : Hdr) (rd rs1 rs2 : Fin 32)
  /-- CRC32C_W (R352): CRC32C.W advances a CRC-32C by four bytes. -/
  | crc32cW (h : Hdr) (rd rs1 rs2 : Fin 32)
  /-- C64INIT (R352): C64INIT clears the digest accumulator. -/
  | c64init (h : Hdr)
  /-- C64_W (R352): C64.W advances the CRC-64 accumulator by four bytes. -/
  | c64W (h : Hdr) (rs2 : Fin 32)
  /-- C64LO (R352): C64LO reads accumulator bits [31:0]. -/
  | c64lo (h : Hdr) (rd : Fin 32)
  /-- C64HI (R352): C64HI reads accumulator bits [63:32]. -/
  | c64hi (h : Hdr) (rd : Fin 32)
  /-- SXCLR (R353): SXCLR clears the bit-plane buffer and index. -/
  | sxclr (h : Hdr)
  /-- SXPUT (R353): SXPUT places two samples in the buffer. -/
  | sxput (h : Hdr) (rs1 : Fin 32)
  /-- SXPLN (R353): SXPLN reads 32 bits of a plane. -/
  | sxpln (h : Hdr) (rd rs1 : Fin 32)
  /-- SXMSK (R353): SXMSK computes the block's ZMASK and OMASK. -/
  | sxmsk (h : Hdr) (rd : Fin 32)
  /-- SXPPL (R353): SXPPL writes 32 bits of a plane. -/
  | sxppl (h : Hdr) (rs1 rs2 : Fin 32)
  /-- SXGET (R353): SXGET reads two samples from the buffer. -/
  | sxget (h : Hdr) (rd : Fin 32)
  /-- SXSET (R353): SXSET sets the buffer index. -/
  | sxset (h : Hdr) (rs1 : Fin 32)
  /-- FIRD (R354): FIRD reads a word of the field image. -/
  | fird (h : Hdr) (rd rs1 : Fin 32)
  /-- FIRDH (R354): FIRDH reads a half-word of the field image. -/
  | firdh (h : Hdr) (rd rs1 : Fin 32)
  /-- FIRDB (R354): FIRDB reads a byte of the field image. -/
  | firdb (h : Hdr) (rd rs1 : Fin 32)
  /-- FIOUT (R355): FIOUT holds an output entry until the commit request. -/
  | fiout (h : Hdr) (rs1 : Fin 32)
  /-- FIOUTR (R354): FIOUTR reads the held or committed value of an output target. -/
  | fioutr (h : Hdr) (rd rs1 : Fin 32)
  /-- TBLO (R356): TBLO reads timebase bits [31:0] and latches the high half. -/
  | tblo (h : Hdr) (rd : Fin 32)
  /-- TBHI (R356): TBHI reads the latched timebase high half. -/
  | tbhi (h : Hdr) (rd : Fin 32)
  /-- INTERRUPT_TAKE (R369): A supervisor core takes a presented interrupt request at an instruction boundary. -/
  | interruptTake (k : Fin 2)
  /-- PROGRESS_WATCHDOG (R368): No instruction completing for 8,192 cycles raises cause 0x16, ARG 1. -/
  | progressWatchdog (core : Fin 66)
  /-- SUPERVISOR_WATCHDOG_EXPIRY (R367): The supervisor watchdog expires, raising cause 0x16 or, on a second expiry, locking the core. -/
  | supervisorWatchdogExpiry (k : Fin 2)
  /-- SC_WDOG_KICK (R367): A write of the key restarts the watchdog; any other value is an expiry. -/
  | scWdogKick (who : Initiator) (k : Fin 2) (val : Word)
  /-- LEVEE_COMMIT (R391): A GO write checks the shadowed region table and applies it in one step, or refuses it. -/
  | leveeCommit (who : Initiator)
  /-- LEVEE_COPIES_UPDATED (R391): Every core's copy of its Loam entries has been updated and BUSY clears. -/
  | leveeCopiesUpdated
  /-- LEVEE_REVOKE (R403): A write increments an object type's epoch and sends its invalidation to every core. -/
  | leveeRevoke (who : Initiator) (otype : BitVec 12)
  /-- REVOKE_INVALIDATION_DONE (R403): Every core has removed the revoked type from its epoch cache and BUSY clears. -/
  | revokeInvalidationDone
  /-- EVT_SET (R413): A write of EVT_SET raises a software-set source of the writer's world, or is refused. -/
  | evtSet (who : Initiator) (src : Fin 2048)
  /-- EVT_CLAIM (R422): A read by the target claims the current winner, setting ACTIVE and decrementing COUNT. -/
  | evtClaim (who : Initiator) (t : Fin 4)
  /-- EVT_DONE (R423): A write completes an ACTIVE source at the target. -/
  | evtDone (who : Initiator) (t : Fin 4) (src : Fin 2048)
  /-- EVT_SRC_CONFIG (R424): A write of a source's PRIO, TARGET, EN or VECTOR takes effect at the next evaluation. -/
  | evtSrcConfig (who : Initiator) (src : Fin 2048) (val : Word)
  /-- EVT_SRC_CLR (R416): CLR sets a source's COUNT to 0 and clears OVF. -/
  | evtSrcClr (who : Initiator) (src : Fin 2048)
  /-- MBX_TX (R428): A write places a word in the other end's inbound queue, or is refused when full. -/
  | mbxTx (who : Initiator) (ch : Fin 16) (cEnd : Bool) (val : Word)
  /-- MBX_RX (R428): A read takes the head word of the reader's inbound queue. -/
  | mbxRx (who : Initiator) (ch : Fin 16) (cEnd : Bool)
  /-- MBX_DB_SET (R430): A write sets doorbell bits 0-30 at the other end. -/
  | mbxDbSet (who : Initiator) (ch : Fin 16) (cEnd : Bool) (val : Word)
  /-- MBX_DB_MASK (R430): A write of the doorbell mask; unmasking a set bit counts as the bit rising. -/
  | mbxDbMask (who : Initiator) (ch : Fin 16) (cEnd : Bool) (val : Word)
  /-- MBX_ACK_TX (R431): A write delivers CODE and SEQ to the other end's MBX_ACK_RX. -/
  | mbxAckTx (who : Initiator) (ch : Fin 16) (cEnd : Bool) (val : Word)
  /-- MBX_RECEIVER_RESET (R433): MBX_RESET with RX empties the inbound queue and notifies the other end with acknowledge 0xFFFF. -/
  | mbxReceiverReset (who : Initiator) (ch : Fin 16) (cEnd : Bool)
  /-- MBX_SENDER_RESET (R434): MBX_RESET with TX sets SENDER_RESET at the other end and clears the sender's acknowledge state. -/
  | mbxSenderReset (who : Initiator) (ch : Fin 16) (cEnd : Bool)
  /-- WEIR_GRANT (R439): In each Weir cycle each Basin bank and the DRAM target grant one request by age, fullness, pointer and spare order. -/
  | weirGrant (reqs : List WeirAsk) (scrubs : List ScrubAsk) (dramFree : Bool)
  /-- WEIR_WINDOW_BOUNDARY (R438): At each window boundary every credit counter is reset and a pending commit applies. -/
  | weirWindowBoundary
  /-- WEIR_COMMIT (R441): A GO write checks the shadowed Weir values and accepts them for the next window, or refuses. -/
  | weirCommit (who : Initiator)
  /-- DRAM_MAINTENANCE (R444): The DRAM controller performs refresh, ZQ calibration or DQS retraining on its timers. -/
  | dramMaintenance (kind : Fin 3)
  /-- DEV_WIN_WRITE (R447): A write of DEV_WIN takes effect at the core within 12 ns for later accesses. -/
  | devWinWrite (who : Initiator) (k : Fin 66) (val : Word)
  /-- HOST_LINK_UP (R468): The host link comes up and source 1,227 is raised. -/
  | hostLinkUp (speed : Fin 5) (width : Fin 5)
  /-- HOST_CONFIG_REQUEST (R466): A configuration request is answered with retry status or completed, by start-up period. -/
  | hostConfigRequest (pf : Fin 2) (req : CfgReq)
  /-- HOST_MEMORY_REQUEST_BEFORE_READY (R466): A memory request before READY is answered Unsupported Request or discarded. -/
  | hostMemoryRequestBeforeReady (pf : Fin 2) (write : Bool)
  /-- HOST_COMPLETION_RECEIVE (R459): A completion for a device request is received, reassembled and used, or treated as an error. -/
  | hostCompletionReceive (use : HostUse) (addr : BitVec 48) (data : List Byte) (status : Fin 4)
  /-- HOST_COMPLETION_TIMEOUT (R460): A host request without completion within the timeout ends as R80. -/
  | hostCompletionTimeout (use : HostUse)
  /-- POISONED_WRITE_RECEIVE (R462): A received poisoned write is discarded and reported under AER. -/
  | poisonedWriteReceive (pf : Fin 2)
  /-- FUNCTION_LEVEL_RESET (R463): An FLR resets one function's configuration, mailbox H ends, event target state and outstanding requests. -/
  | functionLevelReset (pf : Fin 2)
  /-- HOST_LINK_RESET (R464): A Hot Reset, link down or HOST_PERST_n acts as an FLR of both functions and retrains the link. -/
  | hostLinkReset
  /-- D_STATE_CHANGE (R465): A function enters or leaves D3hot, holding or restoring service. -/
  | dStateChange (pf : Fin 2) (d3 : Bool)
  /-- MSIX_UNMASK (R461): A cleared MSI-X mask or enable sends held messages or clears their PBA bits. -/
  | msixUnmask (pf : Fin 2) (w : MsixWr)
  /-- BUS_MASTER_DISABLE (R455): Bus Master Enable cleared stops the function's requests and raises source 1,227. -/
  | busMasterDisable (pf : Fin 2)
  /-- SUPPLY_GOOD (R485): VBULK at 4.5 V with every rail good starts the field die and the cold start. -/
  | supplyGood
  /-- FIELD_SELF_TEST_COMPLETE (R485): The field-die self-test completes and PIN_FD_STAT is written. -/
  | fieldSelfTestComplete (failed : BitVec 12)
  /-- MAIN_DIE_RESET_RELEASE (R485): The main-die reset is released, the timebase starts and straps are sampled. -/
  | mainDieResetRelease (monEn : Bool) (cpos : Fin 4)
  /-- MEMORY_INIT_COMPLETE (R485): Loam and Basin BIST and DRAM training complete and slot headers are read. -/
  | memoryInitComplete (r : MemInit)
  /-- IMAGE_READ_COMPLETE (R485): The image has been read into the staging area with its hash. -/
  | imageReadComplete (bytes : List Byte)
  /-- FLASH_READ_TIMEOUT (R484): A flash read without response within 1 ms fails the try. -/
  | flashReadTimeout
  /-- AUTHENTICATION_COMPLETE (R479): The key hash and signature check completes, passing or failing the try. -/
  | authenticationComplete
  /-- IMAGE_APPLY_COMPLETE (R477): Sections are applied and checked, Loams loaded, self-tests and calibration done, and supervisor cores start. -/
  | imageApplyComplete (cxFail : List (Fin 66)) (cal : List CalRead)
  /-- FORM_WAIT_EXPIRY (R485): FORM_WAIT expires during formation and start-up proceeds to READY. -/
  | formWaitExpiry
  /-- READY (R487): Queues and rings of QENABLE are enabled, the event and queue engines start and READY rises. -/
  | ready
  /-- CLAY_ERASE (R488): ERASE erases one 64 KiB sector of the inactive slot. -/
  | clayErase (who : Initiator)
  /-- CLAY_PROGRAM (R488): PROGRAM writes LEN bytes from the buffer into the inactive slot. -/
  | clayProgram (who : Initiator)
  /-- CLAY_VERIFY (R488): VERIFY checks the inactive slot and computes its identity hash. -/
  | clayVerify (who : Initiator)
  /-- CLAY_UPDATE_COMPLETE (R488): An update command ends, setting RESULT and raising source 1,225. -/
  | clayUpdateComplete (ok : Bool) (slot : List Byte)
  /-- CLAY_UPDATE_TIMEOUT (R488): An ERASE or PROGRAM without flash completion within 5 s ends with RESULT 4. -/
  | clayUpdateTimeout
  /-- FUSE_KEY (R481): Programs KEYHASH[k] from DEV_FUSE_DATA, or is refused. -/
  | fuseKey (who : Initiator) (k : Fin 2)
  /-- FUSE_REVOKE (R481): Revokes key k, or is refused. -/
  | fuseRevoke (who : Initiator) (k : Fin 2)
  /-- FUSE_SVN (R481): Raises the security-version floor, or is refused. -/
  | fuseSvn (who : Initiator) (svn : Fin 64)
  /-- FUSE_LOCK (R481): Programs the LOCK fuse, or is refused. -/
  | fuseLock (who : Initiator)
  /-- FUSE_OPERATION_COMPLETE (R481): A fuse operation finishes within 20 ms and BUSY clears. -/
  | fuseOperationComplete
  /-- SURGE_LIMIT_ENGAGE (R497): VIN above 19.5 V engages the surge limiter, which holds VBULK at 19-20 V. -/
  | surgeLimitEngage
  /-- SURGE_LIMITER_OPEN (R497): The limiter reaches its temperature limit and opens the series path. -/
  | surgeLimiterOpen
  /-- IDEAL_DIODE_ON (R498): VBULK reaches within 0.3 V of VIN and the ideal diode turns fully on. -/
  | idealDiodeOn
  /-- RAIL_START (R498): VBULK reaches 4.5 V and the rails soft-start in order. -/
  | railStart
  /-- THERMAL_WARN (R510): The hottest sensor at WARN for 1 ms sets WARN and raises source 1,220. -/
  | thermalWarn (tmax : BitVec 11) (src : Fin 68)
  /-- THERMAL_THROTTLE_STEP (R510): Every 1 ms above THROT the TE clocks fall 20 MHz, or rise below THROT − 5 °C. -/
  | thermalThrottleStep (tmax : BitVec 11) (src : Fin 68)
  /-- THERMAL_TE_STOP (R510): Every 1 ms at 122 °C with TEs at 480 MHz the hottest TE is stopped. -/
  | thermalTeStop (tmax : BitVec 11) (te : Fin 64)
  /-- THERMAL_SHUTDOWN (R510): A sensor at 130 °C for 10 µs resets the main die with every output safe. -/
  | thermalShutdown (tmax : BitVec 11) (src : Fin 68)
  /-- THERMAL_RESTART (R510): All sensors below 110 °C start the module cold after a thermal shutdown. -/
  | thermalRestart
  /-- MON_DISPLAY (R518): The D command displays n words from a device physical address. -/
  | monDisplay (addr : BitVec 36) (n : Byte) (line : LineIs)
  /-- MON_WRITE_WORD (R518): The M command writes a 32-bit word. -/
  | monWriteWord (addr : BitVec 36) (val : Word) (line : LineIs)
  /-- MON_READ_REGISTER (R518): The Q command reads a register. -/
  | monReadRegister (ofs : BitVec 36) (line : LineIs)
  /-- MON_WRITE_REGISTER (R518): The W command writes a register. -/
  | monWriteRegister (ofs : BitVec 36) (val : Word) (line : LineIs)
  /-- MON_HALT (R521): The H command requests a halt of a TE's core. -/
  | monHalt (te : Byte) (line : LineIs)
  /-- MON_STEP (R522): The S command steps one instruction of a halted TE. -/
  | monStep (te : Byte) (line : LineIs)
  /-- MON_RESUME (R522): The G command resumes a halted TE. -/
  | monResume (te : Byte) (line : LineIs)
  /-- MON_BREAKPOINT (R518): The K command sets or clears a breakpoint of a TE. -/
  | monBreakpoint (te k : Byte) (a : BitVec 36) (c : Option Byte) (line : LineIs)
  /-- MON_CORE_REGISTER (R523): The X command reads a core register of a halted TE. -/
  | monCoreRegister (te r : Byte) (line : LineIs)
  /-- MON_TRACE_DUMP (R518): The T command dumps or clears trace records. -/
  | monTraceDump (n : Byte) (line : LineIs)
  /-- MON_ISLAND_STATUS (R518): The I command returns an island status register. -/
  | monIslandStatus (isl : Byte) (line : LineIs)
  /-- MON_SLOT_STATUS (R518): The L command returns Clay slot status. -/
  | monSlotStatus (line : LineIs)
  /-- MON_CXEMU (R518): The C command sets or clears CXEMU of a core. -/
  | monCxemu (te e : Byte) (line : LineIs)
  /-- MON_LINE_RATE (R514): The B command selects a line rate after answering at the old rate. -/
  | monLineRate (rate : Byte) (line : LineIs)
  /-- MON_RATE_REVERT (R514): No valid line within 10 s of a rate switch returns the line to 115,200 baud. -/
  | monRateRevert
  /-- BREAKPOINT_HALT (R521): A core reaching an armed breakpoint or BRK halts before the instruction. -/
  | breakpointHalt (te : Fin 64)
  /-- DIAGNOSTIC_CHECK_PASS (R188): A continuously watched pin condition stays absent for its detection time (10 µs filtered checks, four conversions, 1 ms current checks), the check passes and ACTIVE clears; OVERTEMP ends its bank hold once the sensor reads below 130 °C. -/
  | diagnosticCheckPass (pin : Fin 96) (cond : Fin 7)
  /-- DRAM_ZEROING_COMPLETE (R485): The background write of zeros with valid check bits to all usable DRAM, begun at the end of start-up step 4 with inline ECC, completes and any DRAM load of step 7 waiting for it proceeds. -/
  | dramZeroingComplete
  /-- DRIVE_CSTS_CFS (R272): A READY drive reports CSTS.CFS = 1 and enters FAILED with REASON 5, ending its commands in flight. -/
  | driveCstsCfs (drv : Fin 16)
  /-- SURGE_LIMIT_RELEASE (R497): VIN falls back below 19.5 V and the surge limiter disengages, clearing DEV_SUPPLY_STAT.CLAMP. -/
  | surgeLimitRelease
  /-- VBULK_BELOW_3V (R506): VBULK falls below 3.0 V and the output stage of every SAFE_ON = 1 pin is de-energised. -/
  | vbulkBelow3v
  deriving DecidableEq, Repr

end Sys2Proof
end

