-- ==== Sys2Proof/Decode.lean ====
section
/-! DEFINITION. The block has no instruction words: the operation table gives no row any bits, so no word spells a
command. -/

namespace Sys2Proof

/-- The command a word spells: none, since no row of the operation table has bits (log entry 2). -/
def decodeTableWord (_nbits _w : Nat) : Option Instr := none

end Sys2Proof
end

