-- ==== Sys2Proof/Machine/Crc.lean ====
section
/-! DEFINITION. The cyclic codes of the device: CRC-16 of channel programs (R41), CRC-32C and the CRC-64 of the output
digest (R217). -/

namespace Sys2Proof.Machine

/-- One byte of the CRC-16 of R41, most significant bit first. -/
def crc16Step (c : BitVec 16) (b : Byte) : BitVec 16 :=
  foldN 8 (fun c _ => if c.getLsbD 15 then (c <<< 1) ^^^ 0x1021#16 else c <<< 1)
    (c ^^^ ((b.setWidth 16) <<< 8))

/-- One byte of CRC-32C (Castagnoli), reflected: least significant bit first. -/
def crc32cStep (c : BitVec 32) (b : Byte) : BitVec 32 :=
  foldN 8 (fun c _ => if c.getLsbD 0 then (c >>> 1) ^^^ 0x82F63B78#32 else c >>> 1) (c ^^^ b.setWidth 32)

/-- CRC-32C as R280 gives it. -/
def crc32c (bs : List Byte) : Word := bs.foldl crc32cStep 0xFFFFFFFF#32 ^^^ 0xFFFFFFFF#32

/-- One byte of the CRC-64 of R217, most significant bit first. -/
def crc64Step (c : BitVec 64) (b : Byte) : BitVec 64 :=
  foldN 8 (fun c _ => if c.getLsbD 63 then (c <<< 1) ^^^ 0x42F0E1EBA9EA3693#64 else c <<< 1)
    (c ^^^ ((b.setWidth 64) <<< 56))

/-- R217: the CRC-64 of bytes, from 0. -/
def crc64 (bs : List Byte) : BitVec 64 := bs.foldl crc64Step 0

end Sys2Proof.Machine
end

