-- ==== Sys2Proof/Config.lean ====
section
/-! DEFINITION. What the spec leaves open, and constants of the P4896-EA that several units share. -/

namespace Sys2Proof.Config

/-- A FREE VALUE (log entry 3): the spec states no value and the machine goes on. `freeValue n` is the n-th
open value a run meets; State.freeCtr counts them. Nothing constrains it. -/
opaque freeValue : Nat → BitVec 64

/-- R58: software-set event sources run from 1,280 to 2,047. -/
def softSrcLo : Nat := 1280

/-- R124: a message older than 1 ms (in ns of the timebase) is dropped. -/
def messageLife : Nat := 1000000

/-- R125: two increments of one generation are at least 70 µs apart. -/
def genGap : Nat := 70000

/-- R173: the longest PWM period, in ns. -/
def pwmPeriodMax : Nat := 16700000000

/-- R24: device physical base of Basin. -/
def basinBase : Nat := 0x800000000

/-- R24: Basin is 16 MiB. -/
def basinSize : Nat := 0x1000000

/-- R24: device physical base of the Loam of TE[0]; each TE has 128 KiB. -/
def loamBase : Nat := 0x810000000

/-- R24: device physical base of the Loam of SC-S; SC-V follows 256 KiB above. -/
def loamScBase : Nat := 0x810800000

/-- R24: device physical base of the register space. -/
def regBase : Nat := 0x900000000

/-- R24: the register space is 2 MiB. -/
def regSize : Nat := 0x200000

/-- R25: first DRAM address that inline ECC hides. -/
def eccHide : Nat := 0x1E0000000

/-- R24: DRAM is 8 GiB. -/
def dramSize : Nat := 0x200000000

/-! R411, R412: the numbers of the event sources. -/

def srcPin : Nat := 1024
def srcBrook : Nat := 1120
def srcMbx : Nat := 1136
def srcTeFault : Nat := 1152
def srcVote : Nat := 1216
def srcCommit : Nat := 1217
def srcSilt : Nat := 1218
def srcDma : Nat := 1219
def srcThermal : Nat := 1220
def srcSupply : Nat := 1221
def srcIslandWdog : Nat := 1222
def srcQueueEngine : Nat := 1223
def srcLevee : Nat := 1224
def srcBoot : Nat := 1225
def srcEvent : Nat := 1226
def srcHost : Nat := 1227
def srcMemory : Nat := 1228

/-- R476: the staging area of start-up and the retained Loam images. -/
def stagingBase : Nat := 0x1DE000000
def retainedBase : Nat := 0x1DC000000

end Sys2Proof.Config
end

