-- ==== Sys2Proof/Machine/State.lean ====
section
/-! DEFINITION. The state of the block as plain data, chapter by chapter, the reasons a command can stop, and the state
after reset. -/

namespace Sys2Proof.Machine

/-! ### Islands, timebase (chapter "Architecture of the module") -/

/-- The status register of one island (R16, R19). -/
structure Island where
  /-- CLK_STATE: 0 gated, 1 starting, 2 running, 3 stalled. -/
  clk : Nat := 0
  slow : Bool := false
  wdog : Bool := false
  freq : Nat := 0
  cnt : Nat := 0
  /-- Timebase at which the running stall began (R164: 20 µs retire a TE). -/
  stallAt : DWord := 0
  /-- The island was stalled at some time in the running rebalancer window (R159). -/
  stalledInWin : Bool := false
  /-- Timebase of the last update of FREQ (every 10 µs, R19). -/
  freqAt : DWord := 0
  deriving DecidableEq, Repr

/-! ### Channel programs (chapter "Channel programs") -/

/-- R89: a channel status word. -/
structure Csw where
  sub : Nat := 0
  reach : Nat := 0
  gen : Nat := 0
  world : World := .safety
  kind : Nat := 0
  tag : Nat := 0
  dstat : Nat := 0
  op : Nat := 0
  cstat : Word := 0
  resid : Nat := 0
  detail : Nat := 0
  ccwa : Addr := {}
  time : DWord := 0
  deriving DecidableEq, Repr

/-- A CSW held by its subchannel for a ring (R120); `stamp` orders the first held CSWs of a ring (R121). -/
structure HeldCsw where
  ring : Nat
  csw : Csw
  stamp : Nat
  deriving DecidableEq, Repr

/-- R86: the subchannel states. -/
inductive SubSt where
  | idle | startPending | active | haltPending | suspended | resumePending | statusPending | fenced
  deriving DecidableEq, Repr

/-- R38, R146: the attributes the Clay image gives a subchannel. -/
structure SubAttr where
  valid : Bool := false
  world : World := .safety
  reach : Nat := 0
  owner : Nat := 0
  cls : Nat := 0
  binding : Nat := 0
  chainLimit : Nat := 0
  chkEn : Bool := false
  errSafe : Bool := false
  sticky : Bool := false
  movable : Bool := false
  deriving DecidableEq, Repr

/-- Where a CCW lies: in memory, or inline in the submission entry (R102). -/
inductive CcwPos where
  | mem (a : Addr)
  | inl (i : Nat)
  deriving DecidableEq, Repr

/-- An ending of a program: channel status flags to set, device status, detail (R91, R90, R92). -/
structure Ending where
  cstat : Word := 0
  dstat : Nat := 0
  detail : Nat := 0
  deriving DecidableEq, Repr

/-- R74: one fetched CCW, or the error its fetch met. -/
structure Fetched where
  pos : CcwPos
  ccw : Ccw := {}
  err : Option Ending := none
  deriving DecidableEq, Repr

/-- Where the sequencer stands in the current command. -/
inductive Phase where
  /-- no program is running -/
  | none
  /-- the next CCW is not fetched yet -/
  | fetch
  /-- the next CCW would take the chain count above CHAIN_LIMIT (R79) -/
  | runaway
  /-- the current CCW is checked and may begin -/
  | ready
  /-- the mover stages the data area in (R156) -/
  | staging
  /-- the dispatch request waits for the channel core (R153) -/
  | waitCore
  /-- the command runs on the channel core -/
  | onCore
  /-- a WAITEV waits -/
  | waitev
  /-- the bank sequencer captures (SAMPLE) or converts (PROVE) -/
  | sampling
  /-- a Brook exchange of the command is outstanding -/
  | exchange
  /-- an ARCHIVE or SAMPLE record waits for allocation, payload writes or its FUA write -/
  | archive
  /-- a FETCHSTORE executes its descriptors -/
  | fetching
  /-- the commit request passed its checks; STAGE_OUT comes first when set -/
  | stageOut
  | commitReq
  /-- accepted by the commit unit: the commit point (R251 step 4) -/
  | accepted
  /-- steps 5 to 7 done; the Sluice still holds the pending image (R55) -/
  | sluice
  /-- device end: the sequencer decides what follows (R68) -/
  | deviceEnd
  /-- a command boundary at which a held CSW stops the program (R120) -/
  | held
  /-- the program has ended; its ending CSW waits for a slot among the held ones (R120) -/
  | ending
  deriving DecidableEq, Repr

/-- A held store: one 32-byte block of the store buffer (R248). -/
structure SbEntry where
  /-- device physical address of the block -/
  blk : Nat
  mask : BitVec 32 := 0
  data : List Byte := []
  /-- tag bits of the two granules as the stores leave them -/
  tags : BitVec 2 := 0
  deriving DecidableEq, Repr

/-- A reservation of LR (R250). -/
structure Rsv where
  granule : Nat
  lost : Bool := false
  scDone : Bool := false
  deriving DecidableEq, Repr

/-- R244: the held effects of a command. -/
structure Held where
  stores : List SbEntry := []
  regs : List (Nat × Word) := []
  /-- output entries: DRIVE target (bit 15 BROOK) and value -/
  outs : List (Nat × Nat) := []
  events : List Nat := []
  /-- the archive record whose commit mark is held: ring, sequence -/
  mark : Option (Nat × Nat) := none
  rsv : List Rsv := []
  deriving DecidableEq, Repr

/-- R45: the input snapshot of a command. -/
structure Snap where
  time : DWord := 0
  pins : List Word := []
  outs : List Half := []
  brook : Tbl Byte := []
  /-- R193: the guard band of each pin at the snapshot; none stands for infinite -/
  guard : List (Option Nat) := []
  /-- R354: the committed values of the Brook points -/
  bouts : Tbl Nat := []
  deriving DecidableEq, Repr

/-- One segment of a data area (after fragments and data chaining), and SKP of the CCW that supplies it (R71). -/
structure Seg where
  asel : Nat := 0
  addr : Nat := 0
  len : Nat := 0
  skp : Bool := false
  deriving DecidableEq, Repr

/-- One PROVE window under measurement (R56). -/
structure ProveItem where
  pin : Nat := 0
  qty : Nat := 0
  low : Int := 0
  high : Int := 0
  sum : Int := 0
  n : Nat := 0
  deriving DecidableEq, Repr

/-- Working data of the command that runs: PROVE windows, SAMPLE capture, FETCHSTORE position, payloads. -/
structure Work where
  /-- the command's own step has begun -/
  begun : Bool := false
  prove : List ProveItem := []
  /-- PROVE: conversions to average; SAMPLE: frames between samples -/
  interval : Nat := 0
  /-- SAMPLE: pin and samples still to take; number of the frame of the last one. FETCHSTORE: bytes still to deliver -/
  pin : Nat := 0
  left : Nat := 0
  frames : Nat := 0
  stopNow : Bool := false
  /-- bytes captured or to be written -/
  bytes : List Byte := []
  segs : List Seg := []
  /-- SAMPLE: time of the first sample -/
  t0 : DWord := 0
  /-- bytes that the Sift unit has still to take, and the value before them (DIFF) -/
  raw : List Byte := []
  prev : Nat := 0
  /-- FETCHSTORE: index of the descriptor in progress, and whether its data is awaited -/
  desc : Nat := 0
  /-- ARCHIVE and SAMPLE to a ring -/
  ring : Nat := 0
  seq : Option Nat := none
  /-- ARCHIVE without SIFT: the record is allocated before its payload is read (R282) -/
  unread : Bool := false
  /-- its place in the order in which commands reached the Silt store (R282) -/
  arr : Nat := 0
  /-- payload length before a transform, and the record kind flags -/
  olen : Nat := 0
  kind : Nat := 0
  bounce : Bool := false
  deriving DecidableEq, Repr

/-- What the last command of a program left at its boundary (R84): its CCW, its device status and its residual. -/
structure LastEnd where
  pos : CcwPos := .mem {}
  dstat : Nat := 0
  resid : Nat := 0
  deriving DecidableEq, Repr

/-- The running program of a subchannel (R142 keeps the same fields in its context slot). -/
structure Prog where
  op : Op := {}
  phase : Phase := .none
  /-- position of the CCW to execute next, or of the current one -/
  pos : CcwPos := .mem {}
  first : Ccw := {}
  cur : Ccw := {}
  /-- the command before the next one, which the ending CSW names when the program stops between the two (R84) -/
  prev : LastEnd := {}
  /-- the current CCW was reached through a TIC (R66) -/
  afterTic : Bool := false
  pre : List Fetched := []
  cnt : Nat := 0
  cstat : Word := 0
  dstat : Nat := 0
  detail : Nat := 0
  resid : Nat := 0
  dver : Nat := 0
  moved : Bool := false
  wsrc : Option Nat := none
  wdead : DWord := 0
  /-- when the CCW fetch in flight was issued, at the earliest, and when the current command began (R80) -/
  askAt : DWord := 0
  cmdAt : DWord := 0
  held : Held := {}
  snap : Snap := {}
  work : Work := {}
  /-- CCW address of the last commit request (R166) -/
  lastReq : Option Addr := none
  /-- executions of the command that ended in faults counting as retries (R255): true marks a TE fault -/
  retries : List Bool := []
  conflicts : Nat := 0
  /-- the command has begun on the core and waits to be dispatched again (R253, R259, R523) -/
  again : Bool := false
  /-- a PCI post is due at the commit point (R72) -/
  pciDone : Bool := false
  /-- the current command has passed its commit point (R245), and when (R89) -/
  committed : Bool := false
  ctime : DWord := 0
  /-- the status that step 6 gives the command when its vote or a refused store ended it early -/
  after : Option (Word × Nat × Nat) := none
  /-- kind and ending of a program whose ending CSW is not created yet (R120) -/
  ending : Option (Nat × Ending) := none
  /-- staged data: address of the buffer in Loam data, and length (R156) -/
  stage : Option (Nat × Nat) := none
  /-- bytes of owned regions written directly by the running command (R260): device address, length -/
  direct : List (Nat × Nat) := []
  deriving DecidableEq, Repr

/-- A HALT, CLEAR or CANCEL waiting for its CSW. -/
structure OpRef where
  op : Nat
  tag : Nat
  queue : Nat
  deriving DecidableEq, Repr

/-- What a deferred generation increment leads to (R125). -/
inductive GenDue where
  | clear (r : OpRef)
  | reset
  deriving DecidableEq, Repr

/-- R51: the sense record. -/
structure Sense where
  detail : Nat := 0
  cmd : Nat := 0
  time : DWord := 0
  dev : List Word := []
  deriving DecidableEq, Repr

/-- One subchannel. -/
structure Sub where
  attr : SubAttr := {}
  st : SubSt := .idle
  gen : BitVec 4 := 0
  /-- time of the last generation increment, if there has been one -/
  genAt : Option DWord := none
  genDue : List GenDue := []
  wmark : DWord := 0
  held : List HeldCsw := []
  /-- CSWs not yet created because two CSWs are held (R87, R120) -/
  toCreate : List HeldCsw := []
  sense : Sense := {}
  /-- queue of the last accepted START or RESUME (R116) -/
  lastQ : Option Nat := none
  prog : Prog := {}
  /-- the pending START or RESUME and its order of arrival at the TE -/
  pend : Option Op := none
  arr : Nat := 0
  resident : Bool := false
  /-- a swapped-out waiter whose WAITEV ended at this time (R145) -/
  swapEnd : Option DWord := none
  /-- when the running WAITEV began (R144) -/
  waitAt : DWord := 0
  halt : Option OpRef := none
  /-- CLEARs that wait for a command past its commit point, in order (R85) -/
  clear : List OpRef := []
  /-- R87: a CLEAR met HALT PENDING and its CSW is not created yet -/
  clearWin : Bool := false
  /-- R218: the actuation slot number of the subchannel -/
  aslot : Half := 0
  /-- R321: control-unit end is added to the next ending CSW -/
  cue : Bool := false
  /-- the running segment, or the one whose ending CSW is held, counts in OLDSEG (R167) -/
  old : Bool := false
  /-- the generations of the stage-in and stage-out transfers in flight, in order (R124) -/
  mover : List Nat := []
  deriving DecidableEq, Repr

/-! ### Queues and reaches (chapter "Queues, doorbells and reaches") -/

/-- R126: queue and ring states. -/
inductive QSt where
  | disabled | enabled | error | fenced
  deriving DecidableEq, Repr

/-- R96: the cached descriptor of a submission queue or completion ring. -/
structure QDesc where
  base : Addr := {}
  log2 : Nat := 0
  weight : Nat := 0
  burst : Nat := 0
  reach : Nat := 0
  world : World := .safety
  evsrc : Nat := 0
  evEn : Bool := false
  headEv : Bool := false
  cq : Nat := 0
  evCount : Nat := 0
  evTime : Nat := 0
  tailA : Addr := {}
  headA : Addr := {}
  deriving DecidableEq, Repr

/-- One submission queue. -/
structure SubQ where
  desc : QDesc := {}
  st : QSt := .disabled
  err : Nat := 0
  head : Nat := 0
  /-- the tail last read -/
  tail : Nat := 0
  /-- entries issued but not yet copied, oldest first, each with its time; true marks the last of a visit (R110) -/
  issued : List (Nat × Bool × DWord) := []
  /-- entries of the visit are copied and no head index write has followed (R110) -/
  headDue : Bool := false
  /-- a tail read is in flight; one more is wanted (R107) -/
  reading : Bool := false
  again : Bool := false
  /-- when the index read in flight was issued (R80) -/
  readAt : DWord := 0
  deriving DecidableEq, Repr

/-- One completion ring. -/
structure Ring where
  desc : QDesc := {}
  st : QSt := .disabled
  err : Nat := 0
  tail : Nat := 0
  /-- the head last read -/
  head : Nat := 0
  reading : Bool := false
  again : Bool := false
  /-- when the index read in flight was issued (R80) -/
  readAt : DWord := 0
  /-- write times of the entries not yet covered by an event raise, oldest first (R118) -/
  unsig : List DWord := []
  /-- the last entries of these, not yet covered by a tail write (R117) -/
  uncov : Nat := 0
  dropped : Nat := 0
  deriving DecidableEq, Repr

/-- R114: the round of one world. -/
structure Round where
  pass : Nat := 1
  /-- queues below this number have had their visit of the pass -/
  next : Nat := 0
  visited : Bool := false
  /-- the queue being visited and the entries left to the visit -/
  visit : Option (Nat × Nat) := none
  deriving DecidableEq, Repr

/-- The queue engine. -/
structure QEngine where
  sq : Tbl SubQ := []
  cq : Tbl Ring := []
  safe : Round := {}
  serv : Round := {}
  /-- slot of the frame and safety slots taken (R115) -/
  slot : Nat := 0
  safeTaken : Nat := 0
  /-- the last slot (R115: at most one every 10 ns) -/
  slotAt : DWord := 0
  /-- operations handed to TEs and not yet arrived, in order (R113) -/
  handed : List Op := []
  /-- DBELL_ERR_LOG -/
  errLog : Word := 0
  /-- order numbers for arrivals and held CSWs -/
  stamp : Nat := 0
  /-- when the last window of the rebalancer closed (R159) -/
  rbalAt : DWord := 0
  deriving DecidableEq, Repr

/-- R129: one accepted reach-reset request. -/
structure ResetReq where
  world : World
  tag : Nat
  qreset : Bool
  deriving DecidableEq, Repr

/-- One reach. -/
structure Reach where
  /-- the accepted requests of the reset in progress, in order; empty when none -/
  reqs : List ResetReq := []
  /-- R132: step 5 has ended and the generations advance -/
  drained : Bool := false
  /-- a request of the reset in progress has QRESET = 1 (R134) -/
  qreset : Bool := false
  /-- ending CSWs and rejections produced (R133) -/
  produced : Nat := 0
  /-- consecutive quiescent examinations (R137) -/
  quiet : Nat := 0
  /-- the time of the last examination -/
  examAt : Option DWord := none
  staleCnt : Nat := 0
  staleClass : Nat := 0
  staleAge : Bool := false
  deriving DecidableEq, Repr

/-- DBELL_STAT of one doorbell page (R140). -/
structure Page where
  refused : Nat := 0
  seen : Bool := false
  deriving DecidableEq, Repr

/-! ### Tributary engines (chapter "Tributary engines and device routines") -/

/-- R160: the TE states, numbered as TE_STAT.STATE. -/
inductive TeSt where
  | inService | slow | retiring | retired | spare | loading
  deriving DecidableEq, Repr

/-- One line of the dispatch cache (R149), the most recently used first. -/
structure DCache where
  cls : Nat
  code : Nat
  ver : Nat
  entry : List Word
  deriving DecidableEq, Repr

/-- One Tributary engine but for its core's registers. -/
structure Te where
  st : TeSt := .inService
  /-- resident subchannels, at most 16 -/
  slots : List Nat := []
  /-- dispatch requests in order (R153) -/
  waitq : List Nat := []
  /-- commands rolled back, the latest first: dispatched again ahead of every waiting one (R253) -/
  rerun : List Nat := []
  running : Option Nat := none
  builtin : Bool := false
  /-- TE_CUR -/
  curSub : Nat := 0
  curCode : Nat := 0
  curCls : Nat := 0
  dcache : List DCache := []
  misses : Nat := 0
  /-- the authority blocks cached, by class (R406) -/
  auth : List (Nat × List Byte) := []
  cmdCnt : Word := 0
  swapCnt : Word := 0
  /-- commands completed in the running window, and in the last closed one -/
  winCnt : Nat := 0
  rate : Nat := 0
  demand : Bool := false
  /-- a command was ready throughout the running window so far -/
  demandNow : Bool := false
  goodWins : Nat := 0
  hwm : Nat := 0
  faultCause : Nat := 0
  faultSub : Nat := 0
  faultAddr : Word := 0
  snapTime : DWord := 0
  loamImg : Nat := 0
  dataLost : Bool := false
  /-- which of the two staging buffers the next stage-in takes (R156) -/
  stageAlt : Bool := false
  /-- the entry of the running routine: BUDGET, STAGE_OUT -/
  budget : Nat := 0
  stageOut : Bool := false
  /-- held effects of the running command -/
  held : Held := {}
  fiOvf : Bool := false
  sbOvf : Bool := false
  sbHwm : Nat := 0
  rollbacks : Nat := 0
  recovWin : Nat := 0
  conflicts : Nat := 0
  /-- the spare that takes this TE's place -/
  spareFor : Option Nat := none
  deriving DecidableEq, Repr

/-- R161: the migration in progress. -/
structure Migration where
  busy : Bool := false
  result : Nat := 0
  sub : Nat := 0
  dest : Nat := 0
  deriving DecidableEq, Repr

/-- R167: the last routine replacement. -/
structure DispUpd where
  cls : Nat := 0
  result : Nat := 0
  deriving DecidableEq, Repr

/-! ### Commit unit and resets (chapter "Commit points and recovery") -/

/-- R261: the two kinds of main-die reset. -/
inductive ResetKind where
  | warm | cold
  deriving DecidableEq, Repr

/-- What asked for a main-die reset (DEV_MEM_STAT.LAST_RESET, THERMAL). -/
structure ResetAsk where
  kind : ResetKind
  last : Nat
  thermal : Bool := false
  deriving DecidableEq, Repr

/-- R263: where the power-loss sequence stands. -/
inductive PlStep where
  | none | commits | journal | flush | done | dead
  deriving DecidableEq, Repr

/-- The commit unit, DEV_MEM_STAT and the power-loss sequence. -/
structure Commit where
  /-- commits accepted and not yet through step 5, in order of acceptance (R252) -/
  queue : List Nat := []
  failed : Bool := false
  torn : Bool := false
  chk : Nat := 0
  cnt : Word := 0
  /-- R258, R366: only moves toward the safe state are accepted -/
  safeOnly : Bool := false
  /-- R255: when the window of recovered rollbacks began -/
  retryAt : DWord := 0
  resetAsk : Option ResetAsk := none
  lastReset : Nat := 0
  basinUnverified : Bool := false
  dramRetained : Bool := false
  thermal : Bool := false
  scrubUe : Nat := 0
  pl : PlStep := .none
  plCause : Nat := 0
  plDet : DWord := 0
  plLast : DWord := 0
  plCommits : Word := 0
  plAbandoned : Word := 0
  /-- the journal record was written (committed) -/
  plJournal : Bool := false
  deriving DecidableEq, Repr

/-! ### Field die (chapter "Field pins and the field die") -/

/-- The dynamic state of one field pin; its configuration stands in the register file. -/
structure Pin where
  /-- PIN_OUT.VALUE, the committed output value -/
  value : Half := 0
  latchOff : Bool := false
  atSafe : Bool := true
  /-- a non-zero PWM value released and awaiting its period boundary (R180) -/
  pwmHold : Option Half := none
  /-- PIN_IN.CODE and CALSET -/
  code : Half := 0
  calset : Bool := false
  /-- filtered input level of a DI or FQ pin -/
  inLevel : Bool := false
  active : BitVec 7 := 0
  sticky : BitVec 7 := 0
  supp : BitVec 7 := 0
  count : Nat := 0
  fq : Word := 0
  recBusy : Bool := false
  recResult : Nat := 0
  /-- the reconfiguration in progress also applies the partner, and starts a calibration -/
  recPair : Bool := false
  recCal : Bool := false
  /-- no keep-alive refresh: the output stage holds the safe state (R18) -/
  lost : Bool := false
  /-- audio samples and the duty they set (R181) -/
  fifo : List Half := []
  duty : Nat := 0
  /-- the duty that takes effect at the next carrier boundary (R181) -/
  dutyNext : Option Nat := none
  /-- G counts as infinite until a calibration of the bank completes (R201) -/
  gInf : Bool := false
  /-- the threshold crossing of the last accepted edge (R174) -/
  edgeAt : DWord := 0
  /-- start of the last wetting pulse (R176) -/
  wetAt : DWord := 0
  /-- the last audio sample (R181) and test pulse (R188) -/
  sampleAt : DWord := 0
  testAt : DWord := 0
  deriving DecidableEq, Repr

/-- One bank of eight pins with its ADC. -/
structure Bank where
  g : Nat := 0
  invalid : Bool := true
  calset : Bool := false
  calRun : Bool := false
  /-- the running calibration was not asked for by software -/
  calBg : Bool := false
  /-- HOUSE conversions taken by the running calibration (R191: 800) -/
  house : Nat := 0
  /-- an ADC reference fault stands; one was seen by the running calibration (R192) -/
  refBad : Bool := false
  calBad : Bool := false
  failed : Bool := false
  otw : Bool := false
  temp : BitVec 11 := 0
  iBank : BitVec 11 := 0
  vfld : Nat := 0
  ot : Bool := false
  tCal : BitVec 11 := 0
  iCal : BitVec 11 := 0
  calTime : DWord := 0
  /-- completion of the last calibration on the timebase (R191) -/
  calDone : DWord := 0
  firstPin : Nat := 0
  firstKind : Nat := 0
  firstCount : Nat := 0
  firstOvf : Bool := false
  firstValid : Bool := false
  firstTime : DWord := 0
  scanBusy : Bool := false
  result : Nat := 0
  /-- the last conversion (R184), update of G (R192) and accepted scan list (R202) -/
  convAt : DWord := 0
  gbAt : DWord := 0
  scanAt : DWord := 0
  deriving DecidableEq, Repr

/-- R197: a fault held 10 µs before its report. -/
structure Report where
  pin : Nat
  kind : Nat
  time : DWord
  fatal : Bool
  deriving DecidableEq, Repr

/-- R195: the last common-cause condition. -/
structure CommonCause where
  active : Bool := false
  banks : Nat := 0
  gndofs : Bool := false
  vinHi : Bool := false
  seen : Bool := false
  tcc : DWord := 0
  /-- banks the condition has affected, and whether it affects all -/
  hit : Nat := 0
  all : Bool := false
  /-- its end, once it has ended -/
  ended : Option DWord := none
  deriving DecidableEq, Repr

/-- The rest of the field die. -/
structure Field where
  cc : CommonCause := {}
  /-- earlier conditions whose 50 µs tail may still suppress a report (R197) -/
  ccOld : List CommonCause := []
  ccSupp : Nat := 0
  stormIdx : Nat := 0
  stormSeq : Nat := 0
  stormDrop : Nat := 0
  /-- DROPPED that the next record carries -/
  stormPend : Nat := 0
  /-- the millisecond of the last record or drop, and the records written in it -/
  stormMs : Nat := 0
  stormIn : Nat := 0
  reports : List Report := []
  /-- walking pattern: next pin to visit, pins skipped and due at the end -/
  walkPos : Nat := 0
  walkSkip : List Nat := []
  /-- when the running or last walk began, and its last step (R189) -/
  walkAt : DWord := 0
  stepAt : DWord := 0
  /-- the pins visited in this walk, and those on which it detected CROSS (R188) -/
  walkSeen : List Nat := []
  walkHits : List Nat := []
  fdPass : BitVec 12 := 0
  fdDone : Bool := false
  /-- R12: the outputs are held safe until a main-die reset completes -/
  linkLost : Bool := false
  deriving DecidableEq, Repr

/-- R53: the pending image of a command in the Sluice: output targets and values. -/
structure Image where
  entries : List (Nat × Nat) := []
  /-- every target of the image (R224) -/
  targets : List Nat := []
  /-- the Sluice has released the image; the PWM pins whose values still wait for their boundary (R180) -/
  released : Bool := false
  waiting : List Nat := []
  /-- a move toward the safe state discarded a waiting value (R33, R226) -/
  discarded : Bool := false
  deriving DecidableEq, Repr

/-! ### Events and mailboxes (chapter "Event controller and mailboxes") -/

/-- One event source: EVT_SRC[s] and its last-arrival time (R411 to R416). -/
structure EvSrc where
  prio : Nat := 0
  target : Nat := 0
  en : Bool := false
  vector : Nat := 0
  /-- R411: world of a ring, device-function or software source; the others are fixed by number -/
  world : World := .safety
  /-- the target that claimed the source and has not completed it -/
  active : Option Nat := none
  count : Nat := 0
  ovf : Bool := false
  last : Option DWord := none
  deriving DecidableEq, Repr

/-- The event controller but for its sources' table entries not listed (all at their start value). -/
structure Events where
  en : Bool := false
  ovfSeen : Bool := false
  doneErr : Bool := false
  ovfSrc : Nat := 0
  refuse : Nat := 0
  /-- EVT_SPLIT[t].G for SC-S, SC-V, PF0, PF1 -/
  split : List Nat := [0, 0, 0, 0]
  src : Tbl EvSrc := []
  /-- VSENT of PF0 and PF1 (R421) -/
  vsent : List DWord := [0, 0]
  deriving DecidableEq, Repr

/-- One end of a mailbox channel (R426 to R434); `inq` is its inbound queue. -/
structure MbxEnd where
  inq : List Word := []
  reject : Bool := false
  rejectCnt : Nat := 0
  senderReset : Bool := false
  underrun : Bool := false
  ackValid : Bool := false
  ackLost : Bool := false
  ack : Word := 0
  db : Word := 0
  mask : Word := 0
  /-- MBX_IE: AVAIL, DB, ACK, FREE -/
  ie : Nat := 0
  hsrc : Nat := 0
  deriving DecidableEq, Repr

/-! ### Levee, Weir, memory errors (chapters "Worlds, levels and capabilities", "Weir arbiter and memory system") -/

/-- The Levee's own state; its region table stands in the register file. -/
structure Levee where
  /-- R391: core copies are being updated; until then own-Loam accesses use the entries of `old` -/
  busy : Bool := false
  old : List (Word × Word × Word) := []
  result : Nat := 0
  entry : Nat := 0
  overlap : Bool := false
  ova : Nat := 0
  ovb : Nat := 0
  log : Word := 0
  logAddr : Nat := 0
  refuseCnt : Word := 0
  /-- R403 -/
  revBusy : Bool := false
  exh : Bool := false
  epoch : Nat := 0
  otype : Nat := 0
  deriving DecidableEq, Repr

/-- R438, R439: what the Weir keeps for one requester. Index 0 is Basin, 1 the DRAM. -/
structure WeirReqSt where
  cnt : List Nat := [0, 0]
  /-- units granted and longest wait in the running window, and in the last closed one -/
  grantNow : List Nat := [0, 0]
  waitNow : List Nat := [0, 0]
  grantLast : List Nat := [0, 0]
  waitLast : List Nat := [0, 0]
  emptyNow : Bool := false
  empty : Nat := 0
  spareNow : Nat := 0
  spareLast : Nat := 0
  deriving DecidableEq, Repr

/-- The Weir. -/
structure Weir where
  req : Tbl WeirReqSt := []
  /-- rotating pointers of the eight banks and of the DRAM target -/
  ptrs : List Nat := List.replicate 9 0
  pend : Bool := false
  result : Nat := 0
  /-- the last window boundary (R438); the timebase is 0 at the release of the main-die reset -/
  winAt : DWord := 0
  deriving DecidableEq, Repr

/-- Memory-error log and scrubber pass counts (R448, R449). -/
structure MemErrs where
  ueCount : Nat := 0
  ueTarget : Nat := 0
  ueScrub : Bool := false
  ueReq : Nat := 0
  ueValid : Bool := false
  ueAddr : Nat := 0
  bpass : Half := 0
  dpass : Half := 0
  deriving DecidableEq, Repr

/-! ### Host port (chapter "Host port") -/

/-- One physical function. -/
structure HostFn where
  bme : Bool := false
  msixEn : Bool := false
  funcMask : Bool := false
  d3 : Bool := false
  /-- Device Control 2 completion-timeout value (R460) -/
  cto : Nat := 0
  /-- MSI-X table: address, data and mask of each vector written -/
  table : Tbl (Nat × Word × Bool) := []
  pba : DWord := 0
  filtered : Nat := 0
  dropped : Nat := 0
  deriving DecidableEq, Repr

/-- The endpoint. -/
structure HostPort where
  fns : List HostFn := [{}, {}]
  linkUp : Bool := false
  speed : Nat := 0
  width : Nat := 0
  linkDowns : Nat := 0
  flrs : Nat := 0
  /-- DEV_HOST_ERR: CTO, URCA_RX, POISON_RX, CA_TX -/
  cto : Nat := 0
  urca : Nat := 0
  poison : Nat := 0
  caTx : Nat := 0
  deriving DecidableEq, Repr

/-! ### Composite operation (chapter "Composite operation and vote-before-actuate") -/

/-- R211: member states, numbered as VOTE_STAT.STATE. -/
inductive MSt where
  | down | forming | inService | standby | excluded | rejoining
  deriving DecidableEq, Repr

/-- R218: the vote key. -/
structure VKey where
  sub : Nat
  gen : Nat
  world : World
  aslot : Nat
  deriving DecidableEq, Repr

/-- R220: the outcomes of a vote; APPLY carries the value. -/
inductive Verdict where
  | apply (v : DWord)
  | disagree
  | timeout
  deriving DecidableEq, Repr

/-- A partner's answer to a vote: its digest, or absent (none), and the cycle of the digest's first send. -/
structure VAns where
  pos : Nat
  digest : Option DWord
  first : Nat
  deriving DecidableEq, Repr

/-- One open vote. -/
structure Vote where
  key : VKey
  own : Option DWord := none
  /-- when the own digest was ready, and the cycle of its first send -/
  ready : DWord := 0
  ownFirst : Option Nat := none
  /-- links that have carried the own digest, and the cycle of the first send on each -/
  sends : List (Nat × Nat) := []
  ans : List VAns := []
  /-- positions that have echoed the own digest -/
  echoed : List Nat := []
  verdict : Option Verdict := none
  tAct : DWord := 0
  deriving DecidableEq, Repr

/-- R225: a decided key. -/
structure DecRec where
  key : VKey
  verdict : Verdict
  time : DWord
  /-- the cycle its window opened in, and the positions whose digests have entered VOTE_LAG (R235) -/
  win : Nat
  seen : List Nat
  deriving DecidableEq, Repr

/-- One Confluence link. -/
structure Cfl where
  /-- 0 DOWN, 1 TRAINING, 2 UP, 3 FAILED -/
  st : Nat := 0
  peerPos : Nat := 0
  err : Nat := 0
  rttLast : Nat := 0
  rttMax : Nat := 0
  rttMin : Nat := 0
  crc : Nat := 0
  downs : Nat := 0
  resend : Nat := 0
  ofs : Half := 0
  /-- the far end's timebase minus this member's, in ns (R213) -/
  off : Int := 0
  /-- sequence number of the next control record (R208) -/
  ctlSeq : Nat := 0
  lastValid : DWord := 0
  /-- cycle number of the last valid frame, and the positions its sender reaches -/
  cyc : Nat := 0
  uplinks : Nat := 0
  /-- records received and not yet acted on -/
  rx : List CflRec := []
  /-- digests, echoes and control records to send -/
  digQ : List VKey := []
  echoQ : List CflRec := []
  ctlQ : List CflRec := []
  /-- the last frame sent -/
  tx : Option CflFrame := none
  deriving DecidableEq, Repr

/-- R237: what a donor still has to send. -/
inductive XferItem where
  | blocks (addr len : Nat)
  | sub (n : Nat)
  | endStep (k : Nat)
  deriving DecidableEq, Repr

/-- R236 to R238: the rejoin in progress, of the donor or of the joiner. -/
structure Rejoin where
  step : Nat := 0
  result : Nat := 0
  attempts : Nat := 0
  /-- donor: the position it serves -/
  joiner : Option Nat := none
  items : List XferItem := []
  /-- donor: the subchannel held at its command boundary while it is sent (R237 step 3) -/
  holdSub : Option Nat := none
  /-- donor: bytes of the item in progress not yet sent; sequence number of the next record -/
  bytes : List Byte := []
  seq : Nat := 0
  /-- donor: blocks written after they were sent -/
  dirty : List Nat := []
  /-- joiner: stream bytes received and not yet installed -/
  rx : List Byte := []
  deriving DecidableEq, Repr

/-- The vote unit. -/
structure VoteU where
  st : MSt := .down
  /-- this member's view of positions 0 to 3, STATE encoding -/
  view : List Nat := [0, 0, 0, 0]
  /-- the last cycle whose frames were sent (R208) -/
  sentCyc : Option Nat := none
  votes : List Vote := []
  dec : List DecRec := []
  actOfs : Nat := 0
  rttMax : Nat := 0
  jit : Nat := 0
  /-- lags of each position's last 1,024 digests, latest first, and LATE counts -/
  lags : List (List Nat) := [[], [], [], []]
  late : List Nat := [0, 0, 0, 0]
  cntApply : Word := 0
  cntFault : Word := 0
  cntTmo : Word := 0
  cntLate : Word := 0
  exclLog : Word := 0
  exclTime : DWord := 0
  /-- positions whose join requests are in, and the entry cycle a join accept fixed -/
  joinSeen : List Nat := []
  entry : Option Nat := none
  formSet : List Nat := []
  /-- timebase ticks since the last correction of the rate (R213) -/
  trim : Nat := 0
  quorumLostAt : Option DWord := none
  ofsBadAt : Option DWord := none
  /-- R237 step 5: cycle until which commit requests are held -/
  hold : Option Nat := none
  /-- R233: a promoted standby and the cycle from which it votes -/
  promo : List (Nat × Nat) := []
  /-- a core of this member is locked (R366) -/
  lock : Bool := false
  rejoin : Rejoin := {}
  deriving DecidableEq, Repr

/-! ### Brook (chapter "Brook links and satellites") -/

/-- R313: position states, numbered as BK_POS_STAT.STATE. -/
inductive PosSt where
  | off | lost | ident | online | failed
  deriving DecidableEq, Repr

/-- One position of a link. -/
structure BkPos where
  st : PosSt := .off
  busySeen : Bool := false
  /-- subchannels that received the busy (R321) -/
  busySubs : List Nat := []
  attn : Bool := false
  /-- consecutive misses, and cycles since the last fresh value -/
  miss : Nat := 0
  age : Nat := 0
  /-- a fresh PD_IN of the running cycle: VAL and QUAL -/
  fresh : Option (DWord × DWord) := none
  val : DWord := 0
  qual : DWord := 0
  satType : Word := 0
  /-- the running cycle's PD_OUT was sent, and a PD_IN of the position began -/
  asked : Bool := false
  heard : Bool := false
  deriving DecidableEq, Repr

/-- What a message exchange serves (R315). -/
inductive ExKind where
  | sub (n : Nat)
  | ident (pos : Nat)
  | staged
  deriving DecidableEq, Repr

/-- R315 to R317: a message exchange. -/
structure Exchange where
  kind : ExKind
  pos : Nat := 0
  ty : Nat := 0
  seq : Nat := 0
  gen : Nat := 0
  arg : Nat := 0
  param : Nat := 0
  payload : List Byte := []
  /-- attempts made -/
  tries : Nat := 0
  /-- a CRC failure fell in the last attempt's window -/
  crc : Bool := false
  sentAt : DWord := 0
  /-- its command is gone: no further attempt, and a reply is dropped (R319) -/
  dead : Bool := false
  deriving DecidableEq, Repr

/-- A frame of the link, as sent or received (R305). -/
structure BkLast where
  pos : Nat := 0
  ty : Nat := 0
  seq : Nat := 0
  kind : Nat := 0
  valid : Bool := false
  time : DWord := 0
  deriving DecidableEq, Repr

/-- One Brook link. -/
structure Brook where
  /-- 0 DOWN, 1 TRAINING, 2 UP -/
  link : Nat := 0
  trainAt : DWord := 0
  downAt : DWord := 0
  pos : List BkPos := List.replicate 8 {}
  /-- values latched for the cycle's PD_OUT frames, by position -/
  latch : List DWord := List.replicate 8 0
  /-- the cycle number latched -/
  cyc : Nat := 0
  /-- the last frame sent, from the first byte after its preamble (R305) -/
  sent : List Byte := []
  /-- requests of subchannels waiting, in order; the exchange outstanding; whether its retry is due -/
  waiting : List Exchange := []
  cur : Option Exchange := none
  retry : Bool := false
  seq : Nat := 0
  /-- cycle of the last message sent -/
  msgCyc : Option Nat := none
  attn : Nat := 0
  degraded : Bool := false
  vPri : Nat := 0
  hPri : Nat := 0
  vSh : Nat := 0
  hSh : Nat := 0
  eqPri : Nat := 0
  eqSh : Nat := 0
  fails : Nat := 0
  /-- ms below EYE_MIN; shadow: 0 idle, 1 training, 2 verifying, 3 verified -/
  lowMs : Nat := 0
  shadow : Nat := 0
  lastTry : DWord := 0
  /-- when the margin was last reported, and when the verification began -/
  eyeAt : DWord := 0
  verAt : DWord := 0
  errCrc : Word := 0
  errTmo : Word := 0
  errLate : Word := 0
  errSym : Word := 0
  swaps : Word := 0
  retries : Word := 0
  last : BkLast := {}
  tx : List Byte := []
  rx : List Byte := []
  stageWait : Bool := false
  stageResult : Nat := 0
  deriving DecidableEq, Repr

/-- The remote points: output image and configuration from Clay section 0x0A. -/
structure BrookPts where
  /-- committed output values by point number p -/
  outs : Tbl Nat := []
  /-- SAT_TYPE the image names, by link × 8 + position -/
  satType : Tbl Word := []
  /-- the Brook input image: one byte per point -/
  ins : Tbl Byte := []
  deriving DecidableEq, Repr

/-! ### Silt store and DMA (chapter "Silt store and DMA engine") -/

/-- R272: drive states, numbered as SILT_DRV_STAT.STATE. -/
inductive DrvSt where
  | absent | init | ready | foreign | failed | removing
  deriving DecidableEq, Repr

/-- One NVMe drive, as the store sees it. -/
structure Drive where
  st : DrvSt := .absent
  linkUp : Bool := false
  slow : Bool := false
  width : Nat := 0
  speed : Nat := 0
  ioq : Nat := 0
  broken : Bool := false
  reason : Nat := 0
  /-- SILT_DRV_CAP: namespace size in 4 KiB blocks -/
  blocks : Nat := 0
  /-- R270: blocks per NVMe command (the smaller of 128 KiB and MDTS) -/
  maxXfer : Nat := 32
  mean : Nat := 0
  max : Nat := 0
  errTmo : Nat := 0
  errStatus : Nat := 0
  aerCor : Nat := 0
  aerUnc : Nat := 0
  /-- consecutive command timeouts (R272) -/
  tmoRun : Nat := 0
  /-- SPERST_n is asserted -/
  perst : Bool := false
  /-- the serial number the image binds, and ANY (R474 DRIVE) -/
  serial : List Byte := []
  any : Bool := false
  /-- when REMOVE or RESET began -/
  since : DWord := 0
  /-- REMOVING: the Flush after the last issued command has been issued (R272) -/
  flushed : Bool := false
  /-- the volatile write cache is enabled (R272) -/
  wcache : Bool := false
  /-- R278: sum, number and largest of the write latencies (ns) of the window that began at latAt -/
  latSum : Nat := 0
  latN : Nat := 0
  latMax : Nat := 0
  latAt : DWord := 0
  deriving DecidableEq, Repr

/-- What an NVMe command serves. -/
inductive NvUse where
  | payload (ring seq : Nat)
  | header (ring seq : Nat)
  | void (ring seq : Nat)
  | checkpoint (ring : Nat)
  | fetch (sub gen : Nat)
  | flush
  /-- R292: the read and the write of a drive-to-drive copy; `off` is the read's first block within the copy -/
  | copyRead (off : Nat)
  | copyWrite
  deriving DecidableEq, Repr

/-- R273: an NVMe command in flight (or, for a read of a FETCHSTORE, complete with its bytes). -/
structure NvCmd where
  id : Nat
  drive : Nat
  lba : Nat
  blocks : Nat
  write : Bool := false
  fua : Bool := false
  data : List Byte := []
  use : NvUse
  issued : DWord := 0
  done : Bool := false
  /-- it waits for an entry of the drive's I/O queues (R270) -/
  wait : Bool := false
  /-- the program, record or copy it served has ended -/
  dead : Bool := false
  deriving DecidableEq, Repr

/-- The record of a command's write is gone; a read's message has a generation of its own to be checked first (R124). -/
def NvCmd.orphan (c : NvCmd) : Bool :=
  c.dead && match c.use with
    | .fetch _ _ => false
    | _ => true

/-- R282, R284: a record allocated and not yet behind COMMITTED. -/
structure Rec where
  ring : Nat
  seq : Nat
  epoch : Nat
  blk : Nat
  blocks : Nat
  sub : Nat
  gen : Nat
  world : World := .safety
  /-- the commit mark has been released (R284 step 2) -/
  mark : Bool := false
  /-- the command ended before its commit mark: the allocation becomes void (R285) -/
  dead : Bool := false
  /-- the header block (payload bytes 0 to 4031 included) -/
  head : List Byte := []
  /-- a header or void header has been issued; its write has completed -/
  issued : Bool := false
  written : Bool := false
  deriving DecidableEq, Repr

/-- A ring command of a world that waits for open records to end (R289 DISABLE). -/
structure RingCmd where
  busy : Bool := false
  result : Nat := 0
  ring : Nat := 0
  deriving DecidableEq, Repr

/-- R292: the drive-to-drive copy. -/
structure SiltCopy where
  busy : Bool := false
  done : Bool := false
  result : Nat := 0
  /-- the next block to read, and a drive has reported an error -/
  next : Nat := 0
  err : Bool := false
  deriving DecidableEq, Repr

/-- What the store keeps of a ring beside its descriptor in Basin. -/
structure RingX where
  /-- checkpoint count, commits since the last one, and which block is next (R288) -/
  ckcnt : Nat := 0
  since : Nat := 0
  nextB : Bool := false
  /-- R289: the sequence and the block at which the last forward scan began -/
  scanFrom : Nat := 0
  scanBlk : Nat := 0
  deriving DecidableEq, Repr

/-- The Silt store. Ring descriptors, extents and indexes lie in memory (R275, R279, R286). -/
structure Silt where
  drv : Tbl Drive := []
  nv : List NvCmd := []
  nextId : Nat := 0
  recs : List Rec := []
  ringx : Tbl RingX := []
  cmdS : RingCmd := {}
  cmdV : RingCmd := {}
  copy : SiltCopy := {}
  /-- SILTMEM (R474): queue area and pages, bounce buffer and pages -/
  queueBase : Nat := 0
  queuePages : Nat := 0
  bounceBase : Nat := 0
  bouncePages : Nat := 0
  /-- the page of the bounce buffer that the next data takes -/
  bounceNext : Nat := 0
  /-- stamp of the next command that reaches the store with its stored length known (R282) -/
  stamp : Nat := 0
  deriving DecidableEq, Repr

/-- DMA_CH_STAT.STATE. -/
inductive DmaSt where
  | disabled | idle | running | halted
  deriving DecidableEq, Repr

/-- One DMA channel. -/
structure DmaCh where
  st : DmaSt := .disabled
  head : Nat := 0
  tail : Nat := 0
  badSeen : Bool := false
  badCnt : Nat := 0
  /-- the descriptor in progress: its eight words, and elements moved of it -/
  desc : Option (List Word) := none
  pos : Nat := 0
  /-- elements filled (PADCNT) -/
  pad : Nat := 0
  /-- all elements moved; the status word is still to be written -/
  moved : Bool := false
  /-- Sift: bytes of the stream produced or consumed, and the value before the block (DIFF) -/
  bytes : Nat := 0
  prev : Nat := 0
  /-- R300: a reach reset marked the descriptor -/
  fence : Bool := false
  deriving DecidableEq, Repr

/-- The DMA engine: channels, and the rotating pointer of each priority (R297). -/
structure Dma where
  ch : Tbl DmaCh := []
  ptr : List Nat := [0, 0, 0, 0]
  deriving DecidableEq, Repr

/-! ### Cores (chapters "Channel core instruction set", "Core exceptions, interrupts and timing", "Worlds, levels and
capabilities") -/

/-- R395: a capability register: 128 bits and the tag. -/
structure Cap where
  body : CapBits := 0
  tag : Bool := false
  deriving DecidableEq, Repr

/-- R408: the hidden record of an open gate. -/
structure GateRec where
  num : Nat
  frame : Word
  pcc : Cap := {}
  c0 : Cap := {}
  deriving DecidableEq, Repr

/-- One core: TE[n]'s channel core, or a supervisor core (R329 to R332, R357, R401). -/
structure CoreSt where
  /-- a routine runs on the channel core; the supervisor core has left reset -/
  run : Bool := false
  g : List Word := List.replicate 32 0
  /-- p1 to p7; p0 reads true -/
  p : BitVec 8 := 1
  c : List Cap := List.replicate 8 {}
  pc : Word := 0
  ls : List Word := [0, 0, 0]
  le : List Word := [0, 0, 0]
  lc : List Word := [0, 0, 0]
  /-- the return stack, top first, at most 8 entries (R344) -/
  rs : List Word := []
  /-- ST: SM, DC, LVL and WORLD; SCHEME, CXEMU and RSTRAP are configuration -/
  sm : Bool := false
  dc : Bool := false
  lvl : Bool := false
  world : World := .safety
  /-- exception registers (R357) -/
  evbase : Word := 0
  cause : Word := 0
  faddr : Word := 0
  rax : Word := 0
  stx : Word := 0
  mlvl : Nat := 0
  fesc : Bool := false
  hf : Bool := false
  loopinh : Bool := false
  xscr : List Word := [0, 0, 0, 0]
  /-- bit-plane buffer and index (R353), digest accumulator (R352), latched timebase half (R356) -/
  sx : List Half := List.replicate 256 0
  idx : Nat := 0
  acc : DWord := 0
  tbHi : Word := 0
  /-- the program-counter capability and the hidden capability registers (R401) -/
  pcc : Cap := {}
  xpcc : Cap := {}
  epcc : Cap := {}
  xc0 : Cap := {}
  ec0 : Cap := {}
  gtbase : Word := 0
  gtcount : Nat := 0
  gauth : Word := 0
  /-- open gates, innermost first, at most 4 (R408) -/
  gates : List GateRec := []
  /-- the epoch cache: object type and table word, the most recently used first, at most 32 (R402) -/
  ecache : List (Nat × Word) := []
  ecMiss : Nat := 0
  /-- the single reservation of a supervisor core: device address of the granule (R339) -/
  rsv : Option Nat := none
  /-- the fetch buffer: device addresses of up to 4 lines of 16 bytes, the latest first (R340) -/
  fbuf : List Nat := []
  deriving DecidableEq, Repr

/-- What a supervisor core has beside a channel core (R365, R367). -/
structure ScSt where
  locked : Bool := false
  lcause : Nat := 0
  lorig : Nat := 0
  lockPc : Word := 0
  lockFaddr : Word := 0
  /-- when the watchdog period began, and EXPIRED -/
  kick : DWord := 0
  expired : Bool := false
  faults : Nat := 0
  hard : Nat := 0
  deriving DecidableEq, Repr

/-! ### Daster monitor and trace (chapter "Daster monitor") -/

/-- TE_DBG_CTL, TE_BKPT and TE_TRACE_CTL of one TE. -/
structure TeDbg where
  haltReq : Bool := false
  /-- a step is in progress: the core halts again after one instruction -/
  step : Bool := false
  brkEn : Bool := false
  bkptEn : BitVec 2 := 0
  halted : Bool := false
  why : Nat := 0
  abandoned : Bool := false
  bkpt : List Word := [0, 0]
  /-- the core has been released from a halt at its PC: a breakpoint there does not halt it again (R521) -/
  passed : Bool := false
  traceEn : Bool := false
  traceBranch : Bool := false
  traceExc : Bool := false
  deriving DecidableEq, Repr

/-- R524: a trace record. -/
structure TraceRec where
  time : DWord
  te : Nat
  kind : Nat
  sub : Nat
  code : Nat
  pc : Word
  deriving DecidableEq, Repr

/-- R516: the monitor's answer to a line: the refusal code (0: OK) and the data words. -/
structure MonAnswer where
  no : Nat := 0
  data : List Word := []
  deriving DecidableEq, Repr

/-- The monitor, its registers, and the trace buffer. -/
structure Monitor where
  run : Bool := false
  noimg : Bool := false
  /-- R514: the greeting line has been sent -/
  banner : Bool := false
  sWrite : Bool := false
  rate : Nat := 0
  /-- when the last switch of rate took place, until a valid line arrives (R514) -/
  rateAt : Option DWord := none
  lines : Nat := 0
  refused : Nat := 0
  sel : Word := 0
  answers : List MonAnswer := []
  te : Tbl TeDbg := []
  /-- the newest record last, at most 4,096 -/
  trace : List TraceRec := []
  traceWr : Nat := 0
  traceDrop : Nat := 0
  deriving DecidableEq, Repr

/-! ### Start-up, flash updates, fuses (chapter "Clay image and start-up") -/

/-- Where start-up stands (R485). -/
inductive BootSt where
  /-- no supply, or the main die is held in reset before the field-die self-test -/
  | off
  /-- step 2: the field die tests itself -/
  | fieldTest
  /-- step 2 has ended; RESET_n is awaited -/
  | resetWait
  /-- step 4 -/
  | memory
  /-- step 5 -/
  | reading
  /-- step 6 -/
  | auth
  /-- step 7 -/
  | apply
  /-- step 8 -/
  | forming
  /-- step 9 has taken place -/
  | ready
  /-- R483 -/
  | stopped
  deriving DecidableEq, Repr

/-- The boot and Clay unit. -/
structure Boot where
  st : BootSt := .off
  /-- this start-up follows a warm reset (R486) -/
  warm : Bool := false
  slot : Bool := false
  fallback : Bool := false
  stop : Nat := 0
  svn : Nat := 0
  /-- the other slot still to be tried -/
  other : Option Bool := none
  seqA : Word := 0
  seqB : Word := 0
  errCode : Nat := 0
  errSec : Nat := 0
  errRec : Nat := 0
  errSlot : Bool := false
  /-- bytes of the image in the staging area -/
  len : Nat := 0
  /-- the R485 background write of zeros has completed -/
  zeroed : Bool := false
  /-- MON_EN and CPOS as sampled (R512) -/
  monEn : Bool := false
  cpos : Nat := 0
  /-- GLOBAL record: MON, FORM_WAIT in ms, subsystem IDs (R474) -/
  mon : Bool := false
  formWait : Nat := 300
  subsys : Word := 0
  /-- when step 8 began -/
  formAt : DWord := 0
  /-- when the running try began to read its image (R484) -/
  readAt : DWord := 0
  /-- QENABLE: queues and rings to enable at READY -/
  qenable : List Byte := []
  /-- which image each TE runs; retained image n exists -/
  temap : List Byte := []
  ready : Bool := false
  /-- R480: neither key hash was programmed when the main die left reset -/
  unprov : Bool := false
  /-- flash update commands (R488): 0 none, else OP -/
  updBusy : Nat := 0
  updResult : Nat := 0
  vcode : Nat := 0
  vseq : Word := 0
  vhash : List Word := List.replicate 8 0
  /-- the bytes a PROGRAM has taken from its buffer for the flash -/
  updData : List Byte := []
  updAt : DWord := 0
  deriving DecidableEq, Repr

/-- R479: the one-time-programmable fuses, which keep their values across everything. -/
structure Fuses where
  keys : List (Option (List Word)) := [none, none]
  revoked : List Bool := [false, false]
  floor : Nat := 0
  lock : Bool := false
  used : Nat := 0
  busy : Bool := false
  /-- the operation in progress: OP, KEY, SVN -/
  op : Nat × Nat × Nat := (0, 0, 0)
  /-- the key hash that a KEY operation programs -/
  data : List Word := []
  result : Nat := 0
  deriving DecidableEq, Repr

/-! ### Supply and temperature (chapter "Supply, module and board design") -/

/-- The supply and thermal monitor; the log is held in the field die. -/
structure Supply where
  diodeOn : Bool := false
  clamp : Bool := false
  railGood : BitVec 4 := 0
  clampSeen : Bool := false
  clampOpen : Bool := false
  thermShut : Bool := false
  plossSeen : Bool := false
  clampCnt : Nat := 0
  /-- VBULK has fallen below 3.0 V (R506) -/
  low : Bool := false
  /-- the clock of the TE islands in MHz (R510) -/
  teMhz : Nat := 600
  /-- the last step of the TE clocks and the last stop of a TE (R510: every 1 ms) -/
  stepAt : DWord := 0
  stopAt : DWord := 0
  tmax : BitVec 11 := 0
  tsrc : Nat := 0
  warn : Bool := false
  throt : Bool := false
  stopping : Bool := false
  /-- a thermal shutdown holds the main die in reset (R510) -/
  shut : Bool := false
  deriving DecidableEq, Repr

/-! ### The whole machine -/

/-- The state of the block. Tables list only entries that differ from, or have been changed from, their start value. -/
structure State where
  /-- commands that wait, first in first out (the model's own field) -/
  pending : List Instr := []
  /-- what the last command that answers data answered (the model's own field: the response of a read) -/
  ans : List Word := []
  /-- register writes of movers, DMA channels and index posts on their way to their registers (the model's own field; the
  command that made them delivers them) -/
  posted : List (Initiator × Nat × Word) := []
  /-- how many free values have been taken (the model's own field, log entry 3) -/
  freeCtr : Nat := 0
  /-- the timebase, in ns (R21) -/
  now : DWord := 0
  islands : Tbl Island := []
  /-- R23: the latched HI values, by initiator number × 2^21 + offset -/
  latch : Tbl Word := []
  /-- register values that software or the image wrote, and shadow values not yet committed (R8, R541) -/
  regs : Tbl Word := []
  shadow : Tbl Word := []
  /-- device memory: DRAM, Basin and Loams, by device physical address (R24) -/
  mem : List Host.Cell := []
  /-- granules whose tag is set (R396), and granules or half-blocks in uncorrectable error (R449) -/
  tags : List Nat := []
  ue : List Nat := []
  /-- host memory as the device has read or written it -/
  hostMem : List Host.Cell := []
  subs : Tbl Sub := []
  q : QEngine := {}
  reaches : Tbl Reach := []
  pages : Tbl Page := []
  tes : Tbl Te := []
  mig : Migration := {}
  disp : DispUpd := {}
  cu : Commit := {}
  pins : Tbl Pin := []
  banks : Tbl Bank := []
  fd : Field := {}
  /-- the Sluice: pending images by subchannel (R53) -/
  sluice : Tbl Image := []
  ev : Events := {}
  /-- mailbox ends by channel × 2, plus 1 for the C end -/
  mbx : Tbl MbxEnd := []
  levee : Levee := {}
  weir : Weir := {}
  memErrs : MemErrs := {}
  host : HostPort := {}
  cfls : Tbl Cfl := []
  vote : VoteU := {}
  bks : Tbl Brook := []
  brook : BrookPts := {}
  silt : Silt := {}
  dma : Dma := {}
  cores : Tbl CoreSt := []
  scS : ScSt := {}
  scV : ScSt := {}
  mon : Monitor := {}
  boot : Boot := {}
  fuses : Fuses := {}
  supply : Supply := {}
  deriving DecidableEq, Repr

/-- No command stops with a fault: the spec gives every error of this block an effect on its state. -/
inductive Fault where
  deriving DecidableEq, Repr

/-- Why a command has no meaning here. -/
inductive Refusal where
  /-- the command is not modelled; raised by an arm of exec only. Safe: the machine stops. -/
  | notModelled (mnemonic : String)
  deriving DecidableEq, Repr

/-- What a command answers. -/
abbrev Outcome := Host.Outcome State Fault Refusal

/-- The module before its supply is good: every field at its start value, no command waiting. -/
def State.reset : State := {}

end Sys2Proof.Machine
end

