-- ==== Sys2Proof/Machine/Access.lean ====
section
/-! DEFINITION. Reading and changing one part of the state: table entries, registers, tags, free values; and the places
of the registers in the register space (chapter "Register map"). -/

namespace Sys2Proof.Machine

/-! ### Table entries -/

def State.setNow (s : State) (t : DWord) : State := { s with now := t }
/-- Fewer than `ns` ns of the timebase have passed since it read `t`. -/
def notYet (s : State) (t : DWord) (ns : Nat) : Bool := decide (t.toNat ≤ s.now.toNat) && decide (s.now.toNat < t.toNat + ns)
def State.island (s : State) (i : Nat) : Island := tget {} s.islands i
def State.modIsland (s : State) (i : Nat) (f : Island → Island) : State := { s with islands := tmod {} s.islands i f }
def State.sub (s : State) (n : Nat) : Sub := tget {} s.subs n
def State.modSub (s : State) (n : Nat) (f : Sub → Sub) : State := { s with subs := tmod {} s.subs n f }
def State.modQ (s : State) (f : QEngine → QEngine) : State := { s with q := f s.q }
def State.sq (s : State) (k : Nat) : SubQ := tget {} s.q.sq k
def State.modSq (s : State) (k : Nat) (f : SubQ → SubQ) : State := s.modQ fun q => { q with sq := tmod {} q.sq k f }
def State.ring (s : State) (k : Nat) : Ring := tget {} s.q.cq k
def State.modRing (s : State) (k : Nat) (f : Ring → Ring) : State := s.modQ fun q => { q with cq := tmod {} q.cq k f }
def State.reach (s : State) (r : Nat) : Reach := tget {} s.reaches r
def State.modReach (s : State) (r : Nat) (f : Reach → Reach) : State := { s with reaches := tmod {} s.reaches r f }
def State.page (s : State) (k : Nat) : Page := tget {} s.pages k
def State.modPage (s : State) (k : Nat) (f : Page → Page) : State := { s with pages := tmod {} s.pages k f }
def State.te (s : State) (n : Nat) : Te := tget {} s.tes n
def State.modTe (s : State) (n : Nat) (f : Te → Te) : State := { s with tes := tmod {} s.tes n f }
def State.setMig (s : State) (m : Migration) : State := { s with mig := m }
def State.modDisp (s : State) (f : DispUpd → DispUpd) : State := { s with disp := f s.disp }
def State.modCu (s : State) (f : Commit → Commit) : State := { s with cu := f s.cu }
def State.pin (s : State) (n : Nat) : Pin := tget {} s.pins n
def State.modPin (s : State) (n : Nat) (f : Pin → Pin) : State := { s with pins := tmod {} s.pins n f }
def State.bank (s : State) (n : Nat) : Bank := tget {} s.banks n
def State.modBank (s : State) (n : Nat) (f : Bank → Bank) : State := { s with banks := tmod {} s.banks n f }
def State.modFd (s : State) (f : Field → Field) : State := { s with fd := f s.fd }
def State.setSluice (s : State) (t : Tbl Image) : State := { s with sluice := t }
def State.modVote (s : State) (f : VoteU → VoteU) : State := { s with vote := f s.vote }
def State.cfl (s : State) (k : Nat) : Cfl := tget {} s.cfls k
def State.modCfl (s : State) (k : Nat) (f : Cfl → Cfl) : State := { s with cfls := tmod {} s.cfls k f }
def State.bk (s : State) (k : Nat) : Brook := tget {} s.bks k
def State.modBk (s : State) (k : Nat) (f : Brook → Brook) : State := { s with bks := tmod {} s.bks k f }
def State.modHost (s : State) (f : HostPort → HostPort) : State := { s with host := f s.host }
def State.hostFn (s : State) (f : Nat) : HostFn := nth {} s.host.fns f
def State.modHostFn (s : State) (f : Nat) (g : HostFn → HostFn) : State :=
  s.modHost fun h => { h with fns := h.fns.modify f g }
def State.modEv (s : State) (f : Events → Events) : State := { s with ev := f s.ev }
def State.modLevee (s : State) (f : Levee → Levee) : State := { s with levee := f s.levee }
def State.modWeir (s : State) (f : Weir → Weir) : State := { s with weir := f s.weir }
def State.modMemErrs (s : State) (f : MemErrs → MemErrs) : State := { s with memErrs := f s.memErrs }
def State.modSilt (s : State) (f : Silt → Silt) : State := { s with silt := f s.silt }
def State.drv (s : State) (d : Nat) : Drive := tget {} s.silt.drv d
def State.modDrv (s : State) (d : Nat) (f : Drive → Drive) : State := s.modSilt fun x => { x with drv := tmod {} x.drv d f }
def State.dch (s : State) (c : Nat) : DmaCh := tget {} s.dma.ch c
def State.modDch (s : State) (c : Nat) (f : DmaCh → DmaCh) : State :=
  { s with dma := { s.dma with ch := tmod {} s.dma.ch c f } }
def State.core (s : State) (k : Nat) : CoreSt := tget {} s.cores k
def State.modCore (s : State) (k : Nat) (f : CoreSt → CoreSt) : State := { s with cores := tmod {} s.cores k f }
def State.sc (s : State) (k : Nat) : ScSt := if k = 0 then s.scS else s.scV
def State.modSc (s : State) (k : Nat) (f : ScSt → ScSt) : State :=
  if k = 0 then { s with scS := f s.scS } else { s with scV := f s.scV }
def State.modMon (s : State) (f : Monitor → Monitor) : State := { s with mon := f s.mon }
def State.dbg (s : State) (n : Nat) : TeDbg := tget {} s.mon.te n
def State.modDbg (s : State) (n : Nat) (f : TeDbg → TeDbg) : State := s.modMon fun m => { m with te := tmod {} m.te n f }
def State.modBoot (s : State) (f : Boot → Boot) : State := { s with boot := f s.boot }
def State.modFuses (s : State) (f : Fuses → Fuses) : State := { s with fuses := f s.fuses }
def State.modSupply (s : State) (f : Supply → Supply) : State := { s with supply := f s.supply }
def State.mb (s : State) (ch : Nat) (cEnd : Bool) : MbxEnd := tget {} s.mbx (2 * ch + b2n cEnd)
def State.modMb (s : State) (ch : Nat) (cEnd : Bool) (f : MbxEnd → MbxEnd) : State :=
  { s with mbx := tmod {} s.mbx (2 * ch + b2n cEnd) f }
def State.setFreeCtr (s : State) (n : Nat) : State := { s with freeCtr := n }
/-- The answer of a command that reads. -/
def State.answers (s : State) (ws : List Word) : State := { s with ans := ws }

/-- R487: READY is high. -/
def State.ready (s : State) : Bool := s.boot.ready

/-- R480: a module in which neither key hash was programmed at the last main-die reset. -/
def State.unprov (s : State) : Bool := s.boot.unprov

/-- The Brook input image (R45): one byte per point. -/
def State.brookIn (s : State) (a : Nat) : Byte := tget 0 s.brook.ins a
def State.setBrookIn (s : State) (a : Nat) (v : Byte) : State :=
  { s with brook := { s.brook with ins := tset s.brook.ins a v } }
/-- The committed values of the remote output points. -/
def State.brookOut (s : State) (p : Nat) : Nat := tget 0 s.brook.outs p
def State.brookOutKeys (s : State) : List Nat := s.brook.outs.map (·.1)
def State.setBrookOut (s : State) (p v : Nat) : State := { s with brook := { s.brook with outs := tset s.brook.outs p v } }

/-- R396: granule g's tag becomes b; the list rises. -/
def State.setTag (s : State) (g : Nat) (b : Bool) : State :=
  if b then
    if s.tags.contains g then s else { s with tags := s.tags.filter (· < g) ++ g :: s.tags.filter (g < ·) }
  else if s.tags.contains g then { s with tags := s.tags.filter (· != g) } else s

/-! ### Where registers lie (R534, R535) -/

namespace Reg

def devId : Nat := 0x0
def devTeBase : Nat := 0x300
def devRbalCtl : Nat := 0x304
def devRbalMin : Nat := 0x308
def devMigrate : Nat := 0x324
def devDispNew (k : Nat) : Nat := 0x330 + 4 * k
def devRecovCtl : Nat := 0x400
def devPlossCfg : Nat := 0x414
def devMemCfg : Nat := 0x420
def devMemCe : Nat := 0x424
def devCxemu (j : Nat) : Nat := 0x500 + 4 * j
def devCxemuSc : Nat := 0x508
def devCoreCfg : Nat := 0x50C
def devWin (k : Nat) : Nat := 0x600 + 4 * k
def devHostCfg : Nat := 0x800
def clayCtl : Nat := 0x1010
def clayUpdOfs : Nat := 0x1024
def clayUpdBufLo : Nat := 0x1028
def clayUpdBufHi : Nat := 0x102C
def clayUpdLen : Nat := 0x1030
def fuseData (k : Nat) : Nat := 0x1070 + 4 * k
def rgnBase (i : Nat) : Nat := 0x2000 + 0x10 * i
def rgnLimit (i : Nat) : Nat := 0x2004 + 0x10 * i
def rgnAttr (i : Nat) : Nat := 0x2008 + 0x10 * i
def leveeCtl : Nat := 0x2400
def leveeEpochBase : Nat := 0x241C
def leveeClassBase : Nat := 0x2420
def weirCtl : Nat := 0x4000
def weirWin : Nat := 0x4004
def weirMonSel : Nat := 0x4014
def weirCred (r : Nat) : Nat := 0x4100 + 4 * r
def teCtl (n : Nat) : Nat := 0x30000 + 0x100 * n
def pinCfg (n : Nat) : Nat := 0x40000 + 0x40 * n
def pinCfg2 (n : Nat) : Nat := 0x40004 + 0x40 * n
def pinOutcfg (n : Nat) : Nat := 0x40008 + 0x40 * n
def pinPwm (n : Nat) : Nat := 0x4000C + 0x40 * n
def pinAux (n : Nat) : Nat := 0x40010 + 0x40 * n
def pinDiagCfg (n : Nat) : Nat := 0x40020 + 0x40 * n
def bankCtl (b : Nat) : Nat := 0x42000 + 0x40 * b
def bankScan (b : Nat) : Nat := 0x42004 + 0x40 * b
def pinCcCtl : Nat := 0x43000
def pinStormBase : Nat := 0x43014
def bkCfg (k : Nat) : Nat := 0x50000 + 0x100 * k
def bkCtl (k : Nat) : Nat := 0x50004 + 0x100 * k
def bkRetrainCfg (k : Nat) : Nat := 0x5001C + 0x100 * k
def bkStage (k : Nat) : Nat := 0x50044 + 0x100 * k
def bkSatSel (k : Nat) : Nat := 0x50054 + 0x100 * k
def voteCfg : Nat := 0x60000
def voteWin : Nat := 0x60004
def voteHash (k : Nat) : Nat := 0x60060 + 4 * k
def voteRegionBase (k : Nat) : Nat := 0x60080 + 8 * k
def voteRegionSize (k : Nat) : Nat := 0x60084 + 8 * k
def cflCtl (k : Nat) : Nat := 0x60100 + 0x40 * k
def siltCtl : Nat := 0x70000
def siltPortCfg (p : Nat) : Nat := 0x70010 + 4 * p
def siltExtBase : Nat := 0x70020
def siltRingBase : Nat := 0x70024
def siltRingArgS : Nat := 0x70034
def siltRingArgV : Nat := 0x70044
def siltCopySrcLo : Nat := 0x70060
def siltCopySrcHi : Nat := 0x70064
def siltCopyDstLo : Nat := 0x70068
def siltCopyDstHi : Nat := 0x7006C
def siltCopyLen : Nat := 0x70070
def dmaChCfg (c : Nat) : Nat := 0x80000 + 0x20 * c
def dmaChRingLo (c : Nat) : Nat := 0x80004 + 0x20 * c
def dmaChRingHi (c : Nat) : Nat := 0x80008 + 0x20 * c
def dmaChTail (c : Nat) : Nat := 0x8000C + 0x20 * c
def dmaChFill (c : Nat) : Nat := 0x80014 + 0x20 * c
def devThermCfg : Nat := 0x90104
def scWdogCtl (k : Nat) : Nat := 0xA000C + 0x100 * k
def dbellCtl : Nat := 0xC0000
def dbellSqdBase : Nat := 0xC0008
def dbellCqdBase : Nat := 0xC000C
def dbellQselS : Nat := 0xC0010
def dbellQcmdS : Nat := 0xC0014
def dbellReachReset : Nat := 0xC0030
def dbellQselV : Nat := 0xC0050
def dbellQcmdV : Nat := 0xC0054
def dbellCoreSq : Nat := 0xC0100
def dbellCoreCq : Nat := 0xC0104
def dbellDefcq (r : Nat) : Nat := 0xC0200 + 4 * r
def dbellArm (k : Nat) : Nat := 0xC0400 + 4 * k

end Reg

/-- The values that registers hold at reset where that is neither 0 nor from the image, as their field
tables state. -/
def regReset (o : Nat) : Word :=
  if o = Reg.devRecovCtl then 0x1010#32
  else if o = Reg.siltCtl then 0x146400#32
  else if o = Reg.devCxemu 0 || o = Reg.devCxemu 1 then 0xFFFFFFFF#32
  else if o = Reg.devCxemuSc then 3#32
  else if o = Reg.devRbalCtl then 0x0264000A#32
  else if 0x30000 ≤ o && o < 0x34000 && o % 0x100 == 0 then 1#32
  else if 0x50000 ≤ o && o < 0x51000 && o % 0x100 == 0x1C then 0x000A0A1E#32
  else 0#32

/-- The value of a register whose content is plain: configuration and what software wrote. -/
def State.reg (s : State) (o : Nat) : Word := tget (regReset o) s.regs o
def State.setReg (s : State) (o : Nat) (v : Word) : State := { s with regs := tset s.regs o v }

/-- R541: the shadow of a shadowed register: what was last written, else the value in effect. -/
def State.shadowReg (s : State) (o : Nat) : Word := tget (s.reg o) s.shadow o
def State.setShadow (s : State) (o : Nat) (v : Word) : State := { s with shadow := tset s.shadow o v }
def State.clearShadow (s : State) (o : Nat) : State := { s with shadow := tdel s.shadow o }

/-- A free value (log entry 3) and the state that has taken it. -/
def State.free (s : State) : State × DWord := (s.setFreeCtr (s.freeCtr + 1), Config.freeValue s.freeCtr)

/-- R246, R248: entries of the store buffer in use: one for each 32-byte block, of memory or of the register space. -/
def heldUsed (h : Held) : Nat := h.stores.length + (h.regs.map fun r => r.1 / 32).eraseDups.length

end Sys2Proof.Machine
end

