-- ==== Sys2Proof/Machine/Cells.lean ====
section
/-! DEFINITION. Byte memories as lists of cells in one canonical form (addresses rising, no zero byte listed), and the
raw reads and writes of device and host memory, below every check. -/

namespace Sys2Proof.Machine

/-- What an address that is not listed reads as (R485: zeros are written to the DRAM; log entry 4). -/
def blankByte : Byte := 0

/-- The byte at an address. -/
def cellGet : List Host.Cell → Nat → Byte
  | [], _ => blankByte
  | (b, v) :: t, a => if b = a then v else cellGet t a

/-- The byte at an address set; a blank byte is not listed. -/
def cellSet : List Host.Cell → Nat → Byte → List Host.Cell
  | [], a, v => if v = blankByte then [] else [(a, v)]
  | (b, u) :: t, a, v =>
    if a < b then (if v = blankByte then (b, u) :: t else (a, v) :: (b, u) :: t)
    else if a = b then (if v = blankByte then t else (a, v) :: t)
    else (b, u) :: cellSet t a v

/-- Bytes written from an address on. -/
def cellsSet (m : List Host.Cell) (a : Nat) : List Byte → List Host.Cell
  | [] => m
  | v :: vs => cellsSet (cellSet m a v) (a + 1) vs

/-- Bytes read from an address on. -/
def cellsGet (m : List Host.Cell) (a len : Nat) : List Byte := (List.range len).map fun i => cellGet m (a + i)

/-- The canonical form: rising addresses, no blank byte listed. -/
def cellsWf : List Host.Cell → Bool
  | [] => true
  | [(_, v)] => v != blankByte
  | (a, v) :: (b, u) :: t => decide (a < b) && v != blankByte && cellsWf ((b, u) :: t)

/-- The canonical form of both memories. -/
def Memory.wf (s : State) : Bool := cellsWf s.mem && cellsWf s.hostMem

/-! ### The map of the device physical space (R24, R25) -/

/-- Where a device physical address lies. -/
inductive Place where
  | dram | basin
  | loam (core : Nat)
  | regs
  | nowhere
  deriving DecidableEq, Repr

/-- R25: the first DRAM address that is not usable. -/
def dramEnd (s : State) : Nat := if bitOf (s.reg Reg.devMemCfg) 0 then Config.eccHide else Config.dramSize

/-- R24, R25, R28: what lies at an address. -/
def placeOf (s : State) (a : Nat) : Place :=
  if a < dramEnd s then .dram
  else if Config.basinBase ≤ a ∧ a < Config.basinBase + Config.basinSize then .basin
  else if Config.loamBase ≤ a ∧ a < Config.loamBase + 64 * 0x20000 then .loam ((a - Config.loamBase) / 0x20000)
  else if Config.loamScBase ≤ a ∧ a < Config.loamScBase + 0x40000 then .loam 64
  else if Config.loamScBase + 0x40000 ≤ a ∧ a < Config.loamScBase + 0x80000 then .loam 65
  else if Config.regBase ≤ a ∧ a < Config.regBase + Config.regSize then .regs
  else .nowhere

/-- Basin or a Loam: memory with tags (R396). -/
def tagged (s : State) (a : Nat) : Bool :=
  match placeOf s a with
  | .basin | .loam _ => true
  | _ => false

/-- The unit of an uncorrectable error: a 32-byte half-block of the DRAM, a 16-byte granule elsewhere (R449). -/
def errUnit (s : State) (a : Nat) : Nat := if placeOf s a = .dram then 32 else 16

/-- The device address of core k's Loam, and of its data half (R24, R27). -/
def loamAt (k : Nat) : Nat :=
  if k < 64 then Config.loamBase + 0x20000 * k else Config.loamScBase + 0x40000 * (k - 64)
def loamDataAt (k : Nat) : Nat := loamAt k + (if k < 64 then 0x10000 else 0x20000)

/-! ### Raw reads and writes -/

/-- Bytes of device memory. -/
def peekMem (s : State) (a len : Nat) : List Byte := cellsGet s.mem a len

/-- A 32-bit word of device memory. -/
def peekWord (s : State) (a : Nat) : Word := BitVec.ofNat 32 (ofBytes (peekMem s a 4))

/-- The units of 16 bytes that bytes [a, a + len) touch. -/
def granules (a len : Nat) : List Nat :=
  if len = 0 then [] else (List.range ((a + len - 1) / 16 - a / 16 + 1)).map fun i => 16 * (a / 16 + i)

/-- R339, R250: a write of [a, a + len) by an initiator breaks the reservations that other cores hold there. -/
def breakRsv (s : State) (writer : Option Nat) (a len : Nat) : State :=
  let hit (g : Nat) : Bool := decide (g < a + len) && decide (a < g + 16)
  { s with
    cores := s.cores.map fun x =>
      match x.2.rsv with
      | some g => if hit g && writer != some x.1 then (x.1, { x.2 with rsv := none }) else x
      | none => x
    tes := s.tes.map fun x =>
      if writer == some x.1 then x
      else (x.1, { x.2 with held := { x.2.held with
        rsv := x.2.held.rsv.map fun r => if hit r.granule then { r with lost := true } else r } }) }

/-- R449: units in error that [a, a + len) covers in full are good again. -/
def healUe (s : State) (a len : Nat) : State :=
  { s with ue := s.ue.filter fun g => !(decide (a ≤ g) && decide (g + errUnit s g ≤ a + len)) }

/-- R338, R396: a write clears the tags of the granules it touches. -/
def dropTags (s : State) (a len : Nat) : State :=
  { s with tags := s.tags.filter fun g => !(decide (g < a + len) && decide (a < g + 16)) }

/-- R237: the block lies in a composite region. -/
def inRegion (s : State) (blk : Nat) : Bool :=
  (List.range 16).any fun k =>
    let lo := fld (s.reg (Reg.voteRegionBase k)) 23 0 * 4096
    bitOf (s.reg (Reg.voteRegionSize k)) 31 && decide (lo ≤ blk) && decide (blk < lo + fld (s.reg (Reg.voteRegionSize k)) 19 0 * 4096)

/-- R237: the donor has still to send the block. -/
def toSend (s : State) (blk : Nat) : Bool :=
  s.vote.rejoin.items.any fun x =>
    match x with
    | .blocks a len => decide (a ≤ blk) && decide (blk < a + len)
    | _ => false

/-- R237: blocks of composite regions written after a donor sent them become dirty. -/
def markDirty (s : State) (a len : Nat) : State :=
  if s.vote.rejoin.joiner.isNone ∨ len = 0 then s
  else
    let blks := (List.range ((a + len - 1) / 256 - a / 256 + 1)).map fun i => 256 * (a / 256 + i)
    let new := blks.filter fun b => inRegion s b && !toSend s b && !s.vote.rejoin.dirty.contains b
    s.modVote fun u => { u with rejoin := { u.rejoin with dirty := u.rejoin.dirty ++ new } }

/-- R250: between its validation and its application a commit's reserved granules are locked at the Weir. A write of
another requester then lands after the commit: its bytes are taken out of the commit's held stores (log entry 26). -/
def yieldLocked (s : State) (a len : Nat) : State :=
  let hit (g : Nat) : Bool := decide (g < a + len) && decide (a < g + 16)
  let cut (rsv : List Rsv) (e : SbEntry) : SbEntry :=
    { e with mask := (List.range 32).foldl (fun m i =>
        let b := e.blk + i
        if decide (a ≤ b) && decide (b < a + len) && rsv.any (fun r => r.scDone && r.granule == b / 16 * 16) then setBit m i false
        else m) e.mask }
  { s with subs := s.subs.map fun x =>
      let p := x.2.prog
      if (p.phase == .stageOut || p.phase == .commitReq || p.phase == .accepted)
          && p.held.rsv.any (fun r => r.scDone && hit r.granule) then
        (x.1, { x.2 with prog := { p with held := { p.held with stores := p.held.stores.map (cut p.held.rsv) } } })
      else x }

/-- Bytes written into device memory, past the commit locks. -/
def pokeRaw (s : State) (writer : Option Nat) (a : Nat) (bs : List Byte) : State :=
  let s := markDirty (dropTags (healUe (breakRsv s writer a bs.length) a bs.length) a bs.length) a bs.length
  { s with mem := cellsSet s.mem a bs }

/-- Bytes written into device memory by a core (its number) or by anything else (none). -/
def pokeMemBy (s : State) (writer : Option Nat) (a : Nat) (bs : List Byte) : State :=
  pokeRaw (yieldLocked s a bs.length) writer a bs

/-- Bytes written into device memory by the device itself. -/
def pokeMem (s : State) (a : Nat) (bs : List Byte) : State := pokeMemBy s none a bs

/-- Bytes of host memory, as the device has last read or written them. -/
def peekHost (s : State) (a len : Nat) : List Byte := cellsGet s.hostMem a len
def pokeHost (s : State) (a : Nat) (bs : List Byte) : State := { s with hostMem := cellsSet s.hostMem a bs }

/-- R260: the bytes that an abandoned command wrote directly become free values. -/
def freeBytes (s : State) (a len : Nat) : State :=
  foldN len (fun s i =>
    let (s, v) := s.free
    pokeMem s (a + i) [v.setWidth 8]) s

end Sys2Proof.Machine
end

