-- ==== Sys2Proof/Machine/Events.lean ====
section
/-! DEFINITION. The event controller and the mailboxes (chapter "Event controller and mailboxes"). -/

namespace Sys2Proof.Machine

/-- One event source's entry. -/
def State.evSrc (s : State) (n : Nat) : EvSrc := tget {} s.ev.src n
def State.modEvSrc (s : State) (n : Nat) (f : EvSrc → EvSrc) : State :=
  s.modEv fun e => { e with src := tmod {} e.src n f }

/-- R411: the world of a source. -/
def srcWorld (s : State) (n : Nat) : World :=
  if 1024 ≤ n ∧ n < Config.srcVote then
    (if Config.srcMbx + 8 ≤ n ∧ n < Config.srcMbx + 15 then .service else .safety)
  else (s.evSrc n).world

/-- R411: the world of a target: SC-S, SC-V, PF0, PF1. -/
def tgtWorld (t : Nat) : World := if t % 2 = 0 then .safety else .service

/-! ### Priority and presentation (R418 to R421) -/

def evSplit (s : State) (t : Nat) : Nat := nth 0 s.ev.split t
def evGroup (s : State) (t : Nat) (e : EvSrc) : Nat := e.prio / 2 ^ evSplit s t
def evSub (s : State) (t : Nat) (e : EvSrc) : Nat := e.prio % 2 ^ evSplit s t

/-- The sources active at a target. -/
def activeAt (s : State) (t : Nat) : List (Nat × EvSrc) := s.ev.src.filter fun x => x.2.active == some t

/-- R419: the running group, one more than the largest active group; 0 when none is active. -/
def runningGroup (s : State) (t : Nat) : Nat :=
  (activeAt s t).foldl (fun m x => Nat.max m (evGroup s t x.2 + 1)) 0

/-- R419: a source that target t may claim. -/
def claimable (s : State) (t : Nat) (e : EvSrc) : Bool :=
  e.target == t && e.en && decide (0 < e.count) && e.active.isNone && decide (runningGroup s t ≤ evGroup s t e)

/-- R419: the winner of a target: the largest group, then sub, then the lowest number. -/
def winner (s : State) (t : Nat) : Option (Nat × EvSrc) :=
  (s.ev.src.filter fun x => claimable s t x.2).foldl (fun best x =>
    match best with
    | none => some x
    | some y => if y.2.prio < x.2.prio then some x else some y) none

/-- R420: the level presented to a supervisor core; none when no request is presented. -/
def presented (s : State) (k : Nat) : Option Nat :=
  if !s.ev.en then none
  else match winner s k with
  | some (_, e) => if e.prio / 32 = 0 then none else some (e.prio / 32)
  | none => none

/-! ### MSI-X (R421, R461) -/

/-- A function may issue requests (R455, R465). -/
def mayIssue (s : State) (f : Nat) : Bool := (s.hostFn f).bme && !(s.hostFn f).d3

/-- R461: a message of vector v is held. -/
def msiHeld (s : State) (f v : Nat) : Bool :=
  let h := s.hostFn f
  !(h.msixEn) || h.funcMask || (tget (0, 0, true) h.table v).2.2 || !(mayIssue s f)

/-- R421, R461: vector v's message is sent, or held with its PBA bit. -/
def sendMsi (s : State) (f v : Nat) : State :=
  let s := s.modEv fun e => { e with vsent := e.vsent.modify f fun w => setBit w v true }
  if msiHeld s f v then s.modHostFn f fun h => { h with pba := setBit h.pba v true }
  else
    let t := tget (0, 0, true) (s.hostFn f).table v
    pokeHost (s.modHostFn f fun h => { h with pba := setBit h.pba v false }) t.1 (toBytes 4 t.2.1.toNat)

/-- R421: vectors of a function with a claimable source and VSENT 0 send their messages. -/
def msiScan (s : State) (f : Nat) : State :=
  if !s.ev.en then s
  else
    let vs := (s.ev.src.filter fun x => claimable s (2 + f) x.2).map fun x => x.2.vector
    vs.foldl (fun s v => if bitOf (nth 0 s.ev.vsent f) v then s else sendMsi s f v) s

/-- R420, R421: presentation is evaluated again. -/
def evalTargets (s : State) : State := msiScan (msiScan s 0) 1

/-! ### Arrivals (R414, R415) -/

/-- R414, R415: COUNT, OVF and the last-arrival time of one arrival. -/
def oneArrival (s : State) (n : Nat) (t : DWord) : State :=
  s.modEvSrc n fun e => { e with
    count := satInc 255 e.count, ovf := e.ovf || e.count == 255,
    last := some (match e.last with
      | some u => if u.toNat ≤ t.toNat then t else u
      | none => t) }

/-- The numbers that exist as sources (R412). -/
def srcExists (n : Nat) : Bool := decide (n < 2048) && !(decide (1229 ≤ n) && decide (n < 1280))

/-- R414, R415: an arrival raised at time t. -/
def raiseEventAt (s : State) (n : Nat) (t : DWord) : State :=
  if !(srcExists n) then s
  else
    let e := s.evSrc n
    let first := e.count == 255 && !e.ovf && !s.ev.ovfSeen
    let s := oneArrival s n t
    let s := if first then
        oneArrival (s.modEv fun v => { v with ovfSeen := true, ovfSrc := n }) Config.srcEvent s.now
      else s
    evalTargets s

/-- An arrival raised now. -/
def raiseEvent (s : State) (n : Nat) : State := raiseEventAt s n s.now

/-- R414: the last-arrival time of a source. -/
def lastArrival (s : State) (n : Nat) : Option DWord := (s.evSrc n).last

/-! ### Claims, completions, configuration (R416, R422 to R424) -/

/-- R422: the initiator that is target t. -/
def isTarget (who : Initiator) (t : Nat) : Bool :=
  match who with
  | .scS => t == 0
  | .scV => t == 1
  | .pf f => t == 2 + f.val
  | _ => false

/-- EVT_CLAIM (R422): what the read returns. -/
def claim (s : State) (who : Initiator) (t : Nat) : State × Word :=
  if !(isTarget who t) || decide (8 ≤ (activeAt s t).length) then (s, 0)
  else match winner s t with
  | none => (s, 0)
  | some (n, e) =>
    let s := s.modEvSrc n fun e => { e with active := some t, count := e.count - 1 }
    (evalTargets s, pack [(0, 11, n), (16, 8, e.count - 1), (24, 1, b2n e.ovf), (31, 1, 1)])

/-- EVT_DONE (R423). -/
def complete (s : State) (who : Initiator) (t n : Nat) : State :=
  if !(isTarget who t) then s
  else
    let e := s.evSrc n
    if e.active != some t then s.modEv fun v => { v with doneErr := true }
    else
      let s := s.modEvSrc n fun e => { e with active := none }
      let s := if 2 ≤ t then s.modEv fun v => { v with vsent := v.vsent.modify (t - 2) fun w => setBit w e.vector false } else s
      evalTargets s

/-- EVT_SRC writes (R416, R424): PRIO, TARGET (of the source's own world only), EN, VECTOR; OVF W1C; CLR. -/
def evSrcWrite (s : State) (n : Nat) (v : Word) : State :=
  let w := srcWorld s n
  let s := s.modEvSrc n fun e => { e with
    prio := fld v 7 0, target := if tgtWorld (fld v 9 8) = w then fld v 9 8 else e.target,
    en := bitOf v 10, vector := fld v 16 11,
    ovf := if bitOf v 20 || bitOf v 21 then false else e.ovf, count := if bitOf v 21 then 0 else e.count }
  evalTargets s

/-- EVT_SRC as it reads. -/
def evSrcWord (s : State) (n : Nat) : Word :=
  let e := s.evSrc n
  pack [(0, 8, e.prio), (8, 2, e.target), (10, 1, b2n e.en), (11, 6, e.vector),
    (17, 1, match srcWorld s n with
      | .safety => 0
      | .service => 1),
    (18, 1, b2n e.active.isSome), (19, 1, b2n (decide (0 < e.count))), (20, 1, b2n e.ovf), (24, 8, e.count)]

/-- EVT_RUN as it reads. -/
def evRunWord (s : State) (t : Nat) : Word :=
  let act := activeAt s t
  let top := act.foldl (fun (best : Option EvSrc) x =>
    match best with
    | none => some x.2
    | some y => if evGroup s t y < evGroup s t x.2 then some x.2 else some y) none
  pack [(0, 4, act.length), (4, 8, match top with
      | some e => e.prio
      | none => 0),
    (12, 1, b2n top.isSome),
    (13, 11, match winner s t with
      | some x => x.1
      | none => 0),
    (24, 3, if t < 2 then (presented s t).getD 0 else 0),
    (27, 1, b2n (winner s t).isSome)]

/-! ### Mailboxes (R426 to R435) -/

/-- R426, R427: the owner of an end. -/
def mbxOwner (who : Initiator) (ch : Nat) (cEnd : Bool) : Bool :=
  match who with
  | .scS => cEnd && (ch < 8 || ch == 15)
  | .scV => (cEnd && 8 ≤ ch && ch < 15) || (!cEnd && ch == 15)
  | .pf f => !cEnd && (if f.val = 0 then ch < 8 else 8 ≤ ch && ch < 15)
  | _ => false

/-- R432: an occurrence at an end is notified when its MBX_IE bit is set (`always`: R434). -/
def mbxNotify (s : State) (ch : Nat) (cEnd : Bool) (bit : Nat) (always : Bool) : State :=
  let e := s.mb ch cEnd
  if always || (e.ie / 2 ^ bit) % 2 == 1 then raiseEvent s (if cEnd then Config.srcMbx + ch else e.hsrc) else s

/-- R428, R429: MBX_TX at an end; true when it is refused because the queue is full or READY has not come. -/
def mbxTx (s : State) (ch : Nat) (cEnd : Bool) (v : Word) : State × Bool :=
  if !s.ready || decide (8 ≤ (s.mb ch !cEnd).inq.length) then
    (s.modMb ch cEnd fun e => { e with reject := true, rejectCnt := satInc 0xFFFF e.rejectCnt }, true)
  else (mbxNotify (s.modMb ch (!cEnd) fun e => { e with inq := e.inq ++ [v] }) ch (!cEnd) 0 false, false)

/-- R428: MBX_RX at an end. -/
def mbxRx (s : State) (ch : Nat) (cEnd : Bool) : State × Word :=
  match (s.mb ch cEnd).inq with
  | [] => (s.modMb ch cEnd fun e => { e with underrun := true }, 0)
  | v :: rest =>
    let s := s.modMb ch cEnd fun e => { e with inq := rest }
    (if rest.length = 7 then mbxNotify s ch (!cEnd) 3 false else s, v)

/-- R430, R432: doorbell bits rise at an end; each that rises unmasked is one occurrence. -/
def dbRaise (s : State) (ch : Nat) (cEnd : Bool) (bits : Word) : State :=
  let e := s.mb ch cEnd
  let rise := bits &&& ~~~e.db &&& ~~~e.mask
  let s := s.modMb ch cEnd fun e => { e with db := e.db ||| bits }
  foldN 32 (fun s i => if bitOf rise i then mbxNotify s ch cEnd 1 false else s) s

/-- R430: MBX_DB_SET at an end acts on bits 0 to 30 of the other; ignored on channel 15 (R426). -/
def mbxDbSet (s : State) (ch : Nat) (cEnd : Bool) (v : Word) : State :=
  if ch = 15 then s else dbRaise s ch (!cEnd) (v &&& 0x7FFFFFFF#32)

/-- R430: MBX_DB_MASK; unmasking a set bit counts as its rising. -/
def mbxDbMask (s : State) (ch : Nat) (cEnd : Bool) (v : Word) : State :=
  let e := s.mb ch cEnd
  let rise := e.db &&& e.mask &&& ~~~v
  let s := s.modMb ch cEnd fun e => { e with mask := v }
  foldN 32 (fun s i => if bitOf rise i then mbxNotify s ch cEnd 1 false else s) s

/-- R431: an acknowledge reaches an end. -/
def ackArrive (s : State) (ch : Nat) (cEnd : Bool) (v : Word) : State :=
  let s := s.modMb ch cEnd fun e => { e with ack := v, ackLost := e.ackLost || e.ackValid, ackValid := true }
  mbxNotify s ch cEnd 2 false

/-- R431, R434: MBX_ACK_TX at an end. -/
def mbxAckTx (s : State) (ch : Nat) (cEnd : Bool) (v : Word) : State :=
  if fld v 15 0 = 0xFFFF ∨ (s.mb ch cEnd).senderReset then s else ackArrive s ch (!cEnd) v

/-- R433: a receiver reset at an end. -/
def mbxReceiverReset (s : State) (ch : Nat) (cEnd : Bool) : State :=
  let n := (s.mb ch cEnd).inq.length
  let s := s.modMb ch cEnd fun e => { e with inq := [] }
  let s := if n = 8 then mbxNotify s ch (!cEnd) 3 false else s
  let s := ackArrive s ch (!cEnd) (pack [(0, 16, 0xFFFF), (16, 16, n)])
  dbRaise s ch (!cEnd) 0x80000000#32

/-- R434: a sender reset at an end. -/
def mbxSenderReset (s : State) (ch : Nat) (cEnd : Bool) : State :=
  let s := s.modMb ch (!cEnd) fun e => { e with senderReset := true }
  let s := mbxNotify s ch (!cEnd) 0 true
  s.modMb ch cEnd fun e => { e with ackValid := false, ackLost := false, reject := false, rejectCnt := 0 }

/-- MBX_RESET (R433, R434): the receiver reset first. -/
def mbxReset (s : State) (ch : Nat) (cEnd : Bool) (v : Word) : State :=
  let s := if bitOf v 0 then mbxReceiverReset s ch cEnd else s
  if bitOf v 1 then mbxSenderReset s ch cEnd else s

/-- MBX_STAT as it reads (R428). -/
def mbxStatWord (s : State) (ch : Nat) (cEnd : Bool) : Word :=
  let e := s.mb ch cEnd
  pack [(0, 4, 8 - (s.mb ch !cEnd).inq.length), (4, 4, e.inq.length), (8, 1, b2n e.reject), (9, 1, b2n e.senderReset),
    (10, 1, b2n e.underrun), (11, 1, b2n e.ackValid), (12, 1, b2n e.ackLost), (16, 16, e.rejectCnt)]

/-- MBX_STAT writes: W1C. -/
def mbxStatWrite (s : State) (ch : Nat) (cEnd : Bool) (v : Word) : State :=
  s.modMb ch cEnd fun e => { e with
    reject := e.reject && !bitOf v 8, rejectCnt := if bitOf v 8 then 0 else e.rejectCnt,
    senderReset := e.senderReset && !bitOf v 9, underrun := e.underrun && !bitOf v 10,
    ackValid := e.ackValid && !bitOf v 11, ackLost := e.ackLost && !bitOf v 12 }

end Sys2Proof.Machine
end

