-- ==== Sys2Proof/Machine/Pins.lean ====
section
/-! DEFINITION. Field pins: configuration fields, output values, moves to the safe state, the Sluice's pending images,
and the pin records of the input snapshot (chapters "Field pins and the field die", "Architecture of the module"). -/

namespace Sys2Proof.Machine

/-! ### Configuration fields -/

/-- R171: the mode code of a pin. -/
def pinMode (s : State) (n : Nat) : Nat := fld (s.reg (Reg.pinCfg n)) 3 0
/-- Mode codes of R171. -/
def modeOff : Nat := 0
def modeDI : Nat := 1
def modeAI : Nat := 2
def modeCS : Nat := 3
def modeCSU : Nat := 4
def modeGD : Nat := 5
def modeLS : Nat := 6
def modePWM : Nat := 7
def modeFQ : Nat := 8

/-- R171: the output modes are GD, LS and PWM. -/
def isOutMode (m : Nat) : Bool := m == modeGD || m == modeLS || m == modePWM
/-- R183: "on" is the pin's safe state. -/
def pinSafeOn (s : State) (n : Nat) : Bool := bitOf (s.reg (Reg.pinCfg n)) 4
/-- R52: a safety output. -/
def pinSafety (s : State) (n : Nat) : Bool := bitOf (s.reg (Reg.pinCfg n)) 5
/-- The owning subchannel, when OWNER_VALID is 1. -/
def pinOwner (s : State) (n : Nat) : Option Nat :=
  let w := s.reg (Reg.pinCfg n)
  if bitOf w 6 then some (fld w 18 7) else none
/-- R181: a PWM pin with AUDIO. -/
def pinAudio (s : State) (n : Nat) : Bool := bitOf (s.reg (Reg.pinOutcfg n)) 28
/-- R179: PWM stage is GD. -/
def pinStageGD (s : State) (n : Nat) : Bool := bitOf (s.reg (Reg.pinOutcfg n)) 27
/-- R179: the PWM period in ns. -/
def pwmPeriod (s : State) (n : Nat) : Nat :=
  let w := s.reg (Reg.pinPwm n)
  fld w 23 0 * (if bitOf w 24 then 1000 else 10)

/-- R31: the value that stands for a pin's safe state. -/
def pinSafeValue (s : State) (n : Nat) : Half := if pinSafeOn s n then 1 else 0

/-- R171: a bank that failed its start self-test keeps its pins OFF and safe. -/
def pinDead (s : State) (n : Nat) : Bool := (s.bank (n / 8)).failed

/-- R179: the ns since the last period boundary, which falls where T − PHASE × PERIOD_ns / 128 is a multiple of PERIOD_ns. -/
def pwmPhase (s : State) (n : Nat) : Nat :=
  let per := pwmPeriod s n
  let off := fld (s.reg (Reg.pinPwm n)) 31 25 * per / 128
  (s.now.toNat + per - off % per) % per

/-- R179: a PWM pin is on for VALUE / 65,536 of each period from its boundary. -/
def pwmOn (s : State) (n : Nat) (v : Nat) : Bool :=
  let per := pwmPeriod s n
  if per = 0 then v != 0 else decide (pwmPhase s n * 65536 < v * per)

/-- R174: the time for which a changed input must hold, 40 ns × 2^FILT. -/
def filterTime (s : State) (n : Nat) : Nat := 40 * 2 ^ fld (s.reg (Reg.pinCfg n)) 24 21

/-- PIN_OUT.LEVEL: the output stage is energised; without supply a SAFE_ON pin's is not (R506). -/
def pinLevel (s : State) (n : Nat) : Bool :=
  let p := s.pin n
  if s.supply.low && pinSafeOn s n then false
  else if p.atSafe then isOutMode (pinMode s n) && pinSafeOn s n && !pinDead s n
  else if pinMode s n = modePWM then pwmOn s n (if pinAudio s n then p.duty else p.value.toNat)
  else p.value != 0

/-- PIN_IN.LEVEL (R45): input level of DI and FQ, stage level of an output mode, 0 otherwise. -/
def pinInLevel (s : State) (n : Nat) : Bool :=
  let m := pinMode s n
  if m = modeDI ∨ m = modeFQ then (s.pin n).inLevel
  else if isOutMode m then pinLevel s n
  else false

/-- R45: the pin record of the field image. -/
def pinRecord (s : State) (n : Nat) : Word :=
  let p := s.pin n
  pack [(0, 16, p.code.toNat), (16, 1, b2n (pinInLevel s n)), (17, 7, p.active.toNat), (24, 8, pinMode s n)]

/-! ### Bindings and Brook points -/

/-- R474 (SUBCH W1): the link and position that a BINDING of BKIND 1 names. -/
def bindSat (b : Nat) : Option (Nat × Nat) := if b / 16384 = 1 then some (b / 8 % 16, b % 8) else none

/-- R474: the archive ring that a BINDING of BKIND 2 names. -/
def bindRing (b : Nat) : Option Nat := if b / 16384 = 2 then some (b % 256) else none

/-- R31: off is the safe state of a remote point. -/
def brookSafeValue (_s : State) (_p : Nat) : Nat := 0

/-- BK_CFG.POSMASK: position p of link k is configured. -/
def bkConfigured (s : State) (k p : Nat) : Bool := bitOf (s.reg (Reg.bkCfg k)) p && decide (p < 8)

/-- A point of a configured position: point p = link × 512 + position × 64 + point (R45). -/
def brookIsOutput (s : State) (p : Nat) : Bool := decide (p < 8192) && bkConfigured s (p / 512) (p / 64 % 8)

/-- The subchannel that owns a point: the one whose BINDING names the point's position (log entry 20). -/
def brookOwner (s : State) (p : Nat) : Option Nat :=
  (s.subs.find? fun x => x.2.attr.valid && bindSat x.2.attr.binding == some (p / 512, p / 64 % 8)).map (·.1)

/-- The points with a committed value that a subchannel owns. -/
def brookOwned (s : State) (n : Nat) : List Nat := s.brookOutKeys.filter fun p => brookOwner s p == some n

/-! ### Targets of output entries (R52: bit 15 BROOK) -/

/-- The target is a Brook point. -/
def tgtBrook (t : Nat) : Bool := t / 32768 % 2 == 1
/-- The pin or point number of a target. -/
def tgtNum (t : Nat) : Nat := t % 32768

/-- R31: the safe value of a target. -/
def tgtSafeValue (s : State) (t : Nat) : Nat :=
  if tgtBrook t then brookSafeValue s (tgtNum t) else (pinSafeValue s (tgtNum t)).toNat

/-- R31: an entry whose value is the safe state is a move toward it. -/
def towardSafe (s : State) (e : Nat × Nat) : Bool := e.2 == tgtSafeValue s e.1

/-- A Sluice image holds a value for the target. -/
def tgtPending (s : State) (t : Nat) : Bool := s.sluice.any fun x => x.2.entries.any fun e => e.1 == t

/-- PIN_OUT.PEND (R180: also while a PWM value awaits its boundary). -/
def pinPend (s : State) (n : Nat) : Bool := tgtPending s n || (s.pin n).pwmHold.isSome

/-- R33: a safe move discards the value the Sluice holds for the target; the image remembers it (R226). -/
def discardPending (s : State) (t : Nat) : State :=
  s.setSluice (s.sluice.map fun x =>
    if x.2.entries.any (fun e => e.1 == t) then
      (x.1, { x.2 with entries := x.2.entries.filter (fun e => e.1 != t), discarded := true })
    else if x.2.waiting.contains t then
      (x.1, { x.2 with waiting := x.2.waiting.filter (· != t), discarded := true })
    else x)

/-- R30, R32, R33, R183: a pin moves to its safe state at once; `latch` sets LATCHOFF when it was elsewhere. -/
def safePin (s : State) (n : Nat) (latch : Bool) : State :=
  if isOutMode (pinMode s n) then
    let s := discardPending s n
    s.modPin n fun p => { p with
      latchOff := p.latchOff || (latch && !p.atSafe), value := pinSafeValue s n, atSafe := true, pwmHold := none,
      fifo := [], duty := 0, dutyNext := none }
  else s

/-- R30: a target moves to its safe state. -/
def safeTarget (s : State) (t : Nat) (latch : Bool) : State :=
  if tgtBrook t then
    let s := discardPending s t
    s.setBrookOut (tgtNum t) (brookSafeValue s (tgtNum t))
  else safePin s (tgtNum t) latch

/-- R12, R258, R263: every output of the module at its safe state. -/
def safeAll (s : State) (latch : Bool) : State :=
  let s := foldN 96 (fun s n => safePin s n latch) s
  let s := s.brookOutKeys.foldl (fun s p => safeTarget s (32768 + p) latch) s
  s.sluice.foldl (fun s x => x.2.entries.foldl (fun s e => safeTarget s e.1 latch) s) s

/-- R88, R130: every output a subchannel owns at its safe state. -/
def safeOwned (s : State) (sub : Nat) : State :=
  let s := foldN 96 (fun s n => if pinOwner s n = some sub then safePin s n false else s) s
  (brookOwned s sub).foldl (fun s p => safeTarget s (32768 + p) false) s

/-- R187: the outputs of a bank whose OVERTEMP is active cannot leave the safe state; R12, R18 likewise. -/
def pinHeldSafe (s : State) (n : Nat) : Bool :=
  s.fd.linkLost || ((s.pin n).lost && (s.island (64 + n)).clk != 2) || (s.bank (n / 8)).ot || pinDead s n

/-! ### Diagnostic conditions of a pin (R186, R190, R242) -/

/-- The FATAL bit of a condition; OVERTEMP and OVERCURRENT are always fatal. -/
def diagFatal (s : State) (n k : Nat) : Bool := k == 5 || k == 6 || bitOf (s.reg (Reg.pinDiagCfg n)) (8 + k)

/-- R242: the FB-based checks of GD pins are suspended while the other members may drive the load. -/
def fbSuspended (s : State) : Bool := s.vote.st == .standby || s.vote.st == .excluded || s.vote.st == .rejoining

/-- R186: a GD pin's load-side checks have a feedback pin; one with FB = 0x7F runs only the gate checks. -/
def pinHasFb (s : State) (n : Nat) : Bool := fld (s.reg (Reg.pinOutcfg n)) 6 0 != 0x7F

/-- R186, R242: the condition is defined for the pin's mode and state; on a pin of a failed bank none runs. -/
def diagApplies (s : State) (n k : Nat) : Bool :=
  let m := pinMode s n
  let out := s.reg (Reg.pinOutcfg n)
  let on := pinLevel s n
  let cfg := s.reg (Reg.pinCfg n)
  !pinDead s n && match k with
  | 0 => (m == modeGD && !on) || (m == modeLS && on)
  | 1 => (m == modeGD && on) || (m == modeLS && !on)
  | 2 => (m == modeGD && pinHasFb s n && (if on then fld out 14 8 != 0x7F else !fbSuspended s)) || m == modeLS
      || (m == modeDI && bitOf cfg 28)
  | 3 => (m == modeCS || m == modeAI) && bitOf cfg 29
  | 4 => bitOf cfg 27
  | 5 => isOutMode m
  | 6 => (m == modeGD && bitOf out 15 && on) || (m == modeLS && on) || (m == modePWM && !pinStageGD s n && !(s.pin n).atSafe)
  | _ => false

/-- R186, R242: the FB-based part of SHORT_SUP and SHORT_GND runs on the pin. -/
def fbApplies (s : State) (n : Nat) : Bool := pinMode s n == modeGD && pinHasFb s n && !fbSuspended s

/-- R186: REVERSED and the DI form of OPEN only report. -/
def diagReportOnly (s : State) (n k : Nat) : Bool := k == 3 || (k == 2 && pinMode s n == modeDI)

/-- R190: a held report of a non-fatal diagnostic of the pin, detected at this instant, whose state condition has stopped
being true. -/
def abandonable (s : State) (n : Nat) (r : Report) : Bool :=
  r.pin == n && r.time == s.now && decide (1 ≤ r.kind) && decide (r.kind ≤ 5) && !diagFatal s n (r.kind - 1)
    && !diagApplies s n (r.kind - 1)

/-- R190: a DRIVE has been applied to the pin: the diagnostics of this instant that it ends are abandoned unreported. -/
def abandonDiag (s : State) (n : Nat) : State :=
  let gone := s.fd.reports.filter (abandonable s n)
  let s := s.modFd fun f => { f with reports := f.reports.filter fun r => !abandonable s n r }
  gone.foldl (fun s r => s.modPin n fun p => { p with active := setBit p.active (r.kind - 1) false }) s

/-- R30, R190: the entry of a DRIVE that moves its target toward the safe state is applied. -/
def driveSafe (s : State) (t : Nat) : State :=
  if tgtBrook t then safeTarget s t false else abandonDiag (safeTarget s t false) (tgtNum t)

/-- R53, R180, R187, R224: the Sluice releases a value for a pin. -/
def applyPinValue (s : State) (n v : Nat) : State :=
  if pinHeldSafe s n then safePin s n false
  else if pinMode s n = modePWM ∧ v ≠ 0 ∧ (s.pin n).value.toNat ≠ v then
    s.modPin n fun p => { p with pwmHold := some (BitVec.ofNat 16 v), latchOff := false, lost := false }
  else
    s.modPin n fun p => { p with
      value := BitVec.ofNat 16 v, atSafe := BitVec.ofNat 16 v == pinSafeValue s n, latchOff := false, lost := false }

/-- R53, R190, R224: the Sluice releases a value for a target. -/
def applyTarget (s : State) (e : Nat × Nat) : State :=
  if tgtBrook e.1 then s.setBrookOut (tgtNum e.1) e.2
  else abandonDiag (applyPinValue s (tgtNum e.1) e.2) (tgtNum e.1)

/-- R193: the guard band of a pin; none stands for infinite. -/
def pinGuard (s : State) (n : Nat) : Option Nat :=
  if (s.bank (n / 8)).invalid || (s.pin n).gInf then none else some (s.bank (n / 8)).g

/-- R45, R193: the input snapshot at this moment. -/
def takeSnapshot (s : State) : Snap :=
  { time := s.now, pins := (List.range 96).map (pinRecord s), outs := (List.range 96).map fun n => (s.pin n).value,
    brook := s.brook.ins, guard := (List.range 96).map (pinGuard s), bouts := s.brook.outs }

end Sys2Proof.Machine
end

