-- ==== Sys2Proof/Machine/RegMap.lean ====
section
/-! DEFINITION. The register map (chapter "Register map"): which register an offset names, who an initiator is, and the
world codes of R538. -/

namespace Sys2Proof.Machine

/-- A register by its block: the index in the block where the block is an array, and the offset there. -/
inductive RegId where
  | none
  | glob (o : Nat)
  | boot (o : Nat)
  | levee (o : Nat)
  | weir (o : Nat)
  | evt (o : Nat)
  | evtSrc (n : Nat)
  | mbx (ch : Nat) (cEnd : Bool) (o : Nat)
  | te (n o : Nat)
  | pin (n o : Nat)
  | bank (b o : Nat)
  | fdie (o : Nat)
  | bk (k o : Nat)
  | vote (o : Nat)
  | cfl (k o : Nat)
  | silt (o : Nat)
  | drv (d o : Nat)
  | dma (c o : Nat)
  | tb (o : Nat)
  | sc (k o : Nat)
  | mon (o : Nat)
  | dbell (o : Nat)
  deriving DecidableEq, Repr

/-- Offset o is one of n words from lo. -/
def inWords (o lo n : Nat) : Bool := decide (lo ≤ o) && decide (o < lo + 4 * n)

/-- R535, the block indexes: the register at an aligned offset; `none` where no register is named (R536). -/
def regAt (o : Nat) : RegId :=
  if o % 4 ≠ 0 then .none
  else if o < 0x1000 then
    if o = 0 ∨ inWords o 0x180 7 ∨ inWords o 0x200 36 ∨ inWords o 0x300 3 ∨ inWords o 0x310 4 ∨ inWords o 0x320 3 ∨
      inWords o 0x330 6 ∨ inWords o 0x400 6 ∨ inWords o 0x420 6 ∨ inWords o 0x500 4 ∨ inWords o 0x600 66 ∨
      inWords o 0x800 5 then .glob o else .none
  else if o < 0x2000 then
    if inWords o 0x1000 5 ∨ inWords o 0x1020 7 ∨ inWords o 0x1040 10 ∨ inWords o 0x1070 8 then .boot o else .none
  else if o < 0x4000 then
    if (o < 0x2400 ∧ o % 16 ≠ 12) ∨ inWords o 0x2400 11 then .levee o else .none
  else if o < 0x8000 then
    if inWords o 0x4000 9 ∨ inWords o 0x4100 76 then .weir o else .none
  else if o < 0x10000 then
    if inWords o 0x8000 7 ∨ inWords o 0x8020 20 then .evt o else .none
  else if o < 0x20000 then (if o < 0x12000 then .evtSrc ((o - 0x10000) / 4) else .none)
  else if o < 0x30000 then
    if o < 0x21000 ∧ o % 0x80 ≤ 0x24 then .mbx ((o - 0x20000) / 0x100) (o / 0x80 % 2 == 1) (o % 0x80) else .none
  else if o < 0x40000 then
    if o < 0x34000 ∧ (o % 0x100 ≤ 0x58 ∨ o % 0x100 = 0xFC) then .te ((o - 0x30000) / 0x100) (o % 0x100) else .none
  else if o < 0x50000 then
    if o < 0x41800 then (if o % 0x40 ≤ 0x2C then .pin ((o - 0x40000) / 0x40) (o % 0x40) else .none)
    else if 0x42000 ≤ o ∧ o < 0x42300 ∧ o % 0x40 ≤ 0x28 then .bank ((o - 0x42000) / 0x40) (o % 0x40)
    else if inWords o 0x43000 9 then .fdie (o - 0x43000) else .none
  else if o < 0x60000 then
    if o < 0x51000 ∧ o % 0x100 ≤ 0x5C then .bk ((o - 0x50000) / 0x100) (o % 0x100) else .none
  else if o < 0x70000 then
    if inWords o 0x60000 5 ∨ inWords o 0x60020 12 ∨ inWords o 0x60060 40 then .vote (o - 0x60000)
    else if 0x60100 ≤ o ∧ o < 0x601C0 ∧ o % 0x40 ≤ 0x10 then .cfl ((o - 0x60100) / 0x40) (o % 0x40) else .none
  else if o < 0x80000 then
    if inWords o 0x70000 2 ∨ inWords o 0x70010 4 ∨ inWords o 0x70020 2 ∨ inWords o 0x70030 3 ∨ inWords o 0x70040 3 ∨
      inWords o 0x70060 6 then .silt (o - 0x70000)
    else if 0x70100 ≤ o ∧ o < 0x70300 ∧ o % 0x20 ≤ 0x14 then .drv ((o - 0x70100) / 0x20) (o % 0x20) else .none
  else if o < 0x90000 then
    if o < 0x80400 ∧ o % 0x20 ≤ 0x18 then .dma ((o - 0x80000) / 0x20) (o % 0x20) else .none
  else if o < 0xA0000 then
    if inWords o 0x90000 2 ∨ inWords o 0x90100 2 ∨ inWords o 0x90110 3 then .tb (o - 0x90000) else .none
  else if o < 0xB0000 then
    if o < 0xA0200 ∧ o % 0x100 ≤ 0x18 then .sc ((o - 0xA0000) / 0x100) (o % 0x100) else .none
  else if o < 0xC0000 then (if inWords o 0xB0000 5 then .mon (o - 0xB0000) else .none)
  else if o < 0xD0000 then
    if o = 0xC0000 ∨ inWords o 0xC0008 5 ∨ o = 0xC0020 ∨ inWords o 0xC0030 2 ∨ inWords o 0xC0050 3 ∨
      inWords o 0xC0100 2 ∨ inWords o 0xC0200 32 ∨ inWords o 0xC0300 32 ∨ inWords o 0xC0400 24 then .dbell (o - 0xC0000)
    else .none
  else .none

/-! ### Initiators -/

/-- A number for each initiator that reads registers. -/
def initNum : Initiator → Nat
  | .te n => n.val
  | .scS => 64
  | .scV => 65
  | .pf f => 66 + f.val
  | .monitor => 68
  | .queue .safety => 69
  | .queue .service => 70
  | .device => 71
  | .dma c => 72 + c.val
  | .seq n => 104 + n.val
  | .mover n => 4200 + n.val
  | .commit .safety => 8296
  | .commit .service => 8297

/-- DMA_CH_CFG.WORLD of a channel. -/
def dmaWorld (s : State) (c : Nat) : World := if bitOf (s.reg (Reg.dmaChCfg c)) 1 then .service else .safety

/-- R381, R538: the world of an initiator: a channel core's is that of its running routine, a sequencer's its
subchannel's, a DMA channel's its WORLD bit; the monitor acts in the safety world (R517). -/
def initWorld (s : State) : Initiator → World
  | .te n => (s.core n.val).world
  | .scS => .safety
  | .scV => .service
  | .pf f => if f.val = 0 then .safety else .service
  | .monitor => .safety
  | .queue w => w
  | .commit w => w
  | .device => .safety
  | .dma c => dmaWorld s c.val
  | .seq n => (s.sub n.val).attr.world
  | .mover n => (s.sub n.val).attr.world

/-- The initiator that is core k. -/
def coreInit (k : Fin 66) : Initiator :=
  if h : k.val < 64 then .te ⟨k.val, h⟩ else if k.val = 64 then .scS else .scV

/-- The core that an initiator is. -/
def initCore : Initiator → Option Nat
  | .te n => some n.val
  | .scS => some 64
  | .scV => some 65
  | _ => none

/-- The sequencer and the mover of a subchannel (R34), by its number. -/
def seqOf (n : Nat) : Initiator := .seq (Fin.ofNat 4096 n)
def moverOf (n : Nat) : Initiator := .mover (Fin.ofNat 4096 n)

/-- R538: who may write a register: S, V, B, the monitor, an owner named by its table, or nobody but by no rule. -/
inductive WCode where
  | s | v | both | owner | monitor | scSOnly | scVOnly | scEither | coresOnly
  deriving DecidableEq, Repr

/-- R538: the world code of each register. -/
def worldCode : RegId → WCode
  | .none => .both
  | .glob o =>
    if 0x300 ≤ o ∧ o < 0x310 ∨ o = 0x320 ∨ o = 0x324 ∨ inWords o 0x330 5 ∨ o = 0x400 ∨ inWords o 0x40C 3 ∨
      inWords o 0x420 3 ∨ inWords o 0x500 2 ∨ inWords o 0x600 65 ∨ inWords o 0x808 3 then .s
    else if o = 0x704 then .v else .both
  | .boot o =>
    if o = 0x1010 then .s else if inWords o 0x1020 5 then .scVOnly
    else if o = 0x1064 ∨ inWords o 0x1070 8 then .scSOnly else .both
  | .levee o => if o < 0x2400 ∨ o = 0x2404 ∨ o = 0x240C ∨ o = 0x2418 ∨ o = 0x2424 then .s else .both
  | .weir o => if o = 0x4000 ∨ o = 0x4004 ∨ o = 0x4008 ∨ 0x4100 ≤ o then .s else .both
  | .evt o => if o = 0x8000 ∨ o = 0x8004 ∨ o = 0x800C then .s else if 0x8020 ≤ o ∧ o < 0x8050 then .owner else .both
  | .evtSrc _ => .owner
  | .mbx _ _ _ => .owner
  | .te _ o => if o = 0 ∨ o = 0x10 ∨ o = 0x24 ∨ o = 0x34 then .s else if o = 0x40 ∨ inWords o 0x48 3 then .monitor else .both
  | .pin _ o => if o = 0x14 ∨ o = 0x18 ∨ o = 0x24 ∨ o = 0x2C then .both else .s
  | .bank _ o => if o ≤ 8 ∨ o = 0x20 then .s else .both
  | .fdie o => if o = 0 ∨ o = 4 ∨ o = 0x10 ∨ o = 0x14 ∨ o = 0x1C then .s else .both
  | .bk _ o => if o = 4 ∨ o = 0x10 ∨ o = 0x1C ∨ o = 0x38 ∨ o = 0x44 ∨ o = 0x4C ∨ o = 0x50 ∨ o = 0x54 then .s else .both
  | .vote o => if o = 8 ∨ o = 0x40 then .s else .both
  | .cfl _ o => if o = 0 then .s else .both
  | .silt o =>
    if o = 0 ∨ inWords o 0x30 3 ∨ 0x60 ≤ o then .s else if inWords o 0x40 3 then .v else .both
  | .drv _ o => if o = 4 ∨ o = 0x14 then .s else .both
  | .dma _ _ => .owner
  | .tb o => if o = 0x104 ∨ o = 0x114 ∨ o = 0x118 then .s else .both
  | .sc _ o => if o = 0x10 then .owner else .both
  | .mon o => if o = 0 then .scSOnly else if o = 8 ∨ o = 0xC then .monitor else .both
  | .dbell o =>
    if o = 0x10 ∨ o = 0x14 then .scSOnly else if o = 0x50 ∨ o = 0x54 then .scVOnly
    else if o = 0x30 then .scEither else if o = 0x100 ∨ o = 0x104 then .coresOnly
    else if o = 0x18 then .s else if o = 0x58 then .v
    else if o = 0x20 ∨ o = 0x34 ∨ inWords o 0x300 32 then .both else .s

end Sys2Proof.Machine
end

