-- ==== Sys2Proof/Machine/RegRead.lean ====
section
/-! DEFINITION. What each register reads as (the field tables of every chapter), and reads with a side effect (R540). -/

namespace Sys2Proof.Machine

/-- R167, R168: OLDSEG of a class. -/
def oldSegs (s : State) (cls : Nat) : Nat :=
  (s.subs.filter fun x => x.2.attr.valid && x.2.attr.cls == cls && x.2.old).length

/-! ### Configuration that several units read -/

/-- VOTE_CFG.MODE: 0 SIMPLEX, 1 2oo2, 2 2oo3, 3 2oo2+standby (R203). -/
def voteMode (s : State) : Nat := fld (s.reg Reg.voteCfg) 1 0
/-- This member's position (R204). -/
def myPos (s : State) : Nat := fld (s.reg Reg.voteCfg) 9 8
/-- STATE encoding of a member state. -/
def mstCode : MSt → Nat
  | .down => 0
  | .forming => 1
  | .inService => 2
  | .standby => 3
  | .excluded => 4
  | .rejoining => 5
/-- The state of a position in this member's view, its own included. -/
def viewOf (s : State) (p : Nat) : Nat := if p = myPos s then mstCode s.vote.st else nth 0 s.vote.view p

/-- One position of a Brook link. -/
def bkPos (s : State) (k p : Nat) : BkPos := nth {} (s.bk k).pos p
/-- R313: its state; a configured position that has seen nothing is LOST. -/
def bkPosSt (s : State) (k p : Nat) : PosSt :=
  if !bkConfigured s k p then .off else if (bkPos s k p).st = .off then .lost else (bkPos s k p).st

/-- The scheme of a world (LEVEE_CTL): capability scheme. -/
def schemeCap (s : State) (w : World) : Bool :=
  bitOf (s.reg Reg.leveeCtl) (match w with
    | .safety => 0
    | .service => 1)

/-- CXEMU of core k (R351). -/
def cxemu (s : State) (k : Nat) : Bool :=
  if k < 64 then bitOf (s.reg (Reg.devCxemu (k / 32))) (k % 32) else bitOf (s.reg Reg.devCxemuSc) (k - 64)

/-- RSTRAP of a world (R344). -/
def rstrap (s : State) (w : World) : Bool :=
  bitOf (s.reg Reg.devCoreCfg) (match w with
    | .safety => 0
    | .service => 1)

/-- World as a bit. -/
def worldBit : World → Nat
  | .safety => 0
  | .service => 1

/-- The ST register of core k (R332). -/
def stWord (s : State) (k : Nat) : Word :=
  let x := s.core k
  let cap := schemeCap s x.world
  pack [(0, 1, b2n x.sm), (1, 1, b2n x.dc), (2, 1, if cap then 0 else b2n x.lvl), (3, 1, worldBit x.world),
    (4, 1, b2n cap), (5, 1, b2n (cxemu s k)), (6, 1, b2n (rstrap s x.world))]

/-- A TE's subchannel slots that are occupied by sticky subchannels (R146). -/
def stickyN (s : State) (n : Nat) : Nat := ((s.te n).slots.filter fun b => (s.sub b).attr.sticky).length

def lo (t : DWord) : Word := BitVec.ofNat 32 t.toNat
def hi (t : DWord) : Word := BitVec.ofNat 32 (t.toNat / 2 ^ 32)

/-! ### 64-bit pairs read low word first (R23) -/

/-- The value of a pair, and whether the register is its HI half. -/
def pairOf (s : State) : RegId → Option (DWord × Bool)
  | .tb o => if o = 0 then some (s.now, false) else if o = 4 then some (s.now, true) else none
  | .te n o => if o = 0x38 ∨ o = 0x3C then some ((s.te n).snapTime, o == 0x3C) else none
  | .bank b o =>
    if o = 0x18 ∨ o = 0x1C then some ((s.bank b).calTime, o == 0x1C)
    else if o = 0x24 ∨ o = 0x28 then some ((s.bank b).firstTime, o == 0x28) else none
  | .fdie o => if o = 8 ∨ o = 12 then some (s.fd.cc.tcc, o == 12) else none
  | .bk k o => if o = 0x3C ∨ o = 0x40 then some ((s.bk k).last.time, o == 0x40) else none
  | .vote o => if o = 0x44 ∨ o = 0x48 then some (s.vote.exclTime, o == 0x48) else none
  | .evt o =>
    if o = 0x8014 ∨ o = 0x8018 then
      some ((lastArrival s (fld (s.reg 0x8010) 10 0)).getD 0, o == 0x8018) else none
  | .drv d o => if o = 8 ∨ o = 12 then some (BitVec.ofNat 64 (s.drv d).blocks, o == 12) else none
  | _ => none

/-! ### The registers, block by block -/

/-- R19: the status register of an island. -/
def islWord (s : State) (i : Nat) : Word :=
  let x := s.island i
  pack [(0, 2, x.clk), (2, 1, b2n x.slow), (3, 1, b2n x.wdog), (4, 12, x.freq), (16, 8, x.cnt)]

def teStNum : TeSt → Nat
  | .inService => 0
  | .slow => 1
  | .retiring => 2
  | .retired => 3
  | .spare => 4
  | .loading => 5

/-- A word whose bit i is f i. -/
def bitsWord (f : Nat → Bool) : Word := pack ((List.range 32).map fun i => (i, 1, b2n (f i)))

def globWord (s : State) (o : Nat) : Word :=
  if o = 0 then 0x01B14896#32
  else if inWords o 0x180 7 then bitsWord fun i => (s.island (32 * ((o - 0x180) / 4) + i)).wdog
  else if inWords o 0x200 36 then islWord s (176 + (o - 0x200) / 4)
  else if o = 0x318 ∨ o = 0x31C then bitsWord fun i => (s.te (32 * ((o - 0x318) / 4) + i)).st == .retired
  else if o = 0x328 then pack [(0, 1, b2n s.mig.busy), (1, 3, s.mig.result)]
  else if o = 0x344 then pack [(0, 12, oldSegs s s.disp.cls), (12, 6, s.disp.cls), (18, 2, s.disp.result)]
  else if o = 0x404 then pack [(0, 1, b2n s.cu.failed), (1, 1, b2n s.cu.torn), (8, 8, s.cu.chk)]
  else if o = 0x408 then s.cu.cnt
  else if o = 0x410 then
    pack [(0, 2, s.cu.lastReset), (2, 1, b2n s.cu.basinUnverified), (3, 1, b2n s.cu.dramRetained),
      (4, 1, b2n s.cu.thermal), (8, 8, s.cu.scrubUe)]
  else if o = 0x428 then
    let e := s.memErrs
    pack [(0, 8, e.ueCount), (8, 1, e.ueTarget), (9, 1, b2n e.ueScrub), (10, 7, e.ueReq), (31, 1, b2n e.ueValid)]
  else if o = 0x42C then BitVec.ofNat 32 s.memErrs.ueAddr
  else if o = 0x430 then BitVec.ofNat 32 (s.memErrs.ueAddr / 2 ^ 32)
  else if o = 0x434 then pack [(0, 16, s.memErrs.bpass.toNat), (16, 16, s.memErrs.dpass.toNat)]
  else if o = 0x804 then
    let h := s.host
    let a := s.hostFn 0
    let b := s.hostFn 1
    pack [(0, 1, b2n h.linkUp), (1, 3, h.speed), (4, 3, h.width), (8, 1, b2n a.bme), (9, 1, b2n b.bme),
      (10, 1, b2n a.msixEn), (11, 1, b2n b.msixEn), (12, 1, b2n a.d3), (13, 1, b2n b.d3), (16, 8, h.linkDowns), (24, 8, h.flrs)]
  else if o = 0x808 then pack [(0, 8, s.host.cto), (8, 8, s.host.urca), (16, 8, s.host.poison), (24, 8, s.host.caTx)]
  else if o = 0x80C ∨ o = 0x810 then
    let f := s.hostFn ((o - 0x80C) / 4)
    pack [(0, 16, f.filtered), (16, 16, f.dropped)]
  else if inWords o 0x320 2 ∨ o = 0x340 ∨ o = 0x40C then 0
  else s.reg o

/-- DEV_BOOT_STAT.STEP (R485). -/
def bootStep (s : State) : Nat :=
  match s.boot.st with
  | .off => 1
  | .fieldTest => 2
  | .resetWait => 3
  | .memory => 4
  | .reading => 5
  | .auth => 6
  | .apply => 7
  | .forming => 8
  | .ready => 9
  | .stopped => 15

def bootWord (s : State) (o : Nat) : Word :=
  let b := s.boot
  if o = 0x1000 then
    pack [(0, 4, bootStep s), (4, 1, b2n b.slot), (5, 1, b2n b.fallback), (8, 4, b.stop), (16, 6, b.svn)]
  else if o = 0x1004 then pack [(0, 8, b.errCode), (8, 8, b.errSec), (16, 15, b.errRec), (31, 1, b2n b.errSlot)]
  else if o = 0x1008 then b.seqA
  else if o = 0x100C then b.seqB
  else if o = 0x1034 then pack [(0, 1, b2n (b.updBusy != 0)), (1, 3, b.updResult), (4, 8, b.vcode)]
  else if o = 0x1038 then b.vseq
  else if inWords o 0x1040 8 then nth 0 b.vhash ((o - 0x1040) / 4)
  else if o = 0x1060 then
    let f := s.fuses
    pack [(0, 1, b2n (nth none f.keys 0).isSome), (1, 1, b2n (nth false f.revoked 0)), (2, 1, b2n (nth none f.keys 1).isSome),
      (3, 1, b2n (nth false f.revoked 1)), (4, 1, b2n f.lock), (5, 1, b2n s.unprov), (6, 2, f.used), (8, 6, f.floor),
      (14, 1, b2n f.busy), (15, 3, f.result)]
  else if o = 0x1020 ∨ o = 0x1064 then 0
  else s.reg o

def leveeWord (s : State) (o : Nat) : Word :=
  let l := s.levee
  if o < 0x2400 then s.shadowReg o
  else if o = 0x2404 then pack [(1, 1, b2n l.busy), (2, 3, l.result), (5, 6, l.entry)]
  else if o = 0x2408 then pack [(0, 1, b2n l.overlap), (1, 6, l.ova), (7, 6, l.ovb)]
  else if o = 0x240C then l.log
  else if o = 0x2410 then BitVec.ofNat 32 l.logAddr
  else if o = 0x2414 then BitVec.ofNat 32 (l.logAddr / 2 ^ 32)
  else if o = 0x2418 then l.refuseCnt
  else if o = 0x2424 then 0
  else if o = 0x2428 then pack [(0, 1, b2n l.revBusy), (1, 1, b2n l.exh), (2, 8, l.epoch), (10, 12, l.otype)]
  else s.reg o

/-- R441: the capacities that a window gives. -/
def weirCap (s : State) (dram : Bool) (win : Nat) : Nat :=
  if dram then win * (if bitOf (s.reg Reg.devMemCfg) 0 then 480 else 512) / 1024 else 8 * win

/-- What the Weir keeps for requester r. -/
def State.weirReq (s : State) (r : Nat) : WeirReqSt := tget {} s.weir.req r

def weirWord (s : State) (o : Nat) : Word :=
  let x := s.weirReq (fld (s.reg Reg.weirMonSel) 6 0)
  if o = 0x4008 then pack [(1, 1, b2n s.weir.pend), (2, 2, s.weir.result)]
  else if o = 0x400C then BitVec.ofNat 32 (weirCap s false (fld (s.shadowReg Reg.weirWin) 16 0))
  else if o = 0x4010 then BitVec.ofNat 32 (weirCap s true (fld (s.shadowReg Reg.weirWin) 16 0))
  else if o = 0x4014 then s.reg o
  else if o = 0x4018 then pack [(0, 16, nth 0 x.grantLast 0), (16, 16, nth 0 x.grantLast 1)]
  else if o = 0x401C then pack [(0, 16, nth 0 x.waitLast 0), (16, 16, nth 0 x.waitLast 1)]
  else if o = 0x4020 then pack [(0, 16, x.empty), (16, 16, x.spareLast)]
  else s.shadowReg o

def evtWord (s : State) (o : Nat) : Word :=
  if o = 0x8000 then pack [(0, 1, b2n s.ev.en)]
  else if o = 0x8004 then pack [(0, 1, b2n s.ev.ovfSeen), (1, 1, b2n s.ev.doneErr), (8, 11, s.ev.ovfSrc)]
  else if o = 0x800C then BitVec.ofNat 32 s.ev.refuse
  else if o = 0x8010 then s.reg o
  else if inWords o 0x8020 4 then BitVec.ofNat 32 (evSplit s ((o - 0x8020) / 4))
  else if inWords o 0x8050 4 then evRunWord s ((o - 0x8050) / 4)
  else if inWords o 0x8060 4 then
    let j := (o - 0x8060) / 4
    let v := nth 0 s.ev.vsent (j / 2)
    if j % 2 = 0 then lo v else hi v
  else 0

/-- The mailbox registers, as their owner reads them; MBX_RX takes its word elsewhere. -/
def mbxWord (s : State) (ch : Nat) (cEnd : Bool) (o : Nat) : Word :=
  let e := s.mb ch cEnd
  if o = 8 then mbxStatWord s ch cEnd
  else if o = 0xC then e.db
  else if o = 0x10 then e.mask
  else if o = 0x14 then (s.mb ch !cEnd).db
  else if o = 0x1C then e.ack
  else if o = 0x20 then pack [(0, 4, e.ie), (5, 11, if cEnd then Config.srcMbx + ch else e.hsrc)]
  else 0

def teWord (s : State) (n o : Nat) : Word :=
  let t := s.te n
  let d := s.dbg n
  if o = 0 then s.reg (Reg.teCtl n)
  else if o = 4 then
    pack [(0, 3, teStNum t.st), (3, 1, b2n t.running.isSome), (4, 1, b2n t.dataLost),
      (5, 5, t.waitq.length + t.rerun.length)]
  else if o = 8 then pack [(0, 12, t.curSub), (12, 8, t.curCode), (20, 6, t.curCls)]
  else if o = 0xC then pack [(0, 16, 2 ^ t.slots.length - 1), (16, 5, stickyN s n)]
  else if o = 0x14 then pack [(0, 16, t.misses), (16, 6, t.dcache.length)]
  else if o = 0x18 then t.cmdCnt
  else if o = 0x1C then pack [(0, 24, t.rate), (24, 1, b2n t.demand)]
  else if o = 0x20 then t.swapCnt
  else if o = 0x24 then pack [(0, 24, t.hwm)]
  else if o = 0x28 then pack [(0, 8, t.faultCause), (8, 12, t.faultSub)]
  else if o = 0x2C then t.faultAddr
  else if o = 0x30 then pack [(0, 16, t.rollbacks), (16, 8, t.recovWin), (24, 8, t.conflicts)]
  else if o = 0x34 then
    pack [(0, 7, heldUsed t.held), (7, 1, b2n t.sbOvf), (8, 7, t.sbHwm), (16, 4, t.held.rsv.length)]
  else if o = 0x40 then
    pack [(3, 1, b2n d.brkEn), (4, 2, d.bkptEn.toNat), (8, 1, b2n d.halted), (9, 3, if d.halted then d.why else 0), (12, 1, b2n d.abandoned)]
  else if o = 0x44 then (if d.halted then (s.core n).pc else 0)
  else if o = 0x48 ∨ o = 0x4C then nth 0 d.bkpt ((o - 0x48) / 4)
  else if o = 0x50 then pack [(0, 1, b2n d.traceEn), (1, 1, b2n d.traceBranch), (2, 1, b2n d.traceExc)]
  else if o = 0x54 then BitVec.ofNat 32 t.loamImg
  else if o = 0xFC then islWord s n
  else 0

def pinWord (s : State) (n o : Nat) : Word :=
  let p := s.pin n
  if o ≤ 0x10 then s.shadowReg (Reg.pinCfg n + o)
  else if o = 0x14 then
    pack [(0, 16, p.value.toNat), (16, 1, b2n (pinPend s n)), (17, 1, b2n p.latchOff), (18, 1, b2n p.atSafe),
      (19, 1, b2n (pinLevel s n))]
  else if o = 0x18 then pack [(0, 16, p.code.toNat), (16, 1, b2n (pinInLevel s n)), (17, 1, p.calset.toNat)]
  else if o = 0x1C then pack [(0, 7, p.active.toNat), (8, 7, p.sticky.toNat), (16, 7, p.supp.toNat), (24, 8, p.count)]
  else if o = 0x20 then s.shadowReg (Reg.pinDiagCfg n) ||| 0x6060#32
  else if o = 0x24 then p.fq
  else if o = 0x28 then pack [(3, 1, b2n p.recBusy), (4, 3, p.recResult)]
  else if o = 0x2C then islWord s (64 + n)
  else 0

def bankWord (s : State) (b o : Nat) : Word :=
  let x := s.bank b
  if o = 0 then s.reg (Reg.bankCtl b)
  else if o = 4 then s.shadowReg (Reg.bankScan b)
  else if o = 8 then pack [(2, 1, b2n x.scanBusy), (3, 3, x.result)]
  else if o = 0xC then
    pack [(0, 11, x.temp.toNat), (11, 11, x.iBank.toNat), (22, 8, x.vfld),
      (30, 1, b2n (s.fd.cc.active && (s.fd.cc.all || s.fd.cc.hit / 2 ^ b % 2 == 1))), (31, 1, b2n x.ot)]
  else if o = 0x10 then
    pack [(0, 8, x.g), (8, 1, b2n x.invalid), (9, 1, b2n x.calset), (10, 1, b2n x.calRun), (11, 1, b2n x.failed),
      (12, 1, b2n x.otw)]
  else if o = 0x14 then pack [(0, 11, x.tCal.toNat), (11, 11, x.iCal.toNat)]
  else if o = 0x20 then
    pack [(0, 3, x.firstPin), (4, 4, x.firstKind), (8, 8, x.firstCount), (16, 1, b2n x.firstOvf), (31, 1, b2n x.firstValid)]
  else 0

def fdieWord (s : State) (o : Nat) : Word :=
  let c := s.fd.cc
  if o = 0 then s.reg Reg.pinCcCtl
  else if o = 4 then
    pack [(0, 12, c.banks), (12, 1, b2n c.gndofs), (13, 1, b2n c.vinHi), (14, 1, b2n c.active), (31, 1, b2n c.seen)]
  else if o = 0x10 then BitVec.ofNat 32 s.fd.ccSupp
  else if o = 0x14 then s.reg Reg.pinStormBase
  else if o = 0x18 then pack [(0, 10, s.fd.stormIdx), (16, 16, s.fd.stormSeq)]
  else if o = 0x1C then BitVec.ofNat 32 s.fd.stormDrop
  else if o = 0x20 then pack [(0, 12, s.fd.fdPass.toNat), (12, 1, b2n s.fd.fdDone)]
  else 0

def posStNum : PosSt → Nat
  | .off => 0
  | .lost => 1
  | .ident => 2
  | .online => 3
  | .failed => 4

def bkWord (s : State) (k o : Nat) : Word :=
  let b := s.bk k
  if o = 0 ∨ o = 0x1C ∨ o = 0x44 ∨ o = 0x54 then s.reg (Reg.bkCfg k + o)
  else if o = 4 then s.reg (Reg.bkCtl k) &&& 1#32
  else if o = 8 then
    pack [(0, 2, b.link), (2, 1, b2n b.degraded), (3, 1, b2n (b.shadow == 1 || b.shadow == 2)),
      (8, 8, (List.range 8).foldl (fun a p => a + if bkPosSt s k p = .online then 2 ^ p else 0) 0)]
  else if o = 0xC then
    pack ((List.range 8).flatMap fun p =>
      [(4 * p, 3, posStNum (bkPosSt s k p)), (4 * p + 3, 1, b2n (bkPos s k p).busySeen)])
  else if o = 0x10 then
    pack [(0, 8, b.attn), (8, 8, (List.range 8).foldl (fun a p => a + if (bkPos s k p).attn then 2 ^ p else 0) 0)]
  else if o = 0x14 then pack [(0, 8, b.vPri), (8, 8, b.hPri), (16, 8, b.vSh), (24, 8, b.hSh)]
  else if o = 0x18 then pack [(0, 8, b.eqPri), (8, 8, b.eqSh), (16, 8, b.fails)]
  else if o = 0x20 then b.errCrc
  else if o = 0x24 then b.errTmo
  else if o = 0x28 then b.errLate
  else if o = 0x2C then b.errSym
  else if o = 0x30 then b.swaps
  else if o = 0x34 then b.retries
  else if o = 0x38 then
    pack [(0, 3, b.last.pos), (8, 8, b.last.ty), (16, 8, b.last.seq), (24, 4, b.last.kind), (31, 1, b2n b.last.valid)]
  else if o = 0x48 then
    pack [(0, 9, b.tx.length), (9, 1, b2n b.stageWait), (10, 9, b.rx.length), (19, 3, b.stageResult)]
  else if o = 0x58 then (bkPos s k (fld (s.reg (Reg.bkSatSel k)) 2 0)).satType
  else if o = 0x5C then islWord s (160 + k)
  else 0

/-- The mean of a list of lags, saturating (VOTE_LAG). -/
def meanLag (l : List Nat) : Nat := if l = [] then 0 else Nat.min 0xFFFF (l.foldl (· + ·) 0 / l.length)

def voteWord (s : State) (o : Nat) : Word :=
  let v := s.vote
  let inView (c : Nat) : Nat := (List.range 4).foldl (fun a p => a + if viewOf s p = c then 2 ^ p else 0) 0
  if o = 8 then 0
  else if o = 0xC then
    pack [(0, 3, mstCode v.st), (8, 4, inView 2), (12, 4, inView 3), (16, 4, inView 4),
      (20, 3, (List.range 3).foldl (fun a k => a + if (s.cfl k).st = 2 then 2 ^ k else 0) 0),
      (23, 9, (v.votes.filter fun x => x.own.isSome && x.verdict.isNone).length)]
  else if o = 0x10 then pack [(0, 8, v.actOfs), (8, 8, v.rttMax), (16, 8, v.jit)]
  else if inWords o 0x20 4 then
    let p := (o - 0x20) / 4
    pack [(0, 16, meanLag (nth [] v.lags p)), (16, 8, nth 0 v.late p), (24, 3, viewOf s p)]
  else if o = 0x30 then v.cntApply
  else if o = 0x34 then v.cntFault
  else if o = 0x38 then v.cntTmo
  else if o = 0x3C then v.cntLate
  else if o = 0x40 then v.exclLog
  else if o = 0x4C then pack [(0, 3, v.rejoin.step), (4, 3, v.rejoin.result), (8, 4, v.rejoin.attempts)]
  else s.reg (0x60000 + o)

def cflWord (s : State) (k o : Nat) : Word :=
  let c := s.cfl k
  if o = 0 then s.reg (Reg.cflCtl k) &&& 1#32
  else if o = 4 then pack [(0, 2, c.st), (4, 2, c.peerPos), (8, 4, c.err)]
  else if o = 8 then pack [(0, 8, c.rttLast), (8, 8, c.rttMax), (16, 8, c.rttMin)]
  else if o = 0xC then pack [(0, 16, c.crc), (16, 8, c.downs), (24, 8, c.resend)]
  else if o = 0x10 then pack [(0, 16, c.ofs.toNat)]
  else 0

def siltWord (s : State) (o : Nat) : Word :=
  let bits (f : Drive → Bool) : Nat := (List.range 16).foldl (fun a d => a + if f (s.drv d) then 2 ^ d else 0) 0
  if o = 4 then pack [(0, 16, bits (·.linkUp)), (16, 16, bits fun x => x.st == .ready)]
  else if o = 0x30 ∨ o = 0x40 then 0
  else if o = 0x38 then pack [(0, 1, b2n s.silt.cmdS.busy), (1, 3, s.silt.cmdS.result)]
  else if o = 0x48 then pack [(0, 1, b2n s.silt.cmdV.busy), (1, 3, s.silt.cmdV.result)]
  else if o = 0x74 then pack [(1, 1, b2n s.silt.copy.busy), (2, 1, b2n s.silt.copy.done), (3, 3, s.silt.copy.result)]
  else s.reg (0x70000 + o)

def drvStNum : DrvSt → Nat
  | .absent => 0
  | .init => 1
  | .ready => 2
  | .foreign => 3
  | .failed => 4
  | .removing => 5

def drvWord (s : State) (d o : Nat) : Word :=
  let x := s.drv d
  if o = 0 then
    pack [(0, 3, drvStNum x.st), (3, 1, b2n x.slow), (4, 3, x.width), (7, 3, x.speed), (10, 4, if x.st = .foreign then 0 else x.ioq), (14, 1, b2n x.broken),
      (16, 4, x.reason)]
  else if o = 0x10 then pack [(0, 16, x.mean), (16, 16, x.max)]
  else if o = 0x14 then pack [(0, 8, x.errTmo), (8, 8, x.errStatus), (16, 8, x.aerCor), (24, 8, x.aerUnc)]
  else 0

/-- DMA_CH_CFG.REQ (R296). -/
def dmaReq (s : State) (c : Nat) : Nat := fld (s.reg (Reg.dmaChCfg c)) 11 4

/-- R181, R296, R322: the peripheral request that paces a channel is asserted, or there is none. -/
def dmaAsserted (s : State) (c : Nat) : Bool :=
  let q := dmaReq s c
  if q = 0 then true
  else if q ≤ 96 then
    let n := q - 1
    pinMode s n == modePWM && pinAudio s n && fld (s.reg (Reg.pinAux n)) 20 16 == c && decide ((s.pin n).fifo.length ≤ 16)
  else if q ≤ 112 then decide ((s.bk (q - 97)).tx.length + 64 ≤ 256) && !(s.bk (q - 97)).stageWait
  else if q ≤ 128 then decide (4 ≤ (s.bk (q - 113)).rx.length)
  else false

def dmaStNum : DmaSt → Nat
  | .disabled => 0
  | .idle => 1
  | .running => 2
  | .halted => 3

def dmaWord (s : State) (c o : Nat) : Word :=
  let x := s.dch c
  if o = 0x10 then
    pack [(0, 12, x.head), (12, 2, dmaStNum x.st), (14, 1, b2n (x.st == .running && !dmaAsserted s c)), (15, 1, b2n x.badSeen), (16, 16, x.badCnt)]
  else if o = 0x18 then 0
  else if o = 0xC then BitVec.ofNat 32 x.tail
  else s.reg (Reg.dmaChCfg c + o)

def tbWord (s : State) (o : Nat) : Word :=
  let u := s.supply
  if o = 0x100 then
    pack [(0, 11, u.tmax.toNat), (11, 7, u.tsrc), (18, 1, b2n u.warn), (19, 1, b2n u.throt), (20, 1, b2n u.stopping)]
  else if o = 0x104 then s.reg Reg.devThermCfg
  else if o = 0x110 then
    pack [(20, 1, b2n u.diodeOn), (21, 1, b2n u.clamp), (23, 4, u.railGood.toNat)]
  else if o = 0x114 then
    pack [(0, 1, b2n u.clampSeen), (1, 1, b2n u.clampOpen), (2, 1, b2n u.thermShut), (3, 1, b2n u.plossSeen), (8, 8, u.clampCnt)]
  else 0

/-- The watchdog period of supervisor core k in ns: PER in µs, where 0 means 1 (R367). -/
def wdogPer (s : State) (k : Nat) : Nat := 1000 * Nat.max 1 (fld (s.reg (Reg.scWdogCtl k)) 15 0)
def wdogEn (s : State) (k : Nat) : Bool := bitOf (s.reg (Reg.scWdogCtl k)) 16

def scWord (s : State) (k o : Nat) : Word :=
  let x := s.sc k
  if o = 0 then
    pack [(0, 2, if x.locked then 2 else if (s.core (64 + k)).run then 0 else 3), (8, 8, x.lcause), (16, 8, x.lorig)]
  else if o = 4 then x.lockPc
  else if o = 8 then x.lockFaddr
  else if o = 0xC then s.reg (Reg.scWdogCtl k)
  else if o = 0x14 then
    pack [(0, 16, if wdogEn s k && !x.locked then (x.kick.toNat + wdogPer s k - s.now.toNat) / 1000 else 0),
      (16, 1, b2n x.expired)]
  else if o = 0x18 then pack [(0, 16, x.faults), (16, 8, x.hard)]
  else 0

/-- MON_DBG_DATA of a halted core; the budget count (52) is answered where the register is read. -/
def dbgWord (s : State) (n r : Nat) : Word :=
  let x := s.core n
  if r < 32 then nth 0 x.g r
  else if r = 32 then BitVec.ofNat 32 x.p.toNat
  else if r = 33 then stWord s n
  else if r < 43 then
    let i := (r - 34) / 3
    let j := (r - 34) % 3
    if j = 0 then nth 0 x.ls i else if j = 1 then nth 0 x.le i else nth 0 x.lc i
  else if r = 43 then BitVec.ofNat 32 x.rs.length
  else if r < 52 then nth 0 x.rs (r - 44)
  else 0

def monWord (s : State) (o : Nat) : Word :=
  let m := s.mon
  if o = 0 then pack [(0, 1, b2n m.sWrite)]
  else if o = 4 then
    pack [(0, 1, b2n m.run), (2, 1, b2n m.noimg), (3, 3, m.rate), (8, 16, m.lines), (24, 8, m.refused)]
  else if o = 8 then m.sel
  else if o = 0xC then
    if (s.dbg (fld m.sel 5 0)).halted then dbgWord s (fld m.sel 5 0) (fld m.sel 13 8) else 0
  else if o = 0x10 then pack [(0, 12, m.traceWr), (16, 16, m.traceDrop)]
  else 0

def qStNum : QSt → Nat
  | .disabled => 0
  | .enabled => 1
  | .error => 2
  | .fenced => 3

/-- DBELL_QSTAT of a selection. -/
def qstatWord (s : State) (sel : Word) : Word :=
  let n := fld sel 9 0
  if bitOf sel 16 then
    let k := s.ring n
    pack [(0, 2, qStNum k.st), (4, 4, k.err), (8, 8, k.dropped), (16, 16, k.tail)]
  else
    let q := s.sq n
    pack [(0, 2, qStNum q.st), (4, 4, q.err), (16, 16, q.head)]

def dbellWord (s : State) (o : Nat) : Word :=
  if o = 0x18 then qstatWord s (s.reg Reg.dbellQselS)
  else if o = 0x58 then qstatWord s (s.reg Reg.dbellQselV)
  else if o = 0x20 then s.q.errLog
  else if o = 0x34 then bitsWord fun r => (s.reach r).reqs != []
  else if o = 0x14 ∨ o = 0x54 ∨ o = 0x30 ∨ o = 0x100 ∨ o = 0x104 then 0
  else if inWords o 0x300 32 then
    let r := s.reach ((o - 0x300) / 4)
    pack [(0, 24, r.staleCnt), (24, 4, r.staleClass), (28, 1, b2n r.staleAge)]
  else s.reg (0xC0000 + o)

/-- The value of a register that reads without a side effect. -/
def regValue (s : State) : RegId → Word
  | .none => 0
  | .glob o => globWord s o
  | .boot o => bootWord s o
  | .levee o => leveeWord s o
  | .weir o => weirWord s o
  | .evt o => evtWord s o
  | .evtSrc n => evSrcWord s n
  | .mbx ch e o => mbxWord s ch e o
  | .te n o => teWord s n o
  | .pin n o => pinWord s n o
  | .bank b o => bankWord s b o
  | .fdie o => fdieWord s o
  | .bk k o => bkWord s k o
  | .vote o => voteWord s o
  | .cfl k o => cflWord s k o
  | .silt o => siltWord s o
  | .drv d o => drvWord s d o
  | .dma c o => dmaWord s c o
  | .tb o => tbWord s o
  | .sc k o => scWord s k o
  | .mon o => monWord s o
  | .dbell o => dbellWord s o

/-! ### Reads -/

/-- R322: a pop of four bytes of the receive FIFO; bytes past its fill read 0. -/
def bkRxdata (s : State) (k : Nat) : State × Word :=
  let v := wordAt (padTo 0 4 ((s.bk k).rx.take 4)) 0
  (s.modBk k fun b => { b with rx := b.rx.drop 4 }, v)

/-- R427, R538, R544: reads that the register's World line or its own rule refuses: a mailbox end, a DMA channel's registers
but DMA_CH_STAT and a core's SC_WDOG_KICK are their owner's alone. The monitor reads for either world (R519). -/
def readRefused (s : State) (who : Initiator) : RegId → Bool
  | .mbx ch e _ => !mbxOwner who ch e
  | .bk _ o => (o == 0x4C || o == 0x50) && initWorld s who == .service
  | .dma c o => o != 0x10 && who != .monitor && dmaWorld s c != initWorld s who
  | .sc k o => o == 0x10 && initCore who != some (64 + k)
  | _ => false

/-- R23: where an initiator's latch for a register stands. -/
def latchKey (who : Initiator) (o : Nat) : Nat := initNum who * 0x200000 + o

/-- A register read that reaches the register: its value and its side effect (R540). The supply voltages and the level of
PF_n are measured outside the table's operations, and TE_STALL_CNT counts cycles: they read as free values (log entries 25
and 47). -/
def readReg (s : State) (who : Initiator) (o : Nat) : State × Word :=
  let id := regAt o
  match pairOf s id with
  | some (t, false) => ({ s with latch := tset s.latch (latchKey who (o + 4)) (hi t) }, lo t)
  | some (_, true) => (s, tget 0 s.latch (latchKey who o))
  | none =>
    match id with
    | .evt a => if inWords a 0x8030 4 then claim s who ((a - 0x8030) / 4) else (s, evtWord s a)
    | .mbx ch e 4 => mbxRx s ch e
    | .bk k 0x50 => bkRxdata s k
    | .mon 0xC =>
      if (s.dbg (fld s.mon.sel 5 0)).halted && fld s.mon.sel 13 8 == 52 then
        let (s, v) := s.free
        (s, v.setWidth 32)
      else (s, monWord s 0xC)
    | .te _ 0x58 =>
      let (s, v) := s.free
      (s, v.setWidth 32)
    | .tb 0x110 =>
      let (s, v) := s.free
      (s, tbWord s 0x110 ||| (v.setWidth 32 &&& 0x4FFFFF#32))
    | .tb 0x118 =>
      let (s, v) := s.free
      (s, v.setWidth 32 &&& 0x3FF#32)
    | _ => (s, regValue s id)

end Sys2Proof.Machine
end

