-- ==== Sys2Proof/Machine/RegCheck.lean ====
section
/-! DEFINITION. Which register writes are refused (R539, R541, and the rules that field tables name), and what a refusal
counts. -/

namespace Sys2Proof.Machine

/-! ### Authority of a core (R394, R395) -/

/-- R395: permission bit i of a capability. -/
def capPerm (c : Cap) (i : Nat) : Bool := bitOf c.body (64 + i)

/-- R394: core k has supervisor authority. -/
def isSupervisor (s : State) (k : Nat) : Bool :=
  let x := s.core k
  if schemeCap s x.world then x.pcc.tag && capPerm x.pcc 7 else x.lvl

/-- R403: the core may revoke: supervisor authority, or a PCC with REVOKE. -/
def mayRevoke (s : State) (k : Nat) : Bool :=
  let x := s.core k
  isSupervisor s k || (schemeCap s x.world && x.pcc.tag && capPerm x.pcc 8)

/-! ### World codes -/

/-- R538: the owner that a register's table names. -/
def ownsReg (s : State) (who : Initiator) : RegId → Bool
  | .evt o => if inWords o 0x8020 4 then tgtWorld ((o - 0x8020) / 4) == initWorld s who else true
  | .evtSrc n => srcWorld s n == initWorld s who
  | .mbx ch e _ => mbxOwner who ch e
  | .dma c _ => dmaWorld s c == initWorld s who && (initCore who).isSome
  | .sc k _ => initCore who == some (64 + k)
  | _ => true

/-- R538: an initiator may write a register, by its World line. -/
def worldAllows (s : State) (who : Initiator) (id : RegId) : Bool :=
  match worldCode id with
  | .s => initWorld s who == .safety
  | .v => initWorld s who == .service
  | .both => true
  | .owner => ownsReg s who id
  | .monitor => who == .monitor
  | .scSOnly => who == .scS
  | .scVOnly => who == .scV
  | .scEither => who == .scS || who == .scV
  | .coresOnly => (initCore who).isSome

/-! ### Writes that a rule ignores while BUSY or PEND is 1 (R541) -/

/-- R541: the indication of a pin's group: its own reconfiguration, or that of its pair. -/
def pinGroupBusy (s : State) (n : Nat) : Bool :=
  let m := if n % 2 = 0 then n + 1 else n - 1
  (s.pin n).recBusy || ((s.pin m).recBusy && (s.pin m).recPair)

/-- A commit write of PIN_RECFG also meets the partner's indication when it names the pair. -/
def recfgBusy (s : State) (n : Nat) (v : Word) : Bool :=
  pinGroupBusy s n || (bitOf v 1 && pinGroupBusy s (n + 1))

/-- R541 and the rules it lists. -/
def busyIgnores (s : State) (id : RegId) (v : Word) : Bool :=
  match id with
  | .levee o => (s.levee.busy && (decide (o < 0x2400) || o == 0x2404)) || (o == 0x2424 && s.levee.revBusy)
  | .weir o => s.weir.pend && (o == 0x4000 || o == 0x4004 || o == 0x4008 || decide (0x4100 ≤ o))
  | .pin n o => if o = 0x28 then recfgBusy s n v else (decide (o ≤ 0x10) || o == 0x20) && pinGroupBusy s n
  | .bank b o => (s.bank b).scanBusy && (o == 4 || (o == 8 && bitOf v 0))
  | .glob o => o == 0x324 && s.mig.busy
  | .boot o => (o == 0x1020 && s.boot.updBusy != 0) || (o == 0x1064 && s.fuses.busy)
  | .silt o => decide (0x60 ≤ o) && decide (o ≤ 0x74) && s.silt.copy.busy && (o != 0x74 || bitOf v 0)
  | _ => false

/-! ### Other rules -/

/-- R139: a software-set source that DBELL_ARM arms. -/
def sourceArmed (s : State) (src : Nat) : Bool :=
  decide (Config.softSrcLo ≤ src) && bitOf (s.reg (Reg.dbellArm ((src - Config.softSrcLo) / 32))) ((src - Config.softSrcLo) % 32)

/-- R413: EVT_SET may raise the source. -/
def maySet (s : State) (w : World) (src : Nat) : Bool :=
  decide (Config.softSrcLo ≤ src) && decide (src < 2048) && srcWorld s src == w

/-- R111, R112: a supervisor core's doorbell passes its checks; a routine's is checked at its commit request (R564). -/
def coreBellOk (s : State) (who : Initiator) (num : Nat) (isRing : Bool) : Bool :=
  let d := if isRing then (s.ring num).desc else (s.sq num).desc
  let st := if isRing then (s.ring num).st else (s.sq num).st
  st == .enabled && d.world == initWorld s who

/-- R95: the world of a queue or ring, from its cached descriptor or, before it is enabled, from its table entry. -/
def queueWorldOf (s : State) (num : Nat) (isRing : Bool) : World :=
  let st := if isRing then (s.ring num).st else (s.sq num).st
  if st = .disabled then
    let base := s.reg (if isRing then Reg.dbellCqdBase else Reg.dbellSqdBase)
    if bitOf (peekWord s (Config.basinBase + fld base 23 16 * 0x10000 + 64 * num + 8)) 29 then .service else .safety
  else if isRing then (s.ring num).desc.world else (s.sq num).desc.world

/-- R129: a reach holds a subchannel of the safety world. -/
def reachHasSafety (s : State) (r : Nat) : Bool :=
  s.subs.any fun x => x.2.attr.valid && x.2.attr.reach == r && x.2.attr.world == .safety

/-- Refusals of the rules that field tables name: R129, R287, R403, R413, R429, and QCMD's own. -/
def ruleRefuses (s : State) (who : Initiator) (id : RegId) (v : Word) : Bool :=
  match id with
  | .evt o => o == 0x8008 && !maySet s (initWorld s who) (fld v 10 0)
  | .mbx ch e o => o == 0 && (!s.ready || decide (8 ≤ (s.mb ch !e).inq.length))
  | .silt o => (o == 0x30 || o == 0x40) && bitOf v 31 && fld v 9 8 == 1 && (initCore who).isNone
  | .levee o => o == 0x2424 && who == .scS && !mayRevoke s 64
  | .dbell o =>
    if o = 0x30 then bitOf v 31 && who == .scV && reachHasSafety s (fld v 20 16)
    else if o = 0x14 ∨ o = 0x54 then
      let sel := s.reg (0xC0000 + (o - 4))
      fld v 1 0 != 0 && queueWorldOf s (fld sel 9 0) (bitOf sel 16) != initWorld s who
    else if o = 0x100 ∨ o = 0x104 then
      (match who with
      | .te _ => false
      | _ => !coreBellOk s who (fld v 9 0) (o == 0x104))
    else false
  | _ => false

/-- R539, R541: a register write is refused. -/
def regRefuses (s : State) (who : Initiator) (off : Nat) (v : Word) : Bool :=
  let id := regAt off
  !worldAllows s who id || busyIgnores s id v || ruleRefuses s who id v

/-- What a refusal counts at the unit itself: EVT_REFUSE of a host write (R413), REJECT of a mailbox end (R429). -/
def refuseCount (s : State) (who : Initiator) (off : Nat) (v : Word) : State :=
  match regAt off, who with
  | .evt 0x8008, .pf _ => s.modEv fun e => { e with refuse := satInc 0xFFFFFFFF e.refuse }
  | .mbx ch e 0, _ => if mbxOwner who ch e then (mbxTx s ch e v).1 else s
  | _, _ => s

end Sys2Proof.Machine
end

