-- ==== Sys2Proof/Machine/Memory.lean ====
section
/-! DEFINITION. Checked accesses to memory: the Levee (chapter "Worlds, levels and capabilities"), uncorrectable errors
(chapter "Weir arbiter and memory system"), host memory, and the register space as an address range. -/

namespace Sys2Proof.Machine

/-- What an access meets instead of its data (R26, R80, R81, R390, R449, R455, R459). -/
inductive MemErr where
  /-- unmapped, or outside the space -/
  | unmapped
  /-- refused by the Levee or by a register's World line -/
  | refused
  /-- the host answers Unsupported Request or Completer Abort, or no function may issue the request -/
  | urca
  /-- the handshake watchdog ended it -/
  | watchdog
  /-- uncorrectable, or a poisoned completion -/
  | uncorrectable
  deriving DecidableEq, Repr

/-- The kinds of access that the Levee checks. -/
inductive Acc where
  | read | write | fetch
  deriving DecidableEq, Repr

/-! ### The Levee (R386 to R390) -/

/-- The columns of a world: user, supervisor, every initiator that is no core. -/
inductive Col where
  | u | p | e
  deriving DecidableEq, Repr

def colNum : Col → Nat
  | .u => 0
  | .p => 1
  | .e => 2

/-- The bit of a column's right in LEVEE_RGN_ATTR. -/
def rightBit (w : World) (c : Col) (write : Bool) : Nat := 1 + 6 * worldBit w + 2 * colNum c + b2n write

/-- One region entry: first page, last page, attributes. -/
abbrev Rgn := Nat × Nat × Word

/-- The table in effect. -/
def rgnNow (s : State) (i : Nat) : Rgn :=
  (fld (s.reg (Reg.rgnBase i)) 23 0, fld (s.reg (Reg.rgnLimit i)) 23 0, s.reg (Reg.rgnAttr i))

/-- R391: the table in effect for a core's own Loam: the old copy while BUSY is 1. -/
def rgnOwn (s : State) (i : Nat) : Rgn :=
  if s.levee.busy then
    let e := nth (0, 0, 0) s.levee.old i
    (fld e.1 23 0, fld e.2.1 23 0, e.2.2)
  else rgnNow s i

/-- R387: the lowest-numbered valid entry that covers a page. -/
def deciding (t : Nat → Rgn) (page : Nat) : Option (Nat × Word) :=
  ((List.range 64).find? fun i =>
    let r := t i
    bitOf r.2.2 0 && decide (r.1 ≤ page) && decide (page ≤ r.2.1)).map fun i => (i, (t i).2.2)

/-- R386: an entry's attributes grant an access; a fetch needs the read right (R390). -/
def grants (attr : Word) (w : World) (c : Col) (k : Acc) : Bool := bitOf attr (rightBit w c (k == .write))

/-- LEVEE_LOG.INIT and UNIT of an initiator. -/
def logUnit (s : State) : Initiator → Nat × Nat
  | .te n => (1, n.val)
  | .scS => (1, 62)
  | .scV => (1, 63)
  | .monitor => (1, 63)
  | .seq n => (2, (s.sub n.val).attr.owner)
  | .mover n => (3, (s.sub n.val).attr.owner)
  | .dma c => (4, c.val)
  | .queue _ => (5, 0)
  | .commit _ => (6, 0)
  | _ => (0, 0)

def accNum : Acc → Nat
  | .read => 0
  | .write => 1
  | .fetch => 2

/-- R390: a refusal counts; the first with no valid record is recorded and raises source 1,224. -/
def leveeRefuse (s : State) (who : Initiator) (w : World) (k : Acc) (a : Nat) (entry : Option Nat) : State :=
  let s := s.modLevee fun l => { l with refuseCnt := BitVec.ofNat 32 (satInc 0xFFFFFFFF l.refuseCnt.toNat) }
  if bitOf s.levee.log 31 then s
  else
    let u := logUnit s who
    raiseEvent (s.modLevee fun l => { l with
      log := pack [(0, 4, u.1), (4, 6, u.2), (10, 1, worldBit w), (11, 2, accNum k), (13, 6, entry.getD 0),
        (19, 1, b2n entry.isNone), (31, 1, 1)]
      logAddr := a }) Config.srcLevee

/-- R388: the check of one page; true when it is granted. -/
def leveeCheck (s : State) (who : Initiator) (w : World) (c : Col) (k : Acc) (t : Nat → Rgn) (a : Nat) : State × Bool :=
  match deciding t (a / 4096) with
  | none => (leveeRefuse s who w k a none, false)
  | some (i, attr) => if grants attr w c k then (s, true) else (leveeRefuse s who w k a (some i), false)

/-! ### Uncorrectable errors (R449) -/

/-- R302: the channel's block is with the Sift unit. -/
def siftTurn (x : DmaCh) : Bool :=
  !x.moved && (match x.desc with
    | some d => fld (nth 0 d 1) 7 4 == 5 || fld (nth 0 d 1) 7 4 == 6
    | none => false)

/-- R436: the Weir requester of an initiator. -/
def weirReqOf (s : State) : Initiator → Nat
  | .te n => n.val
  | .scS => 64
  | .scV => 65
  | .monitor => 65
  | .pf _ => 66
  | .seq n => (s.sub n.val).attr.owner
  | .mover n => (s.sub n.val).attr.owner
  | .dma c => if siftTurn (s.dch c.val) then 74 else 71
  | _ => 75

/-- The first unit in error that [a, a + len) touches. -/
def ueHit (s : State) (a len : Nat) : Option Nat := s.ue.find? fun g => decide (g < a + len) && decide (a < g + errUnit s g)

/-- The first unit in error that [a, a + len) touches and does not cover in full. -/
def uePart (s : State) (a len : Nat) : Option Nat :=
  s.ue.find? fun g => decide (g < a + len) && decide (a < g + errUnit s g) &&
    !(decide (a ≤ g) && decide (g + errUnit s g ≤ a + len))

/-- R449: an uncorrectable error is counted, logged while no record is held, and raises source 1,228. -/
def noteUeBy (s : State) (req : Nat) (scrub : Bool) (g : Nat) : State :=
  let dram := placeOf s g == .dram
  raiseEvent (s.modMemErrs fun e =>
    let e := { e with ueCount := satInc 255 e.ueCount }
    if e.ueValid then e
    else { e with ueValid := true, ueTarget := b2n dram, ueScrub := scrub, ueReq := req, ueAddr := g }) Config.srcMemory

/-- R449: an initiator's access meets an uncorrectable error. -/
def noteUe (s : State) (who : Initiator) (g : Nat) : State := noteUeBy s (weirReqOf s who) false g

/-! ### Device physical space, page by page -/

/-- [a, a + len) cut at 4 KiB pages. -/
def pageCuts : Nat → Nat → Nat → List (Nat × Nat)
  | 0, _, _ => []
  | fuel + 1, a, len =>
    if len = 0 then []
    else
      let k := Nat.min len (4096 - a % 4096)
      (a, k) :: pageCuts fuel (a + k) (len - k)

/-- The pieces of an access. -/
def pieces (a len : Nat) : List (Nat × Nat) := pageCuts (len / 4096 + 2) a len

/-- R389: the device's own structures are not checked. -/
def unchecked (who : Initiator) : Bool := who == .device

/-- Words of the register space read in ascending order (R537). -/
def regReads (s : State) (who : Initiator) (off n : Nat) : State × Except MemErr (List Byte) :=
  foldN n (fun (r : State × Except MemErr (List Byte)) i =>
    match r with
    | (s, .error e) => (s, .error e)
    | (s, .ok bs) =>
      let o := off + 4 * i
      if readRefused s who (regAt o) then (s, .error .refused)
      else
        let (s, v) := readReg s who o
        (s, .ok (bs ++ toBytes 4 v.toNat))) (s, .ok [])

/-- Words written to the register space: each is checked and goes on its way (R537, R539). -/
def regWrites (s : State) (who : Initiator) (off : Nat) (bs : List Byte) : State × Nat × Option MemErr :=
  foldN (bs.length / 4) (fun (r : State × Nat × Option MemErr) i =>
    match r with
    | (s, k, some e) => (s, k, some e)
    | (s, k, none) =>
      let o := off + 4 * i
      let v := wordAt bs i
      if regRefuses s who o v then (refuseCount s who o v, k, some .refused)
      else ({ s with posted := s.posted ++ [(who, o, v)] }, k + 4, none)) (s, 0, none)

/-- A read of bytes within one page. -/
def readPiece (s : State) (who : Initiator) (a len : Nat) : State × Except MemErr (List Byte) :=
  match placeOf s a with
  | .nowhere => (s, .error .unmapped)
  | .regs => regReads s who (a - Config.regBase) (len / 4)
  | _ =>
    let (s, ok) := if unchecked who then (s, true) else leveeCheck s who (initWorld s who) .e .read (rgnNow s) a
    if !ok then (s, .error .refused)
    else match ueHit s a len with
      | some g => (noteUe s who g, .error .uncorrectable)
      | none => (s, .ok (peekMem s a len))

/-- A write of bytes within one page; the count of bytes written. -/
def writePiece (s : State) (who : Initiator) (a : Nat) (bs : List Byte) : State × Nat × Option MemErr :=
  match placeOf s a with
  | .nowhere => (s, 0, some .unmapped)
  | .regs => regWrites s who (a - Config.regBase) bs
  | _ =>
    let (s, ok) := if unchecked who then (s, true) else leveeCheck s who (initWorld s who) .e .write (rgnNow s) a
    if !ok then (s, 0, some .refused)
    else match uePart s a bs.length with
      | some g => (noteUe s who g, 0, some .uncorrectable)
      | none => (pokeMem s a bs, bs.length, none)

/-- R537: a transfer that touches the register space and is not made of aligned words is refused whole. -/
def regMisfit (a len : Nat) : Bool :=
  decide (a < Config.regBase + Config.regSize) && decide (Config.regBase < a + len) && (a % 4 != 0 || len % 4 != 0)

/-- A read of the device physical space: the bytes up to its first error (R388). -/
def devReadN (s : State) (who : Initiator) (a len : Nat) : State × List Byte × Option MemErr :=
  if decide (2 ^ 36 ≤ a) || regMisfit a len then (s, [], some .unmapped)
  else (pieces a len).foldl (fun (r : State × List Byte × Option MemErr) p =>
    match r with
    | (s, bs, some e) => (s, bs, some e)
    | (s, bs, none) =>
      match readPiece s who p.1 p.2 with
      | (s, .error e) => (s, bs, some e)
      | (s, .ok more) => (s, bs ++ more, none)) (s, [], none)

/-- A read that succeeds whole or answers its first error. -/
def wholeRead (r : State × List Byte × Option MemErr) : State × Except MemErr (List Byte) :=
  match r with
  | (s, _, some e) => (s, .error e)
  | (s, bs, none) => (s, .ok bs)

/-- A read of the device physical space. -/
def devRead (s : State) (who : Initiator) (a len : Nat) : State × Except MemErr (List Byte) := wholeRead (devReadN s who a len)

/-- A write of the device physical space, performed up to its first error (R388); the count of bytes written. -/
def devWrite (s : State) (who : Initiator) (a : Nat) (bs : List Byte) : State × Nat × Option MemErr :=
  if decide (2 ^ 36 ≤ a) || regMisfit a bs.length then (s, 0, some .unmapped)
  else (pieces a bs.length).foldl (fun (r : State × Nat × Option MemErr) p =>
    match r with
    | (s, k, some e) => (s, k, some e)
    | (s, k, none) =>
      match writePiece s who p.1 ((bs.drop (p.1 - a)).take p.2) with
      | (s, j, e) => (s, k + j, e)) (s, 0, none)

/-! ### Host memory (R455, R459, R469) -/

/-- The function that an access of a world uses (R455). -/
def worldFn (w : World) : Nat := worldBit w

/-- What stands in the way of a host access. -/
def hostErr (s : State) (w : World) : Option MemErr :=
  if !bitOf (s.reg Reg.devHostCfg) 0 then some .unmapped
  else if !mayIssue s (worldFn w) then some .urca
  else none

/-! ### The two spaces -/

/-- A read of ASEL 0 (host) or 1 (device physical): the bytes up to its first error. -/
def memReadN (s : State) (who : Initiator) (a : Addr) (len : Nat) : State × List Byte × Option MemErr :=
  if a.asel = 0 then
    match hostErr s (initWorld s who) with
    | some e => (s, [], some e)
    | none => (s, peekHost s a.addr len, none)
  else if a.asel = 1 then devReadN s who a.addr len
  else (s, [], some .unmapped)

/-- A read of ASEL 0 or 1. -/
def memRead (s : State) (who : Initiator) (a : Addr) (len : Nat) : State × Except MemErr (List Byte) :=
  wholeRead (memReadN s who a len)

/-- A write of ASEL 0 or 1, and the count of bytes written. -/
def memWriteN (s : State) (who : Initiator) (a : Addr) (bs : List Byte) : State × Nat × Option MemErr :=
  if a.asel = 0 then
    match hostErr s (initWorld s who) with
    | some e => (s, 0, some e)
    | none => (pokeHost s a.addr bs, bs.length, none)
  else if a.asel = 1 then devWrite s who a.addr bs
  else (s, 0, some .unmapped)

/-- A write of ASEL 0 or 1. -/
def memWrite (s : State) (who : Initiator) (a : Addr) (bs : List Byte) : State × Option MemErr :=
  let r := memWriteN s who a bs
  (r.1, r.2.2)

/-- R260: bytes that a command's own transfers wrote before its commit point are remembered. -/
def noteDirect (s : State) (n : Nat) (a : Addr) (len : Nat) : State :=
  if a.asel = 1 ∧ len ≠ 0 ∧ a.addr < Config.regBase then
    s.modSub n fun b => { b with prog := { b.prog with direct := b.prog.direct ++ [(a.addr, len)] } }
  else s

end Sys2Proof.Machine
end

