-- ==== Sys2Proof/Machine/Tables.lean ====
section
/-! DEFINITION. Device structures in Basin that several units read: the dispatch tables (R147), the archive rings' descriptors
(R279); and what a program leaves behind in other units when it ends. -/

namespace Sys2Proof.Machine

/-! ### Dispatch tables (R147 to R150, R168) -/

/-- R147: where the slot of a class and code lies. -/
def dispSlot (s : State) (cls code : Nat) : Nat :=
  Config.basinBase + fld (s.reg Reg.devTeBase) 12 8 * 0x80000 + cls * 0x2000 + code * 32

/-- R147: the version of a class. -/
def classVer (s : State) (cls : Nat) : Nat := fld (peekWord s (dispSlot s cls 0 + 8)) 3 0

/-- R147: the code that the last update of a class changed. -/
def lastCode (s : State) (cls : Nat) : Nat := fld (peekWord s (dispSlot s cls 0 + 8)) 15 8

/-- R147: TE t may run a class. -/
def inTeMask (s : State) (cls t : Nat) : Bool := bitOf (peekWord s (dispSlot s cls 0 + 4 * (t / 32))) (t % 32)

/-- DEV_TE_SPARE names TE t. -/
def isSpare (s : State) (t : Nat) : Bool := bitOf (s.reg (0x310 + 4 * (t / 32))) (t % 32)

/-- R168: the entry of a code in Basin, CUR or PREV by the segment's version. -/
def tableEntry (s : State) (n code : Nat) : List Word :=
  let b := s.sub n
  let cls := b.attr.cls
  let a := dispSlot s cls code
  let a := if b.prog.dver = classVer s cls ∨ code ≠ lastCode s cls then a else a + 16
  (List.range 4).map fun i => peekWord s (a + 4 * i)

/-- R149: a line of the dispatch cache answers a class, code and version. -/
def cacheHit (b : Sub) (code : Nat) (d : DCache) : Bool := d.cls == b.attr.cls && d.code == code && d.ver == b.prog.dver

/-- R149, R150: the entry that the owning TE finds for a code: its cached one, else the one in Basin. -/
def lookupEntry (s : State) (n code : Nat) : List Word :=
  let b := s.sub n
  match (s.te b.attr.owner).dcache.find? (cacheHit b code) with
  | some d => d.entry
  | none => tableEntry s n code

/-- R147: the entry names a routine. -/
def entryValid (e : List Word) : Bool := bitOf (nth 0 e 0) 16
def entryStageIn (e : List Word) : Bool := bitOf (nth 0 e 0) 17
def entryStageOut (e : List Word) : Bool := bitOf (nth 0 e 0) 18

/-! ### Archive rings (R279, R281) -/

/-- R279: where the descriptor of a ring lies. -/
def arRingAddr (s : State) (r : Nat) : Nat := Config.basinBase + fld (s.reg Reg.siltRingBase) 23 14 * 0x4000 + 64 * r
/-- A word of a ring's descriptor. -/
def arW (s : State) (r i : Nat) : Word := peekWord s (arRingAddr s r + 4 * i)
/-- The device writes a word of a ring's descriptor. -/
def setArW (s : State) (r i v : Nat) : State := pokeMem s (arRingAddr s r + 4 * i) (toBytes 4 v)
def arValid (s : State) (r : Nat) : Bool := bitOf (arW s r 1) 16
def arOverwrite (s : State) (r : Nat) : Bool := bitOf (arW s r 1) 17
def arWorld (s : State) (r : Nat) : World := if bitOf (arW s r 1) 18 then .service else .safety
def arShare (s : State) (r : Nat) : Bool := bitOf (arW s r 1) 19
/-- W15.STATE: 0 DISABLED, 1 RECOVERING, 2 ONLINE, 3 OFFLINE. -/
def arState (s : State) (r : Nat) : Nat := fld (arW s r 15) 2 0

/-- R281: the ring rules of ARCHIVE and SAMPLE. -/
def ringFault (s : State) (n r : Nat) : Option Ending :=
  if !arValid s r then some { cstat := 0x4#32, detail := 0x0108 }
  else if arWorld s r ≠ (s.sub n).attr.world then some { cstat := 0x8#32, detail := 0x0401 }
  else if arState s r = 0 then some { cstat := 0x4#32, detail := 0x0108 }
  else none

/-! ### What a program leaves in other units -/

/-- The exchange serves subchannel n. -/
def exServes (n : Nat) (e : Exchange) : Bool :=
  match e.kind with
  | .sub m => m == n
  | _ => false

/-- R285, R319: a program that ends leaves its uncommitted record dead, its waiting requests withdrawn, and an exchange
already sent without further attempts. -/
def dropWork (s : State) (n : Nat) : State :=
  let mine (c : NvCmd) : Bool := match c.use with
    | .fetch m _ => m == n
    | _ => false
  let s := s.modSilt fun x => { x with
    recs := x.recs.map fun r => if r.sub = n ∧ !r.mark then { r with dead := true } else r
    nv := (x.nv.filter fun c => !(mine c && c.done)).map fun c => if mine c then { c with dead := true } else c }
  { s with bks := s.bks.map fun x => (x.1, { x.2 with
      waiting := x.2.waiting.filter (!exServes n ·),
      cur := x.2.cur.map fun e => if exServes n e then { e with dead := true } else e }) }

end Sys2Proof.Machine
end

