-- ==== Sys2Proof/Machine/Status.lean ====
section
/-! DEFINITION. Channel status words, completion rings, queue errors, program endings and generations
(chapters "Channel programs" and "Queues, doorbells and reaches"). -/

namespace Sys2Proof.Machine

/-- R91: channel status flags. -/
def csPci : Word := 0x1#32
def csLength : Word := 0x2#32
def csProgram : Word := 0x4#32
def csProtect : Word := 0x8#32
def csData : Word := 0x10#32
def csControl : Word := 0x20#32
def csInterface : Word := 0x40#32
def csChaining : Word := 0x80#32
def csVoteFault : Word := 0x100#32
def csVoteTimeout : Word := 0x200#32
def csRecovered : Word := 0x400#32
def csBudget : Word := 0x800#32
def csRunaway : Word := 0x1000#32
def csArchiveFull : Word := 0x2000#32
def csCalStale : Word := 0x4000#32
def csDeadlock : Word := 0x8000#32
def csFenced : Word := 0x10000#32

/-- R90: device status bits. -/
def dsUnitException : Nat := 0x01
def dsUnitCheck : Nat := 0x02
def dsDeviceEnd : Nat := 0x04
def dsChannelEnd : Nat := 0x08
def dsBusy : Nat := 0x10
def dsControlUnitEnd : Nat := 0x20
def dsModifier : Nat := 0x40
def dsAttention : Nat := 0x80

/-- A program check with its detail (R92). -/
def progCheck (d : Nat) : Ending := { cstat := csProgram, detail := d }
/-- A protection check with its detail. -/
def protCheck (d : Nat) : Ending := { cstat := csProtect, detail := d }
/-- A control check with its detail. -/
def ctrlCheck (d : Nat) : Ending := { cstat := csControl, detail := d }
/-- A unit check with its detail. -/
def unitCheck (d : Nat) : Ending := { dstat := dsUnitCheck, detail := d }

/-- R81: the ending that a failed memory access gives a program. -/
def memEnding : MemErr → Ending
  | .unmapped => progCheck 0x0102
  | .refused => protCheck 0x0401
  | .urca => ctrlCheck 0x0505
  | .watchdog => ctrlCheck 0x0506
  | .uncorrectable => { cstat := csData, detail := 0x0601 }

/-- R103: the address a CSW reports for a CCW. -/
def posAddr (o : Op) : CcwPos → Addr
  | .mem a => a
  | .inl i => { o.slot with addr := o.slot.addr + 32 + 16 * i }

/-- R89: the eight words of a CSW. -/
def cswWords (c : Csw) : List Word :=
  [ pack [(0, 12, c.sub), (12, 5, c.reach), (17, 4, c.gen), (21, 1, worldBit c.world), (24, 8, c.kind)],
    pack [(0, 16, c.tag), (16, 8, c.dstat), (24, 8, c.op)],
    c.cstat,
    pack [(0, 16, Nat.min c.resid 0xFFFF), (16, 16, c.detail)],
    BitVec.ofNat 32 c.ccwa.addr,
    pack [(0, 16, c.ccwa.addr / 2 ^ 32), (16, 4, c.ccwa.asel)],
    BitVec.ofNat 32 c.time.toNat,
    BitVec.ofNat 32 (c.time.toNat / 2 ^ 32) ]

/-- R89: a CSW of subchannel n at this moment. -/
def mkCsw (s : State) (n kind tag op : Nat) (cstat : Word) (dstat detail resid : Nat) (ccwa : Addr) : Csw :=
  let b := s.sub n
  { sub := n, reach := b.attr.reach, gen := b.gen.toNat, world := b.attr.world, kind := kind, tag := tag,
    dstat := dstat, op := op, cstat := cstat, resid := resid, detail := detail, ccwa := ccwa, time := s.now }

/-- R105: a ring is full when (tail + 1) mod S equals head. -/
def ringFull (r : Ring) : Bool := (r.tail + 1) % 2 ^ r.desc.log2 == r.head

/-- R127: DBELL_ERR_LOG takes the first error while it holds no valid record. -/
def logQueueError (s : State) (num : Nat) (isRing : Bool) (code idx : Nat) : State :=
  if bitOf s.q.errLog 11 then s
  else s.modQ fun q => { q with
    errLog := pack [(0, 10, num), (10, 1, b2n isRing), (11, 1, 1), (12, 4, code), (16, 16, idx)] }

/-- R126, R127: a completion ring enters ERROR. -/
def ringError (s : State) (k code : Nat) : State :=
  let s := s.modRing k fun r => { r with st := .error, err := code, reading := false, again := false }
  let s := logQueueError s k true code (s.ring k).tail
  raiseEvent s Config.srcQueueEngine

/-- R126, R127: a submission queue enters ERROR; EVSRC is raised when EVEN is 1. -/
def queueFails (s : State) (k code idx : Nat) : State :=
  let s := s.modSq k fun q => { q with st := .error, err := code, reading := false, again := false, issued := [] }
  let s := logQueueError s k false code idx
  let s := if (s.sq k).desc.evEn then raiseEvent s (s.sq k).desc.evsrc else s
  raiseEvent s Config.srcQueueEngine

/-- HEAD_INDEX_WRITE (R110). -/
def headWrite (s : State) (q : Nat) : State :=
  let s := s.modSq q fun x => { x with headDue := false }
  let x := s.sq q
  match memWrite s (.queue x.desc.world) x.desc.headA (toBytes 4 x.head) with
  | (s, none) => if x.desc.headEv then raiseEvent s x.desc.evsrc else s
  | (s, some _) => if x.st = .enabled then queueFails s q 0x6 x.head else s

/-- R110: a visit that is cut short after it has copied an entry writes its head index. -/
def cutVisit (s : State) (q : Nat) : State := if (s.sq q).headDue then headWrite s q else s

/-- R126, R110: a submission queue enters ERROR, which cuts its visit short. -/
def queueError (s : State) (k code idx : Nat) : State := cutVisit (queueFails s k code idx) k

/-- R117: one CSW entry is written at the ring's tail; false when the write failed (the ring is then in ERROR). -/
def writeCsw (s : State) (k : Nat) (c : Csw) : State × Bool :=
  let r := s.ring k
  let at_ : Addr := { r.desc.base with addr := r.desc.base.addr + 32 * r.tail }
  match memWrite s (.commit r.desc.world) at_ (wordsBytes (cswWords c)) with
  | (s, none) =>
    (s.modRing k fun r => { r with
      tail := (r.tail + 1) % 2 ^ r.desc.log2, unsig := r.unsig ++ [s.now], uncov := r.uncov + 1 }, true)
  | (s, some _) => (ringError s k 0x6, false)

/-- R120: a CSW of subchannel n for ring k finds the ring full or in ERROR, or behind one that waits for it. -/
def mustHold (s : State) (n k : Nat) : Bool :=
  match (s.ring k).st with
  | .disabled => false
  | .enabled => ringFull (s.ring k) || (s.sub n).held.any (·.ring == k) || (s.sub n).toCreate.any (·.ring == k)
  | .error | .fenced => true

/-- R120: it would be the third that the subchannel holds. -/
def noRoom (s : State) (n k : Nat) : Bool := mustHold s n k && decide (2 ≤ (s.sub n).held.length)

/-- R120, R121: a CSW that waited for a slot is created now; that of a program carries its commit point's time (R89). -/
def createCsw (s : State) (n : Nat) : State :=
  match (s.sub n).toCreate with
  | [] => s
  | c :: cs =>
    let stamp := s.q.stamp
    let s := s.modQ fun q => { q with stamp := stamp + 1 }
    let time := if c.csw.op = 1 ∨ c.csw.op = 2 then c.csw.time else s.now
    s.modSub n fun b => { b with
      held := b.held ++ [{ c with stamp := stamp, csw := { c.csw with time := time } }], toCreate := cs,
      clearWin := b.clearWin && (c.csw.op != 4 || cs.any (·.csw.op == 4)) }

/-- R120: a CSW becomes a held CSW of its subchannel; beyond two it is not created yet. -/
def holdCsw (s : State) (n k : Nat) (c : Csw) : State :=
  let stamp := s.q.stamp
  let s := s.modQ fun q => { q with stamp := stamp + 1 }
  s.modSub n fun b =>
    if b.held.length < 2 ∧ b.toCreate = [] then { b with held := b.held ++ [⟨k, c, stamp⟩] }
    else { b with toCreate := b.toCreate ++ [⟨k, c, stamp⟩] }

/-- R128: a CSW for a DISABLED ring is discarded and counted. -/
def dropCsw (s : State) (k : Nat) (count : Nat) : State :=
  if count = 0 then s else
  let first := (s.ring k).dropped == 0
  let s := s.modRing k fun r => { r with dropped := satAdd 255 r.dropped count }
  if first then raiseEvent s Config.srcQueueEngine else s

/-- R117, R120, R128 (CSW_POST): a CSW of subchannel n is written to its ring, or held, or discarded. -/
def postCsw (s : State) (n k : Nat) (c : Csw) : State :=
  if (s.ring k).st = .disabled then dropCsw s k 1
  else if mustHold s n k then holdCsw s n k c
  else
    match writeCsw s k c with
    | (s, true) => s
    | (s, false) => holdCsw s n k c

/-- R116: the ring that answers operations of a submission queue. -/
def ringOfQueue (s : State) (q : Nat) : Nat := (s.sq q).desc.cq

/-- R116: the default ring of a reach for a world (DBELL_DEFCQ). -/
def defaultRing (s : State) (r : Nat) (w : World) : Nat :=
  let d := s.reg (Reg.dbellDefcq r)
  match w with
  | .safety => fld d 9 0
  | .service => fld d 25 16

/-- R116: the ring for unsolicited CSWs of a subchannel. -/
def unsolRing (s : State) (n : Nat) : Nat :=
  let b := s.sub n
  match b.lastQ with
  | some q => ringOfQueue s q
  | none => defaultRing s b.attr.reach b.attr.world

/-- R133: the reset in progress counts every ending CSW and rejection it produced. -/
def countProduced (s : State) (n : Nat) : State :=
  let r := (s.sub n).attr.reach
  if (s.reach r).reqs = [] then s
  else s.modReach r fun x => { x with produced := x.produced + 1 }

/-- R83: one CSW of kind final answers an operation under its own tag. -/
def answer (s : State) (n : Nat) (r : OpRef) (cstat : Word) (dstat detail : Nat) : State :=
  postCsw s n (ringOfQueue s r.queue) (mkCsw s n 0x01 r.tag r.op cstat dstat detail 0 {})

/-- R83: an operation rejected with busy. -/
def rejectBusy (s : State) (n : Nat) (r : OpRef) : State := answer s n r 0 dsBusy 0

/-- R83: an operation that has nothing to act on. -/
def rejectState (s : State) (n : Nat) (r : OpRef) : State := answer s n r csProgram 0 0x0701

/-- R86: an operation on a FENCED subchannel. -/
def rejectFenced (s : State) (n : Nat) (r : OpRef) : State :=
  countProduced (answer s n r csFenced 0 0x0C04) n

/-- R165: an operation on a subchannel no TE can take. -/
def rejectRetired (s : State) (n : Nat) (r : OpRef) : State := answer s n r csControl 0 0x0507

/-- R88: an error ending carries unit check, unit exception, or a channel flag other than PCI and recovered. -/
def isErrorEnding (cstat : Word) (dstat : Nat) : Bool :=
  dstat % 4 != 0 || (cstat &&& ~~~(csPci ||| csRecovered)) != 0

/-- R142: the code of a subchannel state in the context record. -/
def subStCode : SubSt → Nat
  | .idle => 0
  | .startPending => 1
  | .active => 2
  | .suspended => 3
  | .resumePending => 4
  | .haltPending => 5
  | .statusPending => 6
  | .fenced => 7

/-- R142: words W0 to W15 of a context record. -/
def contextWords (s : State) (n : Nat) : List Word :=
  let b := s.sub n
  let p := b.prog
  let a := posAddr p.op p.pos
  [ pack [(0, 12, n), (12, 5, b.attr.reach), (17, 4, b.gen.toNat), (21, 1, worldBit b.attr.world), (24, 3, subStCode b.st)],
    pack [(0, 4, p.dver), (4, 6, b.attr.cls), (10, 6, b.attr.owner), (16, 16, p.op.tag)],
    BitVec.ofNat 32 a.addr, pack [(0, 16, a.addr / 2 ^ 32), (16, 4, a.asel)],
    pack [(0, 20, p.cnt)], pack [(0, 16, Nat.min 0xFFFF p.resid)], p.cstat, pack [(0, 10, p.op.queue)],
    lo b.wmark, hi b.wmark, lo p.wdead, hi p.wdead, lo p.op.parm, hi p.op.parm, lo p.op.deadline, hi p.op.deadline ]

/-- R142: where the context record of subchannel n lies. -/
def contextAddr (s : State) (n : Nat) : Nat := Config.basinBase + fld (s.reg Reg.devTeBase) 3 0 * 0x100000 + 256 * n

/-- R142, R143: the context is written to its slot. The sequencer's working state (W16 to W47) has no layout: free
values. W48 to W63 take the held CSWs. -/
def writeContext (s : State) (n : Nat) : State :=
  let a := contextAddr s n
  let s := pokeMem s a (wordsBytes (contextWords s n))
  let s := freeBytes s (a + 64) 128
  pokeMem s (a + 192) (padTo 0 64 (((s.sub n).held.take 2).flatMap fun h => wordsBytes (cswWords h.csw)))

/-! ### Owners (R146, R160, R164, R165) -/

/-- R162 step 3: OWNER_TE changes. -/
def setOwner (s : State) (n dest : Nat) : State := s.modSub n fun b => { b with attr := { b.attr with owner := dest } }

/-- R146: subchannels with STICKY = 1 that name a TE. -/
def stickyOf (s : State) (te : Nat) : Nat :=
  (s.subs.filter fun x => x.2.attr.valid && x.2.attr.sticky && x.2.attr.owner == te).length

/-- R146: TE t has room for subchannel n's STICKY attribute. -/
def stickyFits (s : State) (n t : Nat) : Bool := !(s.sub n).attr.sticky || decide (stickyOf s t + 1 ≤ 12)

/-- R160: the TE of the class's TEMASK, in service (so no spare that waits), not SLOW (a halted one counts as SLOW, R521), with
the fewest resident plus pending subchannels, the lowest number first, among those that `ok` allows. -/
def bestTeBy (s : State) (n : Nat) (ok : Nat → Bool) : Option Nat :=
  let cls := (s.sub n).attr.cls
  let load (t : Nat) : Nat := (s.te t).slots.length +
    (s.subs.filter fun x => x.2.attr.owner == t && (x.2.st == .startPending || x.2.st == .resumePending)).length
  let good (t : Nat) : Bool :=
    inTeMask s cls t && (s.te t).st == .inService && !(s.dbg t).halted && ok t
  (List.range 64).foldl (fun (best : Option Nat) t =>
    if good t then
      match best with
      | none => some t
      | some u => if load t < load u then some t else best
    else best) none

/-- R160 at a START. -/
def bestTe (s : State) (n : Nat) : Option Nat := bestTeBy s n fun _ => true

/-- R165: where a subchannel of a retiring TE goes: the spare that replaces it once it is loaded, or the TE of R160. -/
def retireDest (s : State) (n : Nat) : Option Nat :=
  match (s.te (s.sub n).attr.owner).spareFor with
  | some sp => if (s.te sp).st == .inService then some sp else none
  | none => bestTeBy s n (stickyFits s n)

/-- R165: subchannels of a TE that are not resident change owner, where one is found. -/
def scatter (s : State) (te : Nat) : State :=
  s.subs.foldl (fun s x =>
    if x.2.attr.valid && x.2.attr.owner == te && !x.2.resident then
      match retireDest s x.1 with
      | some d => setOwner s x.1 d
      | none => s
    else s) s

/-- R160 (state table), R164: a RETIRING TE without residents is RETIRED: its clock is gated, source 1,152 + n is raised,
and the subchannels it still owns change owner. -/
def retireIfEmpty (s : State) (te : Nat) : State :=
  let t := s.te te
  if t.st = .retiring ∧ t.slots = [] ∧ t.running = none then
    let s := s.modTe te fun t => { t with st := .retired }
    let s := s.modIsland te fun i => { i with clk := 0 }
    scatter (raiseEvent s (Config.srcTeFault + te)) te
  else s

/-- R143: the resident context of subchannel n is released to Basin. -/
def freeSlot (s : State) (n : Nat) : State :=
  let b := s.sub n
  if b.resident then
    let s := s.modSub n fun b => { b with resident := false }
    let s := s.modTe b.attr.owner fun t => { t with slots := t.slots.filter (· != n) }
    retireIfEmpty (writeContext s n) b.attr.owner
  else s

/-- R523: a halted routine of subchannel n is abandoned: the halt ends with ABANDONED = 1. -/
def endHalt (s : State) (n : Nat) : State :=
  let o := (s.sub n).attr.owner
  if (s.te o).running = some n ∧ (s.dbg o).halted then s.modDbg o fun d => { d with halted := false, abandoned := true }
  else s

/-- The command of subchannel n leaves the channel core and its queue; prefetched CCWs are discarded. -/
def leaveCore (s : State) (n : Nat) : State :=
  let o := (s.sub n).attr.owner
  let s := endHalt s n
  let s := s.modSub n fun b => { b with swapEnd := none, prog := { b.prog with pre := [] } }
  s.modTe o fun t =>
    let wait := t.waitq.filter (· != n)
    let again := t.rerun.filter (· != n)
    let run := if t.running = some n then none else t.running
    { t with
      waitq := wait, rerun := again, running := run, held := if t.running = some n then {} else t.held
      demandNow := t.demandNow && (wait != [] || again != [] || run.isSome) }

/-- R143: the command leaves the core and the context is released. -/
def releaseCtx (s : State) (n : Nat) : State := freeSlot (leaveCore s n) n

/-- R86, R120, R143: a subchannel without a program is IDLE, its context released, or STATUS PENDING while it holds CSWs. -/
def settle (s : State) (n : Nat) : State :=
  let b := s.sub n
  if b.held = [] ∧ b.toCreate = [] then freeSlot (s.modSub n fun b => { b with st := .idle, old := false }) n
  else s.modSub n fun b => { b with st := .statusPending }

/-- R168: OLDSEG falls by 1 when a segment under the old version ends or suspends. -/
def segmentLeaves (s : State) (n : Nat) : State := s.modSub n fun b => { b with old := false }

/-- R51: the sense record takes the last unit check or unit exception; without words of the device its DEV words are 0. -/
def setSense (s : State) (n dstat detail : Nat) (dev : List Word) : State :=
  if dstat % 4 = 0 then s
  else s.modSub n fun b => { b with
    sense := { detail := detail, cmd := fld b.prog.first.w0 31 24, time := s.now, dev := dev } }

/-- R72: PCI of the current CCW, not yet posted as an intermediate CSW. -/
def pciLeft (p : Prog) : Bool := bitOf p.cur.w0 19 && !p.pciDone

/-- R87: the CSW of a CLEAR waits to be created. -/
def clearHeld (b : Sub) : Bool := b.toCreate.any (·.csw.op == 4) || b.genDue.any fun d => d matches .clear _

/-- R125, R218: a generation increment takes place, the actuation slot number starts again, and the CSW that waits for it
is posted. -/
def takeIncrement (s : State) (n : Nat) (d : GenDue) : State :=
  let s := s.modSub n fun b => { b with gen := b.gen + 1, genAt := some s.now, aslot := 0 }
  match d with
  | .clear r =>
    let s := answer s n r 0 0 0
    let s := s.modSub n fun b => { b with clearWin := b.clearWin && clearHeld b }
    match (s.sub n).st with
    | .statusPending | .idle => settle s n
    | _ => s
  | .reset => s

/-- R125: an increment now, or when 70 µs have passed since the previous one. -/
def incGen (s : State) (n : Nat) (d : GenDue) : State :=
  let b := s.sub n
  let early := match b.genAt with
    | some t => s.now.toNat < t.toNat + Config.genGap
    | none => false
  if early || b.genDue != [] then s.modSub n fun b => { b with genDue := b.genDue ++ [d] }
  else takeIncrement s n d

/-- R83 to R87, R131: how an ending reads when a reach reset or a CLEAR stops the program: the ending itself, and the flags
and detail of the CSW of a waiting HALT. -/
def stoppedAs (b : Sub) (e : Ending) : Ending × Word × Nat :=
  if b.st = .fenced then ({ e with cstat := e.cstat ||| csFenced, detail := 0x0C04 }, csFenced, 0x0C04)
  else if b.clear ≠ [] then ({ e with detail := 0x0704 }, 0, 0x0704)
  else (e, 0, 0)

/-- R82, R86, R88, R89: a program ends: the ending CSW, built at the commit point of its last command or, before that, now;
ERR_SAFE, the release of its context, a waiting HALT's CSW, and the generations of waiting CLEARs (R85). -/
def endNow (s : State) (n kind : Nat) (e : Ending) : State :=
  let b := s.sub n
  let p := b.prog
  let began : Bool := !(p.phase == .fetch || p.phase == .runaway || p.phase == .none)
  let dst := p.dstat ||| e.dstat ||| (if b.cue then dsControlUnitEnd else 0)
  let s := setSense s n dst (if e.dstat % 4 = 0 then p.detail else e.detail) []
  let (e, haltFlags, haltDetail) := stoppedAs b e
  let cst := p.cstat ||| e.cstat ||| (if began && pciLeft p then csPci else 0)
  let s := if isErrorEnding cst dst && b.attr.errSafe then safeOwned s n else s
  let s := segmentLeaves s n
  let s := leaveCore s n
  let s := dropWork s n
  let s := postCsw s n (ringOfQueue s p.op.queue)
    { mkCsw s n kind p.op.tag p.op.code cst dst e.detail p.resid (posAddr p.op p.pos) with
      time := if p.committed then p.ctime else s.now }
  let s := countProduced s n
  let s := match b.halt with
    | some r => answer s n r haltFlags 0 haltDetail
    | none => s
  let s := s.modSub n fun b => { b with
    halt := none, clear := [], pend := none, cue := false,
    mover := if b.st = .fenced ∨ b.clear ≠ [] then b.mover else [],
    prog := { op := p.op, pos := p.pos, dver := p.dver, lastReq := none } }
  let s := if b.st = .fenced then s else settle s n
  b.clear.foldl (fun s r => incGen s n (.clear r)) s

/-- R120: a program ends, or, while its ending CSW would be the third that its subchannel holds, waits to; ERR_SAFE acts at
once. A reach reset does not wait, nor does a CLEAR, whose own CSW waits (R87). -/
def endProgram (s : State) (n kind : Nat) (e : Ending) : State :=
  let b := s.sub n
  if noRoom s n (ringOfQueue s b.prog.op.queue) ∧ b.st ≠ .fenced ∧ b.clear = [] then
    let s := if isErrorEnding (b.prog.cstat ||| e.cstat) (b.prog.dstat ||| e.dstat) && b.attr.errSafe then safeOwned s n else s
    (dropWork (leaveCore s n) n).modSub n fun b => { b with prog := { b.prog with phase := .ending, ending := some (kind, e) } }
  else endNow s n kind e

/-- R120: a program whose end waited for a slot ends. -/
def endWaiting (s : State) (n : Nat) : State :=
  let b := s.sub n
  match b.prog.ending with
  | some (kind, e) => if b.prog.phase = .ending ∧ b.toCreate = [] then endProgram s n kind e else s
  | none => s

/-- R124: a message carries its generation and creation time; the receiver drops a stale one and counts it.
`cls` is the message class of DBELL_STALE_CNT. -/
def dropStale (s : State) (n : Nat) (gen : Nat) (t : DWord) (cls : Nat) : Option State :=
  let b := s.sub n
  let byGen : Bool := gen != b.gen.toNat
  let byAge : Bool := t.toNat + Config.messageLife < s.now.toNat
  if byGen || byAge then
    some (s.modReach b.attr.reach fun r => { r with
      staleCnt := satInc 0xFFFFFF r.staleCnt, staleClass := cls, staleAge := !byGen })
  else none

/-- R124: the completion of the oldest mover transfer of subchannel n arrives: false when it is dropped. -/
def moverDone (s : State) (n : Nat) : State × Bool :=
  match (s.sub n).mover with
  | [] => (s, true)
  | g :: gs =>
    let s := s.modSub n fun b => { b with mover := gs }
    match dropStale s n g s.now 3 with
    | some s' => (s', false)
    | none => (s, true)

/-- R124: a mover transfer of subchannel n begins. -/
def moverBegins (s : State) (n : Nat) : State := s.modSub n fun b => { b with mover := b.mover ++ [b.gen.toNat] }

end Sys2Proof.Machine
end

