-- ==== Sys2Proof/Machine/Program.lean ====
section
/-! DEFINITION. The command sequencer: fetching and checking CCWs, data areas, chaining, and the commands it
executes itself (chapter "Channel programs"). -/

namespace Sys2Proof

/-! ### CCW fields (R39) -/

def Ccw.code (c : Ccw) : Nat := Machine.fld c.w0 31 24
def Ccw.count (c : Ccw) : Nat := Machine.fld c.w0 15 0
def Ccw.cd (c : Ccw) : Bool := Machine.bitOf c.w0 23
def Ccw.cc (c : Ccw) : Bool := Machine.bitOf c.w0 22
def Ccw.sli (c : Ccw) : Bool := Machine.bitOf c.w0 21
def Ccw.skp (c : Ccw) : Bool := Machine.bitOf c.w0 20
def Ccw.pci (c : Ccw) : Bool := Machine.bitOf c.w0 19
def Ccw.ida (c : Ccw) : Bool := Machine.bitOf c.w0 18
def Ccw.sus (c : Ccw) : Bool := Machine.bitOf c.w0 17
def Ccw.vot (c : Ccw) : Bool := Machine.bitOf c.w0 16
def Ccw.dataAddr (c : Ccw) : Nat := c.w1.toNat + 2 ^ 32 * Machine.fld c.w2 31 16
def Ccw.aselF (c : Ccw) : Nat := Machine.fld c.w2 15 12
def Ccw.arg (c : Ccw) : Nat := Machine.fld c.w2 11 0
def Ccw.param (c : Ccw) : Nat := Machine.fld c.w3 31 16
def Ccw.chk (c : Ccw) : Nat := Machine.fld c.w3 15 0

end Sys2Proof

namespace Sys2Proof.Machine

/-- The CCW that 16 bytes of memory spell. -/
def ccwOfBytes (bs : List Byte) : Ccw := ⟨wordAt bs 0, wordAt bs 1, wordAt bs 2, wordAt bs 3⟩

/-- R41: the check code of a CCW for a subchannel: W0 to W2 with SUS as 0, then SCHW. -/
def ccwCheck (c : Ccw) (sub : Nat) (w : World) : Nat :=
  let schw := sub % 4096 + 32768 * worldBit w
  ((wordsBytes [c.w0 &&& ~~~(0x20000#32), c.w1, c.w2] ++ toBytes 2 schw).foldl crc16Step 0xFFFF#16).toNat

/-- R42: CHK is checked for every safety-world subchannel, and for the service world when CHKEN is 1. -/
def chkFails (b : Sub) (n : Nat) (c : Ccw) : Bool :=
  (b.attr.world == .safety || b.attr.chkEn) && c.chk != ccwCheck c n b.attr.world

/-- R38: CHAIN_LIMIT, where 0 selects 65,536. -/
def chainLimit (b : Sub) : Nat := if b.attr.chainLimit = 0 then 65536 else b.attr.chainLimit

/-! ### Positions (R44, R102) -/

/-- The CCW k places after a position: inline CCWs first, then the chain address (R102). -/
def posPlus (o : Op) (p : CcwPos) (k : Nat) : CcwPos :=
  match p with
  | .mem a => .mem { a with addr := (a.addr + 16 * k) % 2 ^ 48 }
  | .inl i =>
    if i + k < o.inl.length then .inl (i + k)
    else .mem { o.chain with addr := (o.chain.addr + 16 * (i + k - o.inl.length)) % 2 ^ 48 }

/-- Where a program begins (R102). -/
def startPos (o : Op) : CcwPos := if o.inl = [] then .mem o.chain else .inl 0

/-- The target of a TIC (R66). -/
def ticTarget (c : Ccw) : Addr := { asel := c.aselF, addr := c.dataAddr }

/-- R44, R81: one CCW fetch; an error is kept with the CCW (R74). -/
def fetchCcw (s : State) (n : Nat) (p : CcwPos) : State × Fetched :=
  match p with
  | .inl i => (s, { pos := p, ccw := nth {} (s.sub n).prog.op.inl i })
  | .mem a =>
    match memRead s (seqOf n) a 16 with
    | (s, .ok bs) => (s, { pos := p, ccw := ccwOfBytes bs })
    | (s, .error e) => (s, { pos := p, err := some (memEnding e) })

/-! ### Checks before execution (R563) -/

/-- R46: the command codes that exist. -/
def knownCode (c : Nat) : Bool :=
  c == 0x01 || c == 0x02 || c == 0x03 || c == 0x04 || c == 0x08 || (0x10 ≤ c && c ≤ 0x18) || (0x20 ≤ c && c ≤ 0xEF)

/-- R67: the codes of routine commands. -/
def routineCode (c : Nat) : Bool := 0x20 ≤ c && c ≤ 0xEF

/-- R67: the field commands, which run through the dispatch table or the built-in routine. -/
def fieldCode (c : Nat) : Bool := c == 0x10 || c == 0x11 || c == 0x13

/-- R43: the commands that use their data address (TIC names the next CCW with it). The spec does not say whether a CONTROL or
a routine command without a data area (COUNT 0, no IDA) uses it: here it does not, as WAITEV, NOP and SIGNAL do not (DESIGN
CHOICE, log entry 57). -/
def usesAddress (c : Ccw) : Bool :=
  !(c.code == 0x12 || c.code == 0x16 || c.code == 0x18 || (c.code == 0x03 && c.count == 0 && !c.ida)
    || (routineCode c.code && c.count == 0 && !c.ida))

/-- R563 items 7: flags not valid for the command or its position (R54, R71, R102). -/
def flagFault (c : Ccw) (inl : Bool) : Bool :=
  c.code != 0x08 &&
  ((inl && c.sus) || (c.vot && !(c.code == 0x10 || routineCode c.code))
    || (c.skp && !(c.code == 0x02 || c.code == 0x04 || c.code == 0x13)))

/-- R563 item 8: the address-space rules of R43, R61, R66, R76. -/
def spaceFault (c : Ccw) : Bool :=
  let a := c.aselF
  let ad := c.dataAddr
  usesAddress c && c.code != 0x08 &&
  ((c.ida && (a == 2 || a == 3)) || (a == 2 && (c.code != 0x13 || (ad / 2 ^ 32) % 256 != 0))
    || (a == 3 && (!(c.code == 0x01 || c.code == 0x14) || ad / 2 ^ 16 != 0)))
  || (c.code == 0x08 && (a == 2 || a == 3))

/-- R563 item 9: fields, ARG and PARAM bits that must be 0 or lie in a range (R47, R58, R59, R61, R65). -/
def fieldFault (w : World) (c : Ccw) : Bool :=
  let g := c.arg
  let p := c.param
  match c.code with
  | 0x04 | 0x08 | 0x10 | 0x15 | 0x16 | 0x17 => g != 0 || p != 0
  | 0x11 => g / 2 != 0
  | 0x12 =>
    let delay := g / 2048 == 1
    let cnt := p % 16384
    (delay && g % 2048 != 0) || (cnt == 0 && (delay || w == .safety))
  | 0x13 =>
    (g / 128) % 2 != 0 || g / 1024 != 0 || p == 0 || (c.aselF != 2 && (g / 256) % 4 != 0)
  | 0x14 => g / 1024 != 0 || p != 0
  | 0x18 => g < 1280 || 2047 < g || p != 0
  | _ => false

/-- R563 items 10: a COUNT of 0 without IDA in a command that has a data area (R47). -/
def countFault (c : Ccw) : Bool :=
  c.count == 0 && !c.ida &&
  (c.code == 0x01 || c.code == 0x02 || c.code == 0x04 || c.code == 0x10 || c.code == 0x11 || c.code == 0x13
    || c.code == 0x14 || c.code == 0x15 || c.code == 0x17)

/-- R563 item 9: rules on ARG that depend on the state: sources of the other world (R413), reserved CONTROL codes (R316). -/
def bindFault (s : State) (n : Nat) (c : Ccw) : Option Ending :=
  let w := (s.sub n).attr.world
  if c.code = 0x18 ∧ srcWorld s c.arg ≠ w then some (progCheck 0x0108)
  else if c.code = 0x12 ∧ c.arg / 2048 = 0 ∧ srcWorld s c.arg ≠ w then some (progCheck 0x0108)
  else if c.code = 0x03 ∧ c.arg < 0x100 ∧ c.arg ≠ 2 ∧ c.arg ≠ 3 then some (progCheck 0x0108)
  else none

/-- R563 items 3 to 10: the first rule that a CCW about to execute breaks. R563 ranks the ring rules of R281 for ASEL 2 only;
those of an ARCHIVE, whose ring stands in ARG, take the same place (DESIGN CHOICE, log entry 57). -/
def ccwFault (s : State) (n : Nat) (c : Ccw) (inl afterTic : Bool) : Option Ending :=
  let b := s.sub n
  if chkFails b n c then some (progCheck 0x0104)
  else if 4 ≤ c.aselF then some (progCheck 0x0101)
  else if !knownCode c.code then some (unitCheck 0x0201)
  else if (c.code == 0x01 || c.code == 0x02 || c.code == 0x03) && (bindSat b.attr.binding).isNone then
    some (unitCheck 0x0201)
  else if routineCode c.code && !entryValid (lookupEntry s n c.code) then some (unitCheck 0x0201)
  else if c.code == 0x08 && c.dataAddr % 16 != 0 then some (progCheck 0x0105)
  else if c.code == 0x08 && afterTic then some (progCheck 0x0103)
  else if flagFault c inl then some (progCheck 0x0107)
  else if spaceFault c then some (progCheck 0x010C)
  else match (if c.code == 0x13 && c.aselF == 2 then ringFault s n (c.dataAddr / 2 ^ 40) else none),
             (if c.code == 0x14 then ringFault s n (c.arg % 256) else none) with
  | some e, _ => some e
  | none, some e => some e
  | none, none =>
    if fieldFault b.attr.world c then some (progCheck 0x0108)
    else match bindFault s n c with
    | some e => some e
    | none => if countFault c then some (progCheck 0x0106) else none

/-! ### Reaching the next CCW -/

/-- R156, R153: a command that needs the channel core: staging first when its entry says so, else the request. -/
def requestDispatch (s : State) (n : Nat) : State :=
  let p := (s.sub n).prog
  let e := lookupEntry s n p.cur.code
  let o := (s.sub n).attr.owner
  if entryValid e && (entryStageIn e || entryStageOut e) then
    if 2 ≤ p.cur.aselF then endProgram s n 0x01 (progCheck 0x010D)
    else moverBegins (s.modSub n fun b => { b with prog := { b.prog with phase := .staging } }) n
  else
    let s := s.modSub n fun b => { b with prog := { b.prog with phase := .waitCore } }
    s.modTe o fun t => { t with waitq := t.waitq ++ [n] }

/-- R73: a CCW with SUS = 1 is not executed: suspended CSW, SUSPENDED, the context released. -/
def suspendAt (s : State) (n : Nat) : State :=
  let p := (s.sub n).prog
  let s := segmentLeaves s n
  let s := postCsw s n (ringOfQueue s p.op.queue)
    (mkCsw s n 0x03 p.op.tag p.op.code p.cstat 0 0 0 (posAddr p.op p.pos))
  let s := leaveCore s n
  let s := s.modSub n fun b => { b with
    st := .suspended,
    prog := { b.prog with phase := .none, cstat := 0, dstat := 0, detail := 0, resid := 0, wsrc := none, wdead := 0 } }
  freeSlot s n

/-- R89: the residual of a CCW of which nothing has been moved; TIC, WAITEV, NOP and SIGNAL ignore COUNT (R47). -/
def wholeCount (c : Ccw) : Nat :=
  if c.code = 0x08 ∨ c.code = 0x12 ∨ c.code = 0x16 ∨ c.code = 0x18 then 0 else c.count

/-- A fetched CCW becomes the one to execute: R563 items 2 to 10, R73, R79. -/
def present (s : State) (n : Nat) (f : Fetched) : State :=
  let s := s.modSub n fun b => { b with prog := { b.prog with pos := f.pos, cur := f.ccw, first := f.ccw } }
  match f.err with
  | some e => endProgram s n 0x01 e
  | none =>
    let inl := match f.pos with
      | .inl _ => true
      | .mem _ => false
    if f.ccw.sus && f.ccw.code != 0x08 && !inl then suspendAt s n
    else
      let s := s.modSub n fun b => { b with prog := { b.prog with resid := wholeCount f.ccw } }
      match ccwFault s n f.ccw inl (s.sub n).prog.afterTic with
      | some e => endProgram s n 0x01 e
      | none =>
        s.modSub n fun b => { b with prog := { b.prog with
          phase := .ready, cmdAt := s.now, cnt := b.prog.cnt + 1, moved := false, pciDone := false, committed := false,
          after := none, work := {}, held := {}, retries := [], conflicts := 0, again := false, direct := [], stage := none } }

/-- R74: where the next prefetch goes: plus 16, or a TIC's target; none after CC = CD = 0, SUS, or 4 CCWs. -/
def prefetchPos (b : Sub) : Option CcwPos :=
  let p := b.prog
  let after (c : Ccw) (q : CcwPos) : Option CcwPos :=
    if c.code == 0x08 then (if c.aselF < 2 ∧ c.dataAddr % 16 = 0 then some (.mem (ticTarget c)) else none)
    else if c.sus || (!c.cc && !c.cd) then none
    else some (posPlus p.op q 1)
  if 4 ≤ p.pre.length then none
  else match p.pre.getLast? with
  | some f => if f.err.isSome then none else after f.ccw f.pos
  | none => after p.cur p.pos

/-- R74, R79: the program goes on at position p, from the prefetched CCWs when p is among them. -/
def takeNext (s : State) (n : Nat) (p : CcwPos) (tic : Bool) : State :=
  let b := s.sub n
  let s := s.modSub n fun b => { b with prog := { b.prog with
    pos := p, afterTic := tic, dstat := 0, detail := 0, resid := 0, phase := .fetch
    askAt := if prefetchPos b == some p then b.prog.askAt else s.now } }
  if chainLimit b < b.prog.cnt + 1 then
    s.modSub n fun b => { b with prog := { b.prog with phase := .runaway } }
  else
    let rest := b.prog.pre.dropWhile fun f => f.pos != p
    match rest with
    | f :: fs =>
      let s := s.modSub n fun b => { b with prog := { b.prog with pre := fs } }
      present s n f
    | [] => s.modSub n fun b => { b with prog := { b.prog with pre := [] } }

/-- The phases in which the current command has not begun: a HALT or CLEAR stops there at once (R84, R154). A command that was
rolled back has begun, and a HALT lets it run to its boundary (R259). -/
def atBoundary (p : Prog) : Bool :=
  p.phase == .fetch || p.phase == .runaway || p.phase == .ready || p.phase == .staging
    || (p.phase == .waitCore && !p.again) || p.phase == .held

/-- R84: a program that stops at a boundary ends with the command before it. -/
def stepBack (s : State) (n : Nat) : State :=
  s.modSub n fun b =>
    if atBoundary b.prog then
      { b with prog := { b.prog with
          phase := .fetch, pos := b.prog.prev.pos, dstat := b.prog.prev.dstat, resid := b.prog.prev.resid } }
    else b

/-- R131: a program stopped by a reach reset. -/
def endFenced (s : State) (n : Nat) : State :=
  endProgram (stepBack (s.modSub n fun b => { b with st := .fenced }) n) n 0x01 {}

/-- R85: a program stopped by its CLEARs: ending CSW under the old generation, then the increments and the CLEAR CSWs. -/
def endCleared (s : State) (n : Nat) : State := endProgram (stepBack s n) n 0x01 {}

/-- R84: a program stopped by HALT. -/
def endHalted (s : State) (n : Nat) : State := endProgram (stepBack s n) n 0x01 { detail := 0x0703 }

/-- R84: a command boundary, with the program to go on at p. -/
def boundary (s : State) (n : Nat) (p : CcwPos) (tic : Bool) : State :=
  let b := s.sub n
  if b.st = .fenced then endFenced s n
  else if b.clear ≠ [] then endCleared s n
  else
    if b.st = .haltPending then endHalted s n
    else
      let s := s.modSub n fun b => { b with prog := { b.prog with
        committed := false, prev := { pos := b.prog.pos, dstat := b.prog.dstat, resid := b.prog.resid } } }
      if b.held != [] then
        s.modSub n fun b => { b with prog := { b.prog with phase := .held, pos := p, afterTic := tic } }
      else if s.mig.busy && s.mig.sub == n || (s.te b.attr.owner).st == .retiring || s.vote.rejoin.holdSub == some n then
        takeNext (s.modSub n fun b => { b with prog := { b.prog with pre := [] } }) n p tic
      else takeNext s n p tic

/-! ### Data areas (R43, R69, R76 to R78) -/

/-- What walking a data area gives: its segments, the total of the COUNTs once every CCW of the command is at hand, the residual
of the CCW current at the end, whether the device still had data, the CCW current at the end, and the error met. -/
structure Area where
  segs : List Seg := []
  total : Option Nat := none
  resid : Nat := 0
  more : Bool := false
  cur : Ccw := {}
  pos : CcwPos := .mem {}
  cnt : Nat := 0
  err : Option Ending := none
  deriving DecidableEq, Repr

/-- R76 to R78: the fragments of one list, up to `need` bytes (none: to the end of the list). The spec gives no ending for
reserved bits of an entry that are not 0: they are ignored (DESIGN CHOICE, log entry 57). -/
def walkFrags : Nat → State → Nat → Nat → Nat → Nat → Option Nat → List Seg → Nat → State × List Seg × Option Ending
  | 0, s, _, _, _, _, _, acc, _ => (s, acc, some (progCheck 0x010A))
  | fuel + 1, s, n, asel, tbl, idx, need, acc, got =>
    match memRead s (seqOf n) { asel := asel, addr := tbl + 16 * idx } 16 with
    | (s, .error e) => (s, acc, some (memEnding e))
    | (s, .ok bs) =>
      let fa := (wordAt bs 0).toNat + 2 ^ 32 * fld (wordAt bs 1) 15 0
      let fl := fld (wordAt bs 2) 23 0
      let last := bitOf (wordAt bs 2) 24
      let next := bitOf (wordAt bs 2) 25
      if last && next then (s, acc, some (progCheck 0x010A))
      else if next then
        if fa % 16 != 0 then (s, acc, some (progCheck 0x010A))
        else walkFrags fuel s n asel fa 0 need acc got
      else if fl == 0 || (idx == 4095 && !last) then (s, acc, some (progCheck 0x010A))
      else
        let take := match need with
          | some m => Nat.min fl (m - got)
          | none => fl
        let acc := acc ++ [{ asel := asel, addr := fa, len := take }]
        let got := got + take
        match need with
        | some m =>
          if m ≤ got then (s, acc, none)
          else if last then (s, acc, some (progCheck 0x010A))
          else walkFrags fuel s n asel tbl (idx + 1) need acc got
        | none =>
          if last then (s, acc, none)
          else walkFrags fuel s n asel tbl (idx + 1) need acc got

/-- The total length of segments. -/
def segsLen (l : List Seg) : Nat := l.foldl (fun a g => a + g.len) 0

/-- The largest number of fragment entries the walk follows: more than any list that ends can hold (log entry 12). -/
def fragFuel : Nat := 2 ^ 96

/-- R78: the fragments of one CCW's data area, at most `want` bytes of it, and the CCW's own length. The spec does not say what a
list of more than 4,294,967,295 bytes does: the transfer goes on (DESIGN CHOICE, log entry 57). -/
def ccwFrags (s : State) (n : Nat) (c : Ccw) (want : Option Nat) : State × List Seg × Nat × Option Ending :=
  if c.ida then
    if c.dataAddr % 16 != 0 then (s, [], 0, some (progCheck 0x010A))
    else if c.count = 0 then
      let (s, g, e) := walkFrags fragFuel s n c.aselF c.dataAddr 0 none [] 0
      let total := segsLen g
      let cut := match want with
        | some m => (g.foldl (fun (a : List Seg × Nat) x =>
            (a.1 ++ (if a.2 < m then [{ x with len := Nat.min x.len (m - a.2) }] else []), a.2 + x.len)) ([], 0)).1
        | none => g
      (s, cut, total, e)
    else
      let lim := match want with
        | some m => Nat.min m c.count
        | none => c.count
      if lim = 0 then (s, [], c.count, none)
      else
        let (s, g, e) := walkFrags fragFuel s n c.aselF c.dataAddr 0 (some lim) [] 0
        (s, g, c.count, e)
  else
    let lim := match want with
      | some m => Nat.min m c.count
      | none => c.count
    (s, if lim = 0 then [] else [{ asel := c.aselF, addr := c.dataAddr, len := lim }], c.count, none)

/-- The segments of one CCW's data area, with its SKP (R71). -/
def ccwSegs (s : State) (n : Nat) (c : Ccw) (want : Option Nat) : State × List Seg × Nat × Option Ending :=
  let (s, g, total, e) := ccwFrags s n c want
  (s, g.map fun x => { x with skp := c.skp }, total, e)

/-- R563 items 3, 4 and 7 to 10 for a CCW that data chaining adds to a command: R42, R40, R54, R69, R71, R43, R47. -/
def chainedFault (s : State) (n : Nat) (code : Nat) (c : Ccw) : Option Ending :=
  if chkFails (s.sub n) n c then some (progCheck 0x0104)
  else if 4 ≤ c.aselF then some (progCheck 0x0101)
  else if c.sus || (c.skp && !(code == 0x02 || code == 0x04 || code == 0x13))
      || (c.vot && !(code == 0x10 || routineCode code)) then some (progCheck 0x0107)
  else if spaceFault { c with w0 := setFld c.w0 31 24 code } then some (progCheck 0x010C)
  else if c.count == 0 && !c.ida then some (progCheck 0x0106)
  else none

/-- R66, R563: what a TIC within data chaining breaks by itself, before its target is fetched. -/
def chainedTicFault (s : State) (n : Nat) (c : Ccw) : Option Ending :=
  if chkFails (s.sub n) n c then some (progCheck 0x0104)
  else if 4 ≤ c.aselF then some (progCheck 0x0101)
  else if c.dataAddr % 16 != 0 then some (progCheck 0x0105)
  else if 2 ≤ c.aselF then some (progCheck 0x010C)
  else if c.arg != 0 || c.param != 0 then some (progCheck 0x0108)
  else none

/-- R69: the real-time devices are a Brook frame (WRITE, READ, CONTROL) and SAMPLE. -/
def realTime (code : Nat) : Bool := code == 0x01 || code == 0x02 || code == 0x03 || code == 0x13

/-- R74: the CCW at position q, from the prefetched CCWs when it is among them. For a real-time device it must be there already
(R69): none when it is late. Beyond the 4 CCWs of the prefetch it is fetched in time (DESIGN CHOICE, log entry 57). -/
def chainedCcw (s : State) (n : Nat) (rt : Bool) (q : CcwPos) : State × Option Fetched :=
  let pre := (s.sub n).prog.pre
  match pre.find? fun f => f.pos == q with
  | some f => (s, some f)
  | none =>
    if rt && decide (pre.length < 4) then (s, none)
    else
      let (s, f) := fetchCcw s n q
      (s, some f)

/-- R69: a data-chained CCW that is late. -/
def chainingCheck : Ending := { cstat := csChaining, detail := 0x0A01 }

/-- R69: the CCW that data chaining supplies after CCW c at position p (a TIC leads to its target), with the chain count of
R79. -/
def nextData (s : State) (n : Nat) (o : Op) (rt : Bool) (c : Ccw) (p : CcwPos) (cnt : Nat) (code : Nat) :
    State × CcwPos × Ccw × Nat × Option Ending :=
  let lim := chainLimit (s.sub n)
  let runaway : Ending := { cstat := csRunaway, detail := 0x0C01 }
  let q := posPlus o p 1
  if lim < cnt + 1 then (s, q, {}, cnt, some runaway) else
  match chainedCcw s n rt q with
  | (s, none) => (s, p, c, cnt, some chainingCheck)
  | (s, some f) =>
    match f.err with
    | some e => (s, q, {}, cnt, some e)
    | none =>
      if f.ccw.code ≠ 0x08 then (s, q, f.ccw, cnt + 1, chainedFault s n code f.ccw)
      else match chainedTicFault s n f.ccw with
      | some e => (s, q, f.ccw, cnt, some e)
      | none =>
        let q2 := CcwPos.mem (ticTarget f.ccw)
        if lim < cnt + 2 then (s, q2, {}, cnt + 1, some runaway)
        else match chainedCcw s n rt q2 with
        | (s, none) => (s, p, c, cnt + 1, some chainingCheck)
        | (s, some g) =>
          match g.err with
          | some e => (s, q2, {}, cnt + 1, some e)
          | none =>
            if g.ccw.code = 0x08 then
              (s, q2, g.ccw, cnt + 1, some (if chkFails (s.sub n) n g.ccw then progCheck 0x0104 else progCheck 0x0103))
            else (s, q2, g.ccw, cnt + 2, chainedFault s n code g.ccw)

/-- R69: the data area over all CCWs of the command, as far as the device wants it (none: all of it); `sum` counts the bytes of
the CCWs before. -/
def walkArea : Nat → State → Nat → Op → Nat → Bool → Ccw → CcwPos → Nat → Option Nat → List Seg → Nat → State × Area
  | 0, s, _, _, _, _, c, p, cnt, _, acc, _ =>
    (s, { segs := acc, cur := c, pos := p, cnt := cnt, err := some { cstat := csRunaway, detail := 0x0C01 } })
  | fuel + 1, s, n, o, code, rt, c, p, cnt, want, acc, sum =>
    match ccwSegs s n c want with
    | (s, g, _, some e) =>
      (s, { segs := acc ++ g, total := if c.cd || c.count == 0 then none else some (sum + c.count),
            resid := c.count - segsLen g, cur := c, pos := p, cnt := cnt, err := some e })
    | (s, g, total, none) =>
      let got := segsLen g
      let acc := acc ++ g
      let more := match want with
        | some m => decide (got < m)
        | none => true
      let want' := want.map (· - got)
      if more && c.cd then
        match nextData s n o rt c p cnt code with
        | (s, p', c', cnt', some e) =>
          (s, { segs := acc, resid := if p' = p then total - got else c'.count, cur := c', pos := p', cnt := cnt', err := some e })
        | (s, p', c', cnt', none) => walkArea fuel s n o code rt c' p' cnt' want' acc (sum + total)
      else
        (s, { segs := acc, total := if c.cd then none else some (sum + total), resid := total - got,
              more := want.isSome && more, cur := c, pos := p, cnt := cnt })

/-- The data area of the current command of subchannel n; `rt`: a real-time device takes or gives the data now. -/
def areaOf (s : State) (n : Nat) (rt : Bool) (want : Option Nat) : State × Area :=
  let p := (s.sub n).prog
  walkArea (chainLimit (s.sub n) + 1) s n p.op p.first.code rt p.cur p.pos p.cnt want [] 0

/-- The prefetched CCWs that lie ahead of position p; those of a chain that left them behind are discarded. -/
def preAhead (b : Prog) (p : CcwPos) : List Fetched := if p = b.pos then b.pre else (b.pre.dropWhile fun f => f.pos != p).drop 1

/-- The CCW current at the end of a transfer governs what follows (R69); the count runs on (R79). -/
def setArea (s : State) (n : Nat) (a : Area) : State :=
  s.modSub n fun b => { b with prog := { b.prog with
    cur := a.cur, pos := a.pos, cnt := a.cnt, resid := a.resid, pre := preAhead b.prog a.pos,
    moved := b.prog.moved || segsLen a.segs != 0 } }

/-- R80, R81, R89: the transfer stops after k bytes: the CCW that supplies the next byte is current, with its bytes not moved. -/
def stopAt (s : State) (n k : Nat) : State :=
  let (s, a) := areaOf s n false (some (k + 1))
  setArea s n { a with resid := a.resid + (segsLen a.segs - k) }

/-- R45: bytes of the input snapshot at an ASEL 3 offset; none outside the layout. -/
def snapBytes (sn : Snap) (off len : Nat) : Option (List Byte) :=
  (List.range len).mapM fun i =>
    let a := off + i
    if a < 0x180 then some (nth 0 (toBytes 4 (nth 0 sn.pins (a / 4)).toNat) (a % 4))
    else if 0x200 ≤ a ∧ a < 0x2C0 then some (nth 0 (toBytes 2 (nth 0 sn.outs ((a - 0x200) / 2)).toNat) (a % 2))
    else if 0x300 ≤ a ∧ a < 0x308 then some (nth 0 (toBytes 8 sn.time.toNat) (a - 0x300))
    else if 0x1000 ≤ a ∧ a < 0x3000 then some (tget 0 sn.brook (a - 0x1000))
    else none

/-- R45: the sequencer takes the input snapshot of a command that starts. -/
def startSnap (s : State) (n : Nat) : State :=
  let snap := takeSnapshot s
  s.modSub n fun b => { b with prog := { b.prog with snap := snap } }

/-- The bytes of segments, in order, up to the first error (R81). -/
def readSegs : List Seg → State → Nat → State × List Byte × Option Ending
  | [], s, _ => (s, [], none)
  | g :: gs, s, n =>
    if g.asel = 3 then
      match snapBytes (s.sub n).prog.snap g.addr g.len with
      | none => (s, [], some (progCheck 0x0102))
      | some bs =>
        let (s, rest, e) := readSegs gs s n
        (s, bs ++ rest, e)
    else
      match memReadN s (moverOf n) { asel := g.asel, addr := g.addr } g.len with
      | (s, bs, some e) => (s, bs, some (memEnding e))
      | (s, bs, none) =>
        let (s, rest, e) := readSegs gs s n
        (s, bs ++ rest, e)

/-- Bytes stored into segments, in order, up to the first error; the count of bytes stored. Those of a CCW with SKP are counted
and not stored (R71). -/
def writeSegs : List Seg → State → Nat → List Byte → State × Nat × Option Ending
  | [], s, _, _ => (s, 0, none)
  | g :: gs, s, n, bs =>
    if bs = [] then (s, 0, none) else
    let chunk := bs.take g.len
    let at_ : Addr := { asel := g.asel, addr := g.addr }
    match (if g.skp then (s, chunk.length, none) else memWriteN s (moverOf n) at_ chunk) with
    | (s, j, some e) => (noteDirect s n at_ j, j, some (memEnding e))
    | (s, _, none) =>
      let s := if g.skp then s else noteDirect s n at_ chunk.length
      let (s, k, e) := writeSegs gs s n (bs.drop g.len)
      (s, chunk.length + k, e)

/-- A source area: COUNT by the command's own rule (R563 item 10) before any byte is read, then the bytes in order, up to the
first error of a read or of the walk. -/
def sourceArea (s : State) (n : Nat) (rule : Nat → Option Ending) : State × List Byte × Area :=
  let (s', a) := areaOf s n (realTime (s.sub n).prog.first.code) none
  match a.total.bind rule with
  | some e => (setArea s' n { a with resid := a.cur.count }, [], { a with err := some e })
  | none =>
    let (s', bs, e) := readSegs a.segs s' n
    match e with
    | some e => (stopAt s' n bs.length, bs, { a with err := some e })
    | none => (setArea s' n a, bs, a)

/-- A destination area takes bytes. -/
def storeArea (s : State) (n : Nat) (bs : List Byte) : State × Area :=
  let (s, a) := areaOf s n (realTime (s.sub n).prog.first.code) (some bs.length)
  match writeSegs a.segs s n bs with
  | (s, k, some e) => (stopAt s n k, { a with err := some e })
  | (s, _, none) => (setArea s n a, a)

/-! ### Ends of commands -/

/-- R68: the chain continues after a command that ends with these flags and this device status. -/
def goesOn (p : Prog) (cstat : Word) (dstat : Nat) : Bool :=
  p.cur.cc && (dstat &&& (dsUnitCheck ||| dsUnitException ||| dsBusy)) == 0 && (cstat &&& ~~~(csPci ||| csRecovered)) == 0

/-- R72: a command's commit point, with the flags and the device status that it has there: a PCI command posts its
intermediate CSW when the chain goes on, and the flag stays raised (R91). -/
def atCommit (s : State) (n : Nat) (cstat : Word) (dstat : Nat) : State :=
  let p := (s.sub n).prog
  let c := p.cstat ||| cstat
  let d := p.dstat ||| dstat ||| dsChannelEnd
  let s := s.modSub n fun b => { b with prog := { b.prog with committed := true, ctime := s.now } }
  if p.cur.pci && !p.pciDone && goesOn p c d then
    let s := postCsw s n (ringOfQueue s p.op.queue)
      (mkCsw s n 0x02 p.op.tag p.op.code (c ||| csPci) d 0 p.resid (posAddr p.op p.pos))
    s.modSub n fun b => { b with prog := { b.prog with pciDone := true, cstat := b.prog.cstat ||| csPci } }
  else s

/-- The command reaches device end with the status given; COMMAND_END decides what follows (R68). -/
def deviceEnd (s : State) (n : Nat) (cstat : Word) (dstat detail : Nat) : State :=
  s.modSub n fun b => { b with prog := { b.prog with
    phase := .deviceEnd, cstat := b.prog.cstat ||| cstat, dstat := b.prog.dstat ||| dstat ||| dsChannelEnd ||| dsDeviceEnd,
    detail := detail } }

/-- A command whose commit point is its device end (R245). -/
def endCommitted (s : State) (n : Nat) (cstat : Word) (dstat detail : Nat) : State :=
  deviceEnd (atCommit s n cstat (dstat ||| dsDeviceEnd)) n cstat dstat detail

/-- R70: incorrect length, unless SLI of the current CCW is 1 or a HALT stopped the command (R84). -/
def lengthFlag (a : Area) (halted : Bool) : Word :=
  if (a.resid != 0 || a.more) && !a.cur.sli && !halted then csLength else 0

/-- The sequencer's current command, when it is checked, resident and has this code. -/
def readyFor (s : State) (n code : Nat) : Bool :=
  let b := s.sub n
  b.prog.phase == .ready && b.resident && b.prog.cur.code == code

/-! ### Rows: fetches -/

/-- CCW_FETCH_COMPLETE (R74, R563): the awaited CCW is checked and becomes current, or a prefetched CCW is kept; a subchannel
that a rejoin's donor holds at its boundary waits (R237 step 3). -/
def ccwFetchComplete (s : State) (n : Nat) : State :=
  let b := s.sub n
  if !b.resident then s
  else if b.prog.phase = .fetch ∧ s.vote.rejoin.holdSub = some n then s
  else if b.prog.phase = .fetch then
    let (s, f) := fetchCcw s n b.prog.pos
    present (s.modSub n fun b => { b with prog := { b.prog with askAt := s.now } }) n f
  else if b.prog.phase = .none ∨ b.prog.phase = .runaway then s
  else match prefetchPos b with
  | none => s
  | some q =>
    let (s, f) := fetchCcw s n q
    s.modSub n fun b => { b with prog := { b.prog with pre := b.prog.pre ++ [f], askAt := s.now } }

/-- R460: the completion timeout of the function of a world, in ns. -/
def hostLimit (s : State) (w : World) : Nat :=
  let v := (s.hostFn (worldFn w)).cto
  if v = 1 then 80000 else if v = 2 then 8000000 else if v = 6 then 160000000 else 40000000

/-- R80: how long an access of a world waits for its response, in ns. -/
def accessLimit (s : State) (w : World) (asel : Nat) : Nat := if asel = 0 then hostLimit s w else 10000

/-- The space a CCW is fetched from. -/
def posAsel : CcwPos → Nat
  | .mem a => a.asel
  | .inl _ => 1

/-- R80: the limit of the fetch of a CCW in flight has not passed. -/
def fetchEarly (s : State) (b : Sub) (p : CcwPos) : Bool := notYet s b.prog.askAt (accessLimit s b.attr.world (posAsel p))

/-- R80: no access of the command can have waited for its limit (log entry 65). -/
def accessEarly (s : State) (b : Sub) (asel : Nat) : Bool := notYet s b.prog.cmdAt (accessLimit s b.attr.world asel)

/-- R80: no response to a CCW fetch: 0x0501 device space, 0x0502 host space. -/
def fetchTimeoutEnding (p : CcwPos) : Ending :=
  match p with
  | .mem a => ctrlCheck (if a.asel = 0 then 0x0502 else 0x0501)
  | .inl _ => ctrlCheck 0x0501

/-- CCW_FETCH_TIMEOUT (R80, R74): the awaited fetch ends the program; a prefetch keeps the error. -/
def ccwFetchTimeout (s : State) (n : Nat) : State :=
  let b := s.sub n
  if !b.resident then s
  else if b.prog.phase = .fetch then
    (if fetchEarly s b b.prog.pos then s else endProgram s n 0x01 (fetchTimeoutEnding b.prog.pos))
  else if b.prog.phase = .none ∨ b.prog.phase = .runaway then s
  else match prefetchPos b with
  | none => s
  | some q => if fetchEarly s b q then s else s.modSub n fun b => { b with prog := { b.prog with
      pre := b.prog.pre ++ [{ pos := q, err := some (fetchTimeoutEnding q) }] } }

/-- The command is at work on its data area. -/
def inTransfer (p : Prog) : Bool :=
  p.phase == .ready || p.phase == .staging || p.phase == .onCore || p.phase == .exchange || p.phase == .archive
    || p.phase == .fetching || p.phase == .sampling || p.phase == .stageOut

/-- R80, R81: the transfer of a command fails after `moved` bytes, which stay in place. -/
def transferFails (s : State) (n : Nat) (moved : List Byte) (e : Ending) : State :=
  let p := (s.sub n).prog
  let dest := p.first.code == 0x02 || p.first.code == 0x04 || p.first.code == 0x13 || p.first.code == 0x17 || p.phase == .stageOut
  let s :=
    if p.phase = .stageOut then (writeSegs p.work.segs s n moved).1
    else if dest then
      let (s, a) := areaOf s n false (some moved.length)
      (writeSegs a.segs s n moved).1
    else s
  endProgram (stopAt s n moved.length) n 0x01 e

/-- R80: no response to a data access: 0x0503 device space, 0x0504 host space. -/
def dataTimeoutEnding (asel : Nat) : Ending := ctrlCheck (if asel = 0 then 0x0504 else 0x0503)

/-- DATA_ACCESS_TIMEOUT (R80) in a data area; the bytes already moved stay in place. -/
def dataAccessTimeout (s : State) (n : Nat) (moved : List Byte) : State :=
  let b := s.sub n
  if !(inTransfer b.prog) || !b.resident || accessEarly s b b.prog.cur.aselF then s else transferFails s n moved (dataTimeoutEnding b.prog.cur.aselF)

/-! ### Rows: commands of the sequencer -/

/-- TIC (R66): the CCW at its address is next. -/
def ticEffect (s : State) (n : Nat) : State :=
  if readyFor s n 0x08 then boundary s n (.mem (ticTarget (s.sub n).prog.cur)) true else s

/-- NOP (R65). -/
def nopEffect (s : State) (n : Nat) : State :=
  if readyFor s n 0x16 then endCommitted s n 0 0 0 else s

/-- A destination command that stores a record of its own: SENSE (R51) and MARK (R65). -/
def storeRecord (s : State) (n : Nat) (bs : List Byte) : State :=
  let (s, a) := storeArea s n bs
  match a.err with
  | some e => endProgram s n 0x01 e
  | none =>
    endCommitted s n (lengthFlag a false) 0 0

/-- R51: the bytes of the sense record. -/
def senseBytes (x : Sense) : List Byte :=
  wordsBytes ([pack [(0, 16, x.detail), (16, 8, x.cmd)], BitVec.ofNat 32 x.time.toNat,
    BitVec.ofNat 32 (x.time.toNat / 2 ^ 32)] ++ padTo 0 5 x.dev)

/-- SENSE (R51). -/
def senseEffect (s : State) (n : Nat) : State :=
  if readyFor s n 0x04 then storeRecord s n (senseBytes (s.sub n).sense) else s

/-- MARK (R65): a COUNT other than 8 ends the program. -/
def markEffect (s : State) (n : Nat) : State :=
  if readyFor s n 0x17 then
    let (s', a) := areaOf s n false none
    match a.total, a.err with
    | some 8, _ => storeRecord s n (toBytes 8 s.now.toNat)
    | some _, _ => endProgram (setArea s' n { a with resid := a.cur.count }) n 0x01 (progCheck 0x0106)
    | none, some e => endProgram (setArea s' n a) n 0x01 e
    | none, none => s
  else s

/-- SIGNAL (R65): the source is raised at the commit point. -/
def signalEffect (s : State) (n : Nat) : State :=
  if readyFor s n 0x18 then
    let src := (s.sub n).prog.cur.arg
    endCommitted (raiseEvent s src) n 0 0 0
  else s

/-- R59: a WAITEV timeout in ns. -/
def waitNs (param : Nat) : Nat :=
  (param % 16384) * (match param / 16384 with
    | 0 => 1000
    | 1 => 100000
    | 2 => 10000000
    | _ => 1000000000)

/-- WAITEV (R58, R59) begins its wait. -/
def waitevEffect (s : State) (n : Nat) : State :=
  if readyFor s n 0x12 then
    s.modSub n fun b =>
      let c := b.prog.cur
      { b with waitAt := s.now, prog := { b.prog with
          phase := .waitev, wsrc := if c.arg / 2048 = 1 then none else some (c.arg % 2048),
          wdead := if c.param % 16384 = 0 then 0 else BitVec.ofNat 64 (s.now.toNat + waitNs c.param) } }
  else s

/-- R58, R60, R145: a WAITEV ends; a swapped-out waiter then competes for a context. -/
def endWait (s : State) (n : Nat) (dstat detail : Nat) : State :=
  let s := endCommitted (s.modSub n fun b => { b with prog := { b.prog with resid := 0 } }) n 0 dstat detail
  s.modSub n fun b => { b with
    wmark := s.now, swapEnd := if b.resident then none else some s.now,
    prog := { b.prog with cnt := 0, pre := [], askAt := s.now, resid := 0, wsrc := none, wdead := 0 } }

/-- WAITEV_ARRIVAL (R58, R60): an arrival not earlier than the wait mark. -/
def waitevArrival (s : State) (n : Nat) : State :=
  let b := s.sub n
  match b.prog.phase, b.prog.wsrc with
  | .waitev, some src =>
    match lastArrival s src with
    | some t => if b.wmark.toNat ≤ t.toNat then endWait s n dsModifier 0 else s
    | none => s
  | _, _ => s

/-- WAITEV_TIMEOUT (R60): the timeout has run from the start of the WAITEV. -/
def waitevTimeout (s : State) (n : Nat) : State :=
  let b := s.sub n
  if b.prog.phase = .waitev ∧ b.prog.wdead ≠ 0 ∧ b.prog.wdead.toNat ≤ s.now.toNat then endWait s n 0 0x0803 else s

/-- ROUTINE_COMMAND (R67, R153): the routine of the class's table is requested. -/
def routineCommand (s : State) (n : Nat) : State :=
  let b := s.sub n
  if b.prog.phase = .ready ∧ b.resident ∧ routineCode b.prog.cur.code then requestDispatch s n else s

/-- RUNAWAY_CHAIN (R79). -/
def runawayChain (s : State) (n : Nat) : State :=
  if (s.sub n).prog.phase = .runaway then endProgram s n 0x01 { cstat := csRunaway, detail := 0x0C01 } else s

/-- COMMAND_END (R68, R84, R102): the chain goes on, skips, stops at the boundary, or ends with a posted CSW. -/
def commandEnd (s : State) (n : Nat) : State :=
  let b := s.sub n
  let p := b.prog
  if p.phase = .deviceEnd ∧ b.resident then
    let s := if p.moved then s.modSub n fun b => { b with prog := { b.prog with cnt := 0 } } else s
    if isErrorEnding p.cstat p.dstat || !goesOn p p.cstat p.dstat then endProgram s n 0x01 { detail := p.detail }
    else
      let k := if p.dstat &&& dsModifier = 0 then 1 else 2
      boundary s n (posPlus p.op p.pos k) false
  else s

end Sys2Proof.Machine
end

