-- ==== Sys2Proof/Machine/Operations.lean ====
section
/-! DEFINITION. Operations on subchannels, contexts, generations, reach reset and the deadlock detector
(chapters "Channel programs", "Queues, doorbells and reaches"). -/

namespace Sys2Proof.Machine

/-- The reference of an operation: code, tag, queue. -/
def opRef (o : Op) (code : Nat) : OpRef := ⟨code, o.tag, o.queue⟩

/-- R113: an operation that arrives leaves the list of those handed over. -/
def arrive (s : State) (o : Op) (code : Nat) : State :=
  s.modQ fun q => { q with handed := q.handed.erase { o with code := code } }

/-- R260: the bytes that an abandoned command wrote directly are free values. -/
def freeDirect (s : State) (n : Nat) : State :=
  let s := (s.sub n).prog.direct.foldl (fun s r => freeBytes s r.1 r.2) s
  s.modSub n fun b => { b with prog := { b.prog with direct := [] } }

/-- The owner is SLOW or retired (R160), or halted, which counts as SLOW (R521). -/
def ownerOut (s : State) (n : Nat) : Bool :=
  let o := (s.sub n).attr.owner
  let st := (s.te o).st
  st == .slow || st == .retired || st == .retiring || (s.dbg o).halted

/-- R165: the owner is retired, or retiring, and no TE takes the subchannel: no spare does, and none qualified. -/
def ownerGone (s : State) (n : Nat) : Bool :=
  let b := s.sub n
  let t := s.te b.attr.owner
  (t.st == .retired || t.st == .retiring) && t.spareFor.isNone && !b.resident

/-- OWNER_REASSIGN (R160) at an accepted START. -/
def reassign (s : State) (n : Nat) : State :=
  let b := s.sub n
  if b.attr.movable && ownerOut s n then
    match bestTe s n with
    | some t => s.modSub n fun b => { b with attr := { b.attr with owner := t } }
    | none => s
  else s

/-- R87: every operation is rejected with busy until the CLEAR CSW has been created. -/
def clearWindow (b : Sub) : Bool := b.clearWin

/-- R113: operations of one queue on one subchannel are taken in the order in which they were handed over. One that no hand-over
precedes stands for an entry copied before (log entry 59). -/
def inTurn (s : State) (o : Op) (code : Nat) : Bool :=
  match s.q.handed.find? fun h => h.queue == o.queue && h.sub == o.sub with
  | some h => h == { o with code := code }
  | none => true

/-- R113, R120: an operation takes effect in its turn; one whose CSW would be the third that its subchannel holds waits, handed
over, unless a reach reset or the window of R87 rejects it. -/
def operate (s : State) (o : Op) (code : Nat) (eff : State → State) : State :=
  let b := s.sub o.sub
  let t := eff s
  if !inTurn s o code then s
  else if b.st ≠ .fenced ∧ !clearWindow b ∧ b.toCreate.length < (t.sub o.sub).toCreate.length then s
  else t

/-- START (R86, R83, R160): accepted in IDLE, otherwise rejected. -/
def startEffect (s : State) (o : Op) : State := operate s o 1 fun s =>
  let n := o.sub
  let s := arrive s o 1
  let b := s.sub n
  let r := opRef o 1
  if !b.attr.valid then s
  else if b.st = .fenced then rejectFenced s n r
  else if clearWindow b then rejectBusy s n r
  else match b.st with
  | .idle =>
    let s := reassign s n
    if ownerGone s n then rejectRetired s n r
    else
      let stamp := s.q.stamp
      let s := s.modQ fun q => { q with stamp := stamp + 1 }
      s.modSub n fun b => { b with
        st := .startPending, wmark := s.now, pend := some { o with code := 1 }, arr := stamp, lastQ := some o.queue,
        prog := { op := { o with code := 1 }, pos := startPos o, dver := classVer s b.attr.cls } }
  | _ => if ownerGone s n then rejectRetired s n r else rejectBusy s n r

/-- RESUME (R86, R83): accepted in SUSPENDED. -/
def resumeEffect (s : State) (o : Op) : State := operate s o 2 fun s =>
  let n := o.sub
  let s := arrive s o 2
  let b := s.sub n
  let r := opRef o 2
  if !b.attr.valid then s
  else if b.st = .fenced then rejectFenced s n r
  else if clearWindow b then rejectBusy s n r
  else if ownerGone s n then rejectRetired s n r
  else match b.st with
  | .suspended =>
    let stamp := s.q.stamp
    let s := s.modQ fun q => { q with stamp := stamp + 1 }
    s.modSub n fun b => { b with
      st := .resumePending, wmark := s.now, pend := some { o with code := 2 }, arr := stamp, lastQ := some o.queue }
  | .idle => rejectState s n r
  | _ => rejectBusy s n r

/-- The CSW of a START or RESUME withdrawn while pending: detail 0x0702. -/
def withdrawCsw (s : State) (n : Nat) : State :=
  match (s.sub n).pend with
  | some o =>
    let s := postCsw s n (ringOfQueue s o.queue) (mkCsw s n 0x01 o.tag o.code 0 0 0x0702 0 {})
    s.modSub n fun b => { b with pend := none }
  | none => s

/-- R84: NVMe reads of the FETCHSTORE descriptor in progress are in flight, or their bytes wait for delivery. -/
def fetchInFlight (s : State) (n : Nat) : Bool :=
  s.silt.nv.any fun c => !c.dead && (match c.use with
    | .fetch m _ => m == n
    | _ => false)

/-- HALT (R84, R86). -/
def haltEffect (s : State) (o : Op) : State := operate s o 3 fun s =>
  let n := o.sub
  let s := arrive s o 3
  let b := s.sub n
  let r := opRef o 3
  if !b.attr.valid then s
  else if b.st = .fenced then rejectFenced s n r
  else if clearWindow b then rejectBusy s n r
  else if ownerGone s n then rejectRetired s n r
  else match b.st with
  | .idle | .haltPending | .statusPending => rejectState s n r
  | .startPending | .resumePending =>
    let s := answer (withdrawCsw s n) n r 0 0 0
    settle s n
  | .suspended => settle (answer s n r 0 0 0) n
  | .fenced => s
  | .active =>
    let s := s.modSub n fun b => { b with st := .haltPending, halt := some r }
    match b.prog.phase with
    | .waitev =>
      let s := endWait s n 0 0
      endHalted s n
    | .sampling => s.modSub n fun b => { b with
        prog := { b.prog with work := { b.prog.work with stopNow := true } } }
    | .fetching =>
      if fetchInFlight s n || (s.sub n).prog.work.raw != [] then
        s.modSub n fun b => { b with prog := { b.prog with work := { b.prog.work with stopNow := true } } }
      else endHalted s n
    | .archive =>
      let w := b.prog.work
      if w.seq.isNone ∧ w.raw = [] ∧ arState s w.ring = 1 then endHalted s n
      else s
    | _ => if atBoundary b.prog then endHalted s n else s

/-- R85: a command before its commit point is abandoned; its held effects vanish, its direct writes are open. -/
def abandon (s : State) (n : Nat) : State := freeDirect s n

/-- CLEAR (R85, R86, R87), whose own CSW may wait to be created. -/
def clearEffect (s : State) (o : Op) : State :=
  if !inTurn s o 4 then s
  else
  let n := o.sub
  let s := arrive s o 4
  let b := s.sub n
  let r := opRef o 4
  if !b.attr.valid then s
  else if b.st = .fenced then rejectFenced s n r
  else if clearWindow b then rejectBusy s n r
  else if ownerGone s n then rejectRetired s n r
  else match b.st with
  | .idle => incGen s n (.clear r)
  | .startPending | .resumePending =>
    let s := settle (withdrawCsw s n) n
    incGen s n (.clear r)
  | .suspended => incGen (settle s n) n (.clear r)
  | .statusPending => incGen s n (.clear r)
  | .fenced => s
  | .active | .haltPending =>
    let s := s.modSub n fun x => { x with clearWin := x.st == .haltPending, clear := x.clear ++ [r] }
    if b.prog.phase = .deviceEnd then endCleared s n
    else if b.prog.committed then s
    else endCleared (abandon s n) n

/-- CANCEL (R86). -/
def cancelEffect (s : State) (o : Op) : State := operate s o 5 fun s =>
  let n := o.sub
  let s := arrive s o 5
  let b := s.sub n
  let r := opRef o 5
  if !b.attr.valid then s
  else if b.st = .fenced then rejectFenced s n r
  else if clearWindow b then rejectBusy s n r
  else if ownerGone s n then rejectRetired s n r
  else match b.st with
  | .startPending => settle (answer (withdrawCsw s n) n r 0 0 0) n
  | .resumePending =>
    let s := answer (withdrawCsw s n) n r 0 0 0
    s.modSub n fun b => { b with st := .suspended }
  | _ => rejectState s n r

/-! ### Resident contexts -/

/-- Whether subchannel n asks for a resident context: a waiter that ended its WAITEV, or a pending operation whose
generation increments are done (R125, R145). -/
def wantsCtx (b : Sub) : Bool :=
  (!b.resident && b.swapEnd.isSome) || ((b.st == .startPending || b.st == .resumePending) && b.genDue == [])

/-- R104, R145: the rank of a candidate; smaller goes first. -/
def ctxRank (b : Sub) : Nat × Nat × Nat :=
  match b.swapEnd with
  | some t => (0, t.toNat, b.arr)
  | none =>
    match b.pend with
    | some o => if o.deadline = 0 then (2, 0, b.arr) else (1, o.deadline.toNat, b.arr)
    | none => (3, 0, b.arr)

/-- Lexicographic order of ranks. -/
def rankLt (a b : Nat × Nat × Nat) : Bool :=
  decide (a.1 < b.1) || (a.1 == b.1 && (decide (a.2.1 < b.2.1) || (a.2.1 == b.2.1 && decide (a.2.2 < b.2.2))))

/-- Subchannel n is first among the candidates of its TE. -/
def ctxFirst (s : State) (n : Nat) : Bool :=
  let b := s.sub n
  wantsCtx b && !(s.subs.any fun x =>
    x.1 != n && x.2.attr.owner == b.attr.owner && wantsCtx x.2 && rankLt (ctxRank x.2) (ctxRank b))

/-- R104: the deadline of the pending operation has passed. -/
def deadlinePassed (s : State) (b : Sub) : Bool :=
  match b.pend with
  | some o => o.deadline != 0 && decide (o.deadline.toNat < s.now.toNat)
  | none => false

/-- CONTEXT_GRANT (R143, R104, R86, R145). The TE accepts a START or RESUME when it grants the context: the segment runs under the
DVER of this moment, also where an update came while the operation was pending (R168; DESIGN CHOICE, log entry 60). -/
def contextGrant (s : State) (n : Nat) : State :=
  let b := s.sub n
  let t := s.te b.attr.owner
  if !ctxFirst s n || t.st == .retired || t.st == .loading || t.st == .spare || 16 ≤ t.slots.length || t.st == .retiring then s
  else if b.swapEnd.isNone && deadlinePassed s b then
    let susp := b.st == .resumePending
    let s := withdrawCsw s n
    if susp then s.modSub n fun b => { b with st := .suspended } else settle s n
  else
    let s := s.modTe b.attr.owner fun t => { t with slots := t.slots ++ [n] }
    match b.swapEnd with
    | some _ =>
      let s := s.modTe b.attr.owner fun t => { t with swapCnt := t.swapCnt + 1 }
      s.modSub n fun b => { b with resident := true, swapEnd := none }
    | none =>
      match b.pend with
      | none => s
      | some o =>
        let s := s.modSub n fun b => { b with
          st := .active, resident := true, pend := none,
          prog := { b.prog with
            op := if o.code = 1 then o else { b.prog.op with
              code := o.code, tag := o.tag, queue := o.queue, parm := o.parm,
              deadline := o.deadline }
            askAt := s.now, dver := classVer s b.attr.cls, cstat := 0, prev := { pos := b.prog.pos } } }
        takeNext s n (s.sub n).prog.pos false

/-- R144: the resident waiter that has waited longest, for at least SWAP_MIN, not STICKY and not migrating. -/
def swapVictim (s : State) (te : Nat) : Option Nat :=
  let swapMin := fld (s.reg Reg.devRbalCtl) 23 16 * 1000
  (s.te te).slots.foldl (fun (best : Option Nat) k =>
    let b := s.sub k
    if b.prog.phase == .waitev && !b.attr.sticky && b.waitAt.toNat + swapMin ≤ s.now.toNat
        && !(s.mig.busy && s.mig.sub == k) then
      match best with
      | none => some k
      | some j => if b.waitAt.toNat < (s.sub j).waitAt.toNat then some k else best
    else best) none

/-- SWAP_OUT_COMPLETE (R144, R74): the longest waiter leaves its slot; its prefetch is discarded. -/
def swapOutComplete (s : State) (te : Nat) : State :=
  let wanted := s.subs.any fun x => x.2.attr.owner == te && wantsCtx x.2
  if (s.te te).slots.length < 16 || !wanted then s
  else match swapVictim s te with
  | none => s
  | some k =>
    let s := s.modTe te fun t => { t with swapCnt := t.swapCnt + 1 }
    freeSlot (s.modSub k fun b => { b with prog := { b.prog with pre := [] } }) k

/-! ### Generations and reach reset -/

/-- R130 step 1 (REACH_FENCE): the state of one subchannel at the fence, with R131. The suspended CSW of a SUSPENDED program was
its one ending CSW (R82). -/
def fenceSub (s : State) (n : Nat) : State :=
  let b := s.sub n
  match b.st with
  | .fenced | .idle | .statusPending | .suspended => s.modSub n fun b => { b with st := .fenced, old := false }
  | .startPending | .resumePending =>
    match b.pend with
    | some o =>
      let s := postCsw s n (ringOfQueue s o.queue) (mkCsw s n 0x01 o.tag o.code csFenced 0 0x0C04 0 {})
      let s := countProduced s n
      s.modSub n fun b => { b with st := .fenced, pend := none }
    | none => s.modSub n fun b => { b with st := .fenced }
  | .active | .haltPending =>
    let p := b.prog
    if atBoundary p || p.phase == .waitev || p.phase == .none then
      endFenced (if p.phase == .waitev then endWait s n 0 0 else freeDirect s n) n
    else if p.phase == .onCore && !(s.te b.attr.owner).builtin && !(s.dbg b.attr.owner).halted then s.modSub n fun b => { b with st := .fenced }
    else if p.phase == .sampling || (p.phase == .fetching && (fetchInFlight s n || p.work.raw != [])) then
      s.modSub n fun b => { b with
        st := .fenced,
        prog := { b.prog with work := { b.prog.work with stopNow := true } } }
    else if p.phase == .accepted || p.phase == .deviceEnd then s.modSub n fun b => { b with st := .fenced }
    else
      let s := if p.committed then s else freeDirect s n
      endFenced s n

/-- The subchannels of a reach. -/
def subsOfReach (s : State) (r : Nat) : List Nat :=
  (s.subs.filter fun x => x.2.attr.valid && x.2.attr.reach == r).map (·.1)

/-- R86: operations handed over and not yet accepted are rejected with fenced (R131). -/
def rejectHanded (s : State) (r : Nat) : State :=
  let mine := s.q.handed.filter fun o => (s.sub o.sub).attr.reach == r
  let s := s.modQ fun q => { q with handed := q.handed.filter fun o => !(mine.contains o) }
  mine.foldl (fun s o => rejectFenced s o.sub (opRef o o.code)) s

/-- R300: the descriptor names an OWNER of the reach. -/
def dmaOfReach (s : State) (r : Nat) (d : List Word) : Bool :=
  fld (nth 0 d 6) 5 4 == 1 && (s.sub (fld (nth 0 d 3) 15 4)).attr.reach == r

/-- R300: descriptors in progress whose OWNER lies in the reach end at their burst boundary. -/
def fenceDma (s : State) (r : Nat) : State :=
  { s with dma := { s.dma with ch := s.dma.ch.map fun x =>
      match x.2.desc with
      | some d => if dmaOfReach s r d then (x.1, { x.2 with fence := true }) else x
      | none => x } }

/-- R126, R130 step 1: the queues and rings of the reach are FENCED. -/
def fenceQueues (s : State) (r : Nat) : State :=
  s.modQ fun q => { q with
    sq := q.sq.map fun x => if x.2.desc.reach == r && (x.2.st == .enabled || x.2.st == .error) then
      (x.1, { x.2 with st := .fenced, issued := [], reading := false, again := false }) else x,
    cq := q.cq.map fun x => if x.2.desc.reach == r && (x.2.st == .enabled || x.2.st == .error) then
      (x.1, { x.2 with st := .fenced, reading := false, again := false }) else x }

/-- REACH_FENCE (R130 steps 1 and 2): subchannels, queues and rings FENCED, outputs safe, pending images discarded,
DMA channels of the reach stopped at their burst (R300), a migration in the reach ended (R163). -/
def fenceReach (s : State) (r : Nat) : State :=
  let s := fenceQueues s r
  let s := s.q.sq.foldl (fun s x => if x.2.desc.reach == r then cutVisit s x.1 else s) s
  let subs := subsOfReach s r
  let s := if s.mig.busy && subs.contains s.mig.sub then s.setMig { s.mig with busy := false, result := 3 } else s
  let s := subs.foldl (fun s n => safeOwned s n) s
  let s := rejectHanded s r
  fenceDma (subs.foldl fenceSub s) r

/-- R129: an accepted request begins a reset, or merges into the one in progress. -/
def acceptReset (s : State) (r : Nat) (q : ResetReq) : State :=
  let fresh := (s.reach r).reqs == []
  let s := s.modReach r fun x =>
    if fresh then { x with reqs := [q], drained := false, produced := 0, qreset := q.qreset }
    else { x with reqs := x.reqs ++ [q], qreset := x.qreset || q.qreset }
  if fresh then fenceReach s r
  else if q.qreset then fenceQueues s r
  else s

/-- R112, R140: a page counts a refused write. -/
def pageRefuse (s : State) (pf page : Nat) : State :=
  s.modPage (pf * 32 + page) fun p => { refused := satInc 0xFFFF p.refused, seen := true }

/-- DBELL_RESET (R129): PF0 for any reach, PF1 only where no safety-world subchannel lives. -/
def dbellReset (s : State) (pf page tag : Nat) (qreset : Bool) : State :=
  if pf = 0 then acceptReset s page ⟨.safety, tag, qreset⟩
  else if reachHasSafety s page then pageRefuse s pf page
  else acceptReset s page ⟨.service, tag, qreset⟩

/-- DBELL_REACH_RESET (R129): SC-S for any reach; SC-V as PF1 (its refusal
is a bus error, R539). -/
def dbellReachReset (s : State) (w : World) (r tag : Nat) (qreset : Bool) : State :=
  match w with
  | .safety => acceptReset s r ⟨.safety, tag, qreset⟩
  | .service => if reachHasSafety s r then s else acceptReset s r ⟨.service, tag, qreset⟩

/-- R131: every program of the reach has stopped. -/
def reachStopped (s : State) (r : Nat) : Bool :=
  (subsOfReach s r).all fun n => (s.sub n).prog.phase == .none

/-- R130 step 5, R132: no descriptor of the reach is in progress, and every entry of its rings is covered by a tail write. -/
def reachDrained (s : State) (r : Nat) : Bool :=
  (s.dma.ch.all fun x => match x.2.desc with
    | some d => !dmaOfReach s r d
    | none => true) &&
  s.q.cq.all fun x => x.2.desc.reach != r || x.2.uncov == 0

/-- R133: a RESET DONE CSW. -/
def resetDoneCsw (s : State) (r : Nat) (q : ResetReq) (produced : Nat) : Csw :=
  { sub := 0, reach := r, gen := 0, world := q.world, kind := 0x06, tag := q.tag, dstat := 0, op := 0,
    cstat := csFenced, resid := produced, detail := 0x0C04, ccwa := {}, time := s.now }

/-- R86, R120, R128: what follows when a held CSW of subchannel n has gone: a program that waited to end ends; with none left,
STATUS PENDING ends, and a program that stopped at a boundary goes on. -/
def roomAgain (s : State) (n : Nat) : State :=
  let b := s.sub n
  if b.prog.phase = .ending then endWaiting s n
  else if b.held = [] ∧ b.toCreate = [] then
    if b.st = .statusPending then (if b.clearWin then s else settle s n)
    else if b.prog.phase = .held then takeNext s n b.prog.pos b.prog.afterTic
    else s
  else s

/-- R121, R120: post what subchannels hold for ring k while there is space: each subchannel's CSWs in the order of their creation,
the subchannels in the order of their first held CSWs. -/
def postHeld : Nat → State → Nat → State
  | 0, s, _ => s
  | fuel + 1, s, k =>
    let r := s.ring k
    if r.st ≠ .enabled ∨ ringFull r then s
    else
      let best := s.subs.foldl (fun (b : Option (Nat × HeldCsw)) x =>
        match x.2.held.head? with
        | none => b
        | some h =>
          if h.ring != k then b
          else match b with
          | none => some (x.1, h)
          | some (_, g) => if h.stamp < g.stamp then some (x.1, h) else b) none
      match best with
      | none => s
      | some (n, h) =>
        match writeCsw s k h.csw with
        | (s, false) => s
        | (s, true) =>
          postHeld fuel (roomAgain (createCsw (s.modSub n fun b => { b with held := b.held.erase h }) n) n) k

/-- The held CSWs of all subchannels, a bound for `postHeld`. -/
def heldTotal (s : State) : Nat := s.subs.foldl (fun a x => a + x.2.held.length + x.2.toCreate.length) 0

/-- HELD_CSW_POST (R121). -/
def heldCswPost (s : State) (k : Nat) : State := postHeld (heldTotal s) s k

/-- R126: a FENCED ring leaves the reset; with QRESET its index restarts at 0 and is written to memory. -/
def unfenceRings (s : State) (r : Nat) (qreset : Bool) : State :=
  s.q.cq.foldl (fun s x =>
    if x.2.desc.reach = r ∧ x.2.st = .fenced then
      let s := s.modRing x.1 fun g => { g with st := .enabled }
      if qreset then
        let s := s.modRing x.1 fun g => { g with tail := 0, head := 0, unsig := [], uncov := 0 }
        match memWrite s (.queue x.2.desc.world) x.2.desc.tailA (toBytes 4 0) with
        | (s, none) => s
        | (s, some _) => ringError s x.1 0x6
      else s
    else s) s

/-- R126, R134: a FENCED queue leaves the reset once every RESET DONE is posted: its tail is read, or with QRESET its index
restarts at 0 and is written to memory. -/
def unfenceQueues (s : State) (r : Nat) (qreset : Bool) : State :=
  s.q.sq.foldl (fun s x =>
    if x.2.desc.reach = r ∧ x.2.st = .fenced then
      let s := s.modSq x.1 fun g => { g with st := .enabled }
      if qreset then
        let s := s.modSq x.1 fun g => { g with head := 0, tail := 0 }
        match memWrite s (.queue x.2.desc.world) x.2.desc.headA (toBytes 4 0) with
        | (s, none) => s
        | (s, some _) => queueError s x.1 0x6 0
      else s.modSq x.1 fun g => { g with reading := true, readAt := s.now }
    else s) s

/-- R134: with QRESET every CSW that a subchannel of the reach holds is discarded. -/
def discardAll (s : State) (n : Nat) : State :=
  let s := s.modSub n fun b => { b with held := [], toCreate := [], clearWin := false }
  if (s.sub n).st = .statusPending then settle s n else s

/-- R133, R134 (RESET_DONE): once every subchannel of the reach has its new generation, the rings leave the fence, what is
held is posted, each request gets its RESET DONE in order (discarded where its ring is DISABLED, R128), and after the last
one the queues are served again. -/
def resetDone (s : State) (r : Nat) : State :=
  let x := s.reach r
  let waiting := (subsOfReach s r).any fun n => (s.sub n).genDue != []
  if x.reqs = [] ∨ !x.drained ∨ waiting then s
  else
    let qreset := x.qreset
    let s := if qreset then (subsOfReach s r).foldl discardAll s else s
    let s := unfenceRings s r qreset
    let s := s.q.cq.foldl (fun s g => if g.2.desc.reach = r then heldCswPost s g.1 else s) s
    let (s, left) := x.reqs.foldl (fun (a : State × List ResetReq) q =>
      let k := defaultRing a.1 r q.world
      let g := a.1.ring k
      if a.2 != [] then (a.1, a.2 ++ [q])
      else if g.st = .disabled then (dropCsw a.1 k 1, a.2)
      else if g.st ≠ .enabled || ringFull g || a.1.subs.any (fun y => (y.2.held ++ y.2.toCreate).any (·.ring == k)) then (a.1, a.2 ++ [q])
      else
        match writeCsw a.1 k (resetDoneCsw a.1 r q (Nat.min 0xFFFF x.produced)) with
        | (s, true) => (s, a.2)
        | (s, false) => (s, a.2 ++ [q])) (s, [])
    let s := s.modReach r fun y => { y with reqs := left }
    if left = [] then unfenceQueues s r qreset else s

/-- R130 step 6: one subchannel of the reach advances its generation. -/
def advanceSub (s : State) (n : Nat) : State :=
  let s := s.modSub n fun b => { b with prog := {}, pend := none, halt := none, clear := [], clearWin := false }
  let s := incGen s n .reset
  if (s.sub n).genDue = [] then settle s n else s

/-- REACH_RESET_DRAIN_COMPLETE (R132, R130 steps 6 and 7). -/
def reachResetDrainComplete (s : State) (r : Nat) : State :=
  let x := s.reach r
  if x.reqs = [] ∨ x.drained ∨ !reachStopped s r ∨ !reachDrained s r then s
  else
    let s := s.modReach r fun y => { y with drained := true }
    let s := if x.qreset then (subsOfReach s r).foldl discardAll s else s
    let s := (subsOfReach s r).foldl advanceSub s
    resetDone s r

/-- GENERATION_INCREMENT (R125): the first deferred increment, once 70 µs have passed. -/
def generationIncrement (s : State) (n : Nat) : State :=
  let b := s.sub n
  match b.genDue, b.genAt with
  | d :: ds, some t =>
    if t.toNat + Config.genGap ≤ s.now.toNat then
      let s := s.modSub n fun b => { b with genDue := ds }
      let s := takeIncrement s n d
      match d with
      | .reset =>
        let s := settle s n
        resetDone s b.attr.reach
      | .clear _ => s
    else s
  | _, _ => s

/-! ### Deadlock detection (R137 to R139) -/

/-- R137 condition 1: a WAITEV on a software-set source. -/
def softWait (b : Sub) : Bool :=
  b.st == .active && b.prog.phase == .waitev && (match b.prog.wsrc with
    | some x => decide (Config.softSrcLo ≤ x)
    | none => false)

/-- R137: the reach is quiescent. The rule names no operation that is handed over and not yet accepted: one makes the reach not
quiescent (DESIGN CHOICE, log entry 59). -/
def quiescent (s : State) (r : Nat) : Bool :=
  let subs := (subsOfReach s r).map s.sub
  subs.any softWait
  && subs.all (fun b => b.st == .idle || b.st == .suspended || softWait b)
  && subs.all (fun b => !softWait b || (match b.prog.wsrc with
      | some x => !sourceArmed s x && (match lastArrival s x with
          | some t => decide (t.toNat < b.wmark.toNat)
          | none => true)
      | none => true))
  && s.q.sq.all (fun x => x.2.desc.reach != r || x.2.st != .enabled ||
      (x.2.head == x.2.tail && x.2.issued == [] && !x.2.reading))
  && !(s.q.handed.any fun o => (s.sub o.sub).attr.reach == r)

/-- DEADLOCK_EXAMINATION (R137), once every 250 µs. -/
def deadlockExamination (s : State) (r : Nat) : State :=
  let due := match (s.reach r).examAt with
    | some t => decide (t.toNat + 250000 ≤ s.now.toNat)
    | none => true
  if !due then s
  else s.modReach r fun x => { x with examAt := some s.now, quiet := if quiescent s r then satInc 3 x.quiet else 0 }

/-- R138, R139: the WAITEV is one that the third examination found, on a source that is not armed. -/
def deadlocked (s : State) (r n : Nat) : Bool :=
  let b := s.sub n
  softWait b && (match (s.reach r).examAt with
    | some t => decide (b.waitAt.toNat ≤ t.toNat)
    | none => false) && (match b.prog.wsrc with
    | some x => !sourceArmed s x
    | none => false)

/-- DEADLOCK_END (R138): after three quiescent examinations every such WAITEV ends with deadlock. -/
def deadlockEnd (s : State) (r : Nat) : State :=
  if (s.reach r).quiet < 3 then s
  else
    let s := (subsOfReach s r).foldl (fun s n =>
      if deadlocked s r n then
        let s := s.modSub n fun b => { b with
          wmark := s.now, prog := { b.prog with resid := 0, dstat := dsChannelEnd ||| dsDeviceEnd } }
        endProgram s n 0x05 { cstat := csDeadlock, detail := 0x0C03 }
      else s) s
    s.modReach r fun x => { x with quiet := 0 }

end Sys2Proof.Machine
end

