-- ==== Sys2Proof/Machine/Queues.lean ====
section
/-! DEFINITION. The queue engine: doorbells, index reads, service order, entry copies, ring tail writes, and the
enabling of queues and rings (chapter "Queues, doorbells and reaches"). -/

namespace Sys2Proof.Machine

/-! ### Doorbells (R107, R111, R112, R119) -/

/-- R107, R112: a tail read of an ENABLED queue is issued, or one further read is wanted; in another state the doorbell is
discarded, also one that a routine wrote and its commit releases. -/
def wantTail (s : State) (q : Nat) : State :=
  s.modSq q fun x =>
    if x.st != .enabled then x else if x.reading then { x with again := true } else { x with reading := true, readAt := s.now }

/-- R119, R112: a head read of an ENABLED ring is issued, or one further read is wanted. -/
def wantHead (s : State) (k : Nat) : State :=
  s.modRing k fun x =>
    if x.st != .enabled then x else if x.reading then { x with again := true } else { x with reading := true, readAt := s.now }

/-- R111: the world of a host function. -/
def pfWorld (f : Nat) : World := if f = 0 then .safety else .service

/-- DBELL_SQ (R107, R111, R112). -/
def dbellSq (s : State) (pf page q : Nat) (aligned : Bool) : State :=
  let x := s.sq q
  if aligned && x.st == .enabled && x.desc.reach == page && x.desc.world == pfWorld pf then wantTail s q
  else pageRefuse s pf page

/-- DBELL_CQ (R119, R111, R112). -/
def dbellCq (s : State) (pf page k : Nat) (aligned : Bool) : State :=
  let x := s.ring k
  if aligned && x.st == .enabled && x.desc.reach == page && x.desc.world == pfWorld pf then wantHead s k
  else pageRefuse s pf page

/-- R140, R112: a write of page offset `o` of reach `page` through the function; one that is not aligned is refused. -/
def pageWrite (s : State) (pf page o : Nat) (v : Word) : State :=
  if o % 4 ≠ 0 then pageRefuse s pf page
  else if o = 0 then dbellSq s pf page (fld v 9 0) true
  else if o = 4 then dbellCq s pf page (fld v 9 0) true
  else if o = 8 then (if bitOf v 31 then dbellReset s pf page (fld v 15 0) (bitOf v 16) else s)
  else if o = 0xC ∧ bitOf v 16 then s.modPage (pf * 32 + page) fun _ => {}
  else s

/-- DBELL_STAT of a page (R140); every other page offset reads 0. -/
def pageWord (s : State) (pf page o : Nat) : Word :=
  if o = 0xC then
    let p := s.page (pf * 32 + page)
    pack [(0, 16, p.refused), (16, 1, b2n p.seen), (17, 1, b2n ((s.reach page).reqs != []))]
  else 0

/-- R107, R119: a core's doorbell that passed its checks. -/
def coreBell (s : State) (num : Nat) (isRing : Bool) : State := if isRing then wantHead s num else wantTail s num

/-- R105: the index a word holds for a ring of 2^log2 entries; none when it is not valid (R109, R119). -/
def indexOf (w : Word) (log2 : Nat) : Option Nat := if w.toNat < 2 ^ log2 then some w.toNat else none

/-- TAIL_INDEX_READ_COMPLETE (R107, R109). -/
def tailIndexReadComplete (s : State) (q : Nat) : State :=
  let x := s.sq q
  if x.st ≠ .enabled ∨ !x.reading then s
  else match memRead s (.queue x.desc.world) x.desc.tailA 4 with
  | (s, .error _) => queueError s q 0x5 x.head
  | (s, .ok bs) =>
    match indexOf (wordAt bs 0) x.desc.log2 with
    | none => queueError s q 0x2 x.head
    | some t => s.modSq q fun x => { x with tail := t, reading := x.again, again := false, readAt := s.now }

/-- HEAD_INDEX_READ_COMPLETE (R119). -/
def headIndexReadComplete (s : State) (k : Nat) : State :=
  let x := s.ring k
  if x.st ≠ .enabled ∨ !x.reading then s
  else match memRead s (.queue x.desc.world) x.desc.headA 4 with
  | (s, .error _) => ringError s k 0x5
  | (s, .ok bs) =>
    match indexOf (wordAt bs 0) x.desc.log2 with
    | none => ringError s k 0x2
    | some t => s.modRing k fun x => { x with head := t, reading := x.again, again := false, readAt := s.now }

/-! ### Service order (R114, R115) -/

/-- Entries of a queue that are available and not yet issued. -/
def available (x : SubQ) : Nat :=
  if x.st = .enabled then (x.tail + 2 ^ x.desc.log2 - x.head) % 2 ^ x.desc.log2 - x.issued.length else 0

/-- The lowest queue of a world from number `lo` on, of weight at least `k`, with an available entry. -/
def nextQueue (s : State) (w : World) (lo k : Nat) : Option Nat :=
  (s.q.sq.find? fun x =>
    decide (lo ≤ x.1) && x.2.desc.world == w && decide (k ≤ x.2.desc.weight) && decide (0 < available x.2)).map (·.1)

/-- The world has an available entry. -/
def worldHasEntry (s : State) (w : World) : Bool :=
  s.q.sq.any fun x => x.2.desc.world == w && decide (0 < available x.2)

/-- R114: the round advances to its next visit. -/
def advanceRound : Nat → State → World → Round → Round
  | 0, _, _, r => r
  | fuel + 1, s, w, r =>
    match r.visit with
    | some (q, left) =>
      if 0 < left ∧ 0 < available (s.sq q) then r else advanceRound fuel s w { r with visit := none }
    | none =>
      match nextQueue s w r.next r.pass with
      | some q => { r with next := q + 1, visited := true, visit := some (q, Nat.min (s.sq q).desc.burst (available (s.sq q))) }
      | none =>
        if r.visited then advanceRound fuel s w { pass := r.pass + 1 }
        else advanceRound fuel s w {}

/-- The round of a world. -/
def roundOf (s : State) : World → Round
  | .safety => s.q.safe
  | .service => s.q.serv

/-- R115: one entry read is issued for a world. -/
def issueEntry (s : State) (w : World) : State :=
  let r := advanceRound 600 s w (roundOf s w)
  match r.visit with
  | none => s
  | some (q, left) =>
    let x := s.sq q
    let idx := (x.head + x.issued.length) % 2 ^ x.desc.log2
    let s := s.modSq q fun x => { x with issued := x.issued ++ [(idx, left == 1, s.now)] }
    let r := { r with visit := if left = 1 then none else some (q, left - 1) }
    match w with
    | .safety => s.modQ fun e => { e with safe := r, safeTaken := e.safeTaken + 1 }
    | .service => s.modQ fun e => { e with serv := r }

/-- Entry reads outstanding over all queues (R565: at most 32). -/
def readsOut (s : State) : Nat := s.q.sq.foldl (fun a x => a + x.2.issued.length) 0

/-- SAFE_SHARE of DBELL_CTL, where 0 means 16 (R115). -/
def safeShare (s : State) : Nat :=
  let v := fld (s.reg Reg.dbellCtl) 7 4
  if v = 0 then 16 else v

/-- ENTRY_SLOT (R115): one slot of the frame. -/
def entrySlot (s : State) : State :=
  if !bitOf (s.reg Reg.dbellCtl) 0 || 32 ≤ readsOut s || s.cu.pl != .none || notYet s s.q.slotAt 10 then s
  else
    let s :=
      if worldHasEntry s .safety && s.q.safeTaken < safeShare s then issueEntry s .safety
      else if worldHasEntry s .service then issueEntry s .service
      else if worldHasEntry s .safety then issueEntry s .safety
      else s
    s.modQ fun q =>
      if q.slot = 15 then { q with slot := 0, safeTaken := 0, slotAt := s.now } else { q with slot := q.slot + 1, slotAt := s.now }

/-! ### Entry copies (R99 to R101, R110) -/

/-- R101: the error code of a malformed entry, in the order the queue engine checks. -/
def entryFault (s : State) (x : SubQ) (bs : List Byte) : Option Nat :=
  let w0 := wordAt bs 0
  let w1 := wordAt bs 1
  let w3 := wordAt bs 3
  let op := fld w0 7 0
  let sub := fld w0 27 16
  let b := s.sub sub
  if op = 0 ∨ 5 < op then some 0x4
  else if op ≠ 2 ∧ fld w0 9 8 = 3 then some 0x4
  else if fld w0 15 10 ≠ 0 ∨ fld w0 31 28 ≠ 0 ∨ (op ≤ 2 ∧ (fld w1 31 16 ≠ 0 ∨ fld w3 31 20 ≠ 0)) then some 0x4
  else if !b.attr.valid ∨ b.attr.reach ≠ x.desc.reach ∨ b.attr.world ≠ x.desc.world then some 0x3
  else if op = 1 ∧ (1 < fld w3 19 16 ∨ (wordAt bs 2).toNat % 16 ≠ 0) then some 0x4
  else none

/-- R99: the operation an entry carries. -/
def entryOp (q : Nat) (slot : Addr) (bs : List Byte) : Op :=
  let w0 := wordAt bs 0
  let op := fld w0 7 0
  let n := if op = 1 then fld w0 9 8 else 0
  { code := op, sub := fld w0 27 16, tag := fld (wordAt bs 1) 15 0, queue := q,
    chain := { asel := fld (wordAt bs 3) 19 16, addr := (wordAt bs 2).toNat + 2 ^ 32 * fld (wordAt bs 3) 15 0 },
    inl := (List.range n).map fun i => ccwOfBytes (bs.drop (32 + 16 * i)),
    slot := slot, parm := BitVec.ofNat 64 (ofBytes ((bs.drop 16).take 8)),
    deadline := BitVec.ofNat 64 (ofBytes ((bs.drop 24).take 8)) }

/-- ENTRY_COPY_COMPLETE (R99, R101, R110, R113). -/
def entryCopyComplete (s : State) (q : Nat) : State :=
  let x := s.sq q
  match x.issued with
  | [] => s
  | (idx, last, _) :: rest =>
    let slot : Addr := { x.desc.base with addr := x.desc.base.addr + 64 * idx }
    match memRead s (.queue x.desc.world) slot 64 with
    | (s, .error _) => queueError s q 0x5 idx
    | (s, .ok bs) =>
      match entryFault s x bs with
      | some code => headWrite (queueFails s q code idx) q
      | none =>
        let s := s.modSq q fun x => { x with issued := rest, head := (idx + 1) % 2 ^ x.desc.log2, headDue := true }
        let o := entryOp q slot bs
        let s := s.modQ fun e => { e with handed := e.handed ++ [o] }
        if last then headWrite s q else s

/-! ### Completion rings (R117, R118) -/

/-- RING_TAIL_WRITE (R117, R118): the tail covers what is written; the event follows when it is due. -/
def ringTailWrite (s : State) (k : Nat) : State :=
  let g := s.ring k
  if g.uncov = 0 then s
  else match memWrite s (.queue g.desc.world) g.desc.tailA (toBytes 4 g.tail) with
  | (s, some _) => if g.st = .enabled then ringError s k 0x6 else s.modRing k fun r => { r with uncov := 0 }
  | (s, none) =>
    let s := s.modRing k fun r => { r with uncov := 0 }
    let due := decide (Nat.max 1 g.desc.evCount ≤ g.unsig.length) ||
      (match g.unsig with
        | t :: _ => decide (t.toNat + 1000 * g.desc.evTime ≤ s.now.toNat)
        | [] => false)
    if due then raiseEvent (s.modRing k fun r => { r with unsig := [] }) k else s

/-- RING_EVENT_TIMEOUT (R118): EVTIME has passed since the first covered entry. -/
def ringEventTimeout (s : State) (k : Nat) : State :=
  let g := s.ring k
  match g.unsig with
  | [] => s
  | t :: _ =>
    if g.unsig.length ≤ g.uncov ∨ s.now.toNat < t.toNat + 1000 * g.desc.evTime then s
    else raiseEvent (s.modRing k fun r => { r with unsig := r.unsig.drop (r.unsig.length - r.uncov) }) k

/-! ### Enabling (R96 to R98, R126 to R128) -/

/-- An address pair (words i and i + 1) of a descriptor. -/
def descAddr (bs : List Byte) (i : Nat) : Addr :=
  { asel := fld (wordAt bs (i + 1)) 19 16, addr := (wordAt bs i).toNat + 2 ^ 32 * fld (wordAt bs (i + 1)) 15 0 }

/-- R96: the fields of a descriptor. -/
def parseDesc (isRing : Bool) (bs : List Byte) : QDesc :=
  let w2 := wordAt bs 2
  let w3 := wordAt bs 3
  { base := descAddr bs 0, log2 := fld w2 4 0, weight := if isRing then 0 else fld w2 15 8,
    burst := if isRing then 0 else fld w2 22 16, reach := fld w2 28 24,
    world := if bitOf w2 29 then .service else .safety,
    evsrc := fld w3 10 0, evEn := !isRing && bitOf w3 11, headEv := !isRing && bitOf w3 12,
    cq := if isRing then 0 else fld w3 25 16,
    evCount := if isRing then fld w3 7 0 else 0, evTime := if isRing then fld w3 15 8 else 0,
    tailA := descAddr bs 4, headA := descAddr bs 6 }

/-- R98: the checks of a descriptor that do not need the bound ring. -/
def descOk (isRing : Bool) (bs : List Byte) : Bool :=
  let w2 := wordAt bs 2
  let w3 := wordAt bs 3
  let d := parseDesc isRing bs
  let hi (i : Nat) : Bool := fld (wordAt bs i) 31 20 == 0
  bitOf w2 31 && !bitOf w2 30 && hi 1 && hi 5 && hi 7
  && d.base.asel ≤ 1 && d.tailA.asel ≤ 1 && d.headA.asel ≤ 1
  && (d.base.addr % (if isRing then 32 else 64) == 0) && d.tailA.addr % 4 == 0 && d.headA.addr % 4 == 0
  && decide (4 ≤ d.log2) && decide (d.log2 ≤ 16)
  && (List.range 8).all (fun i => wordAt bs (8 + i) == 0)
  && (if isRing then fld w2 23 5 == 0 && fld w3 31 16 == 0
      else fld w2 7 5 == 0 && !bitOf w2 23 && fld w3 15 13 == 0 && fld w3 31 26 == 0
        && decide (1 ≤ d.weight) && decide (1 ≤ d.burst) && decide (d.burst ≤ 64)
        && (!(d.evEn || d.headEv) || decide (Config.softSrcLo ≤ d.evsrc)))

/-- R96: where descriptor k lies. -/
def descAt (s : State) (isRing : Bool) (k : Nat) : Addr :=
  let base := fld (s.reg (if isRing then Reg.dbellCqdBase else Reg.dbellSqdBase)) 23 16
  { asel := 1, addr := Config.basinBase + 2 ^ 16 * base + 64 * k }

/-- R469: a descriptor that names host memory in a module without a host. -/
def standaloneHost (s : State) (d : QDesc) : Bool :=
  !bitOf (s.reg Reg.devHostCfg) 0 && (d.base.asel == 0 || d.tailA.asel == 0 || d.headA.asel == 0)

/-- R411: a ring's source takes the ring's WORLD; EN is cleared when TARGET then names the other world. -/
def ringSource (s : State) (k : Nat) (w : World) : State :=
  s.modEvSrc k fun e => { e with world := w, en := e.en && tgtWorld e.target == w }

/-- R98, R126: an ENABLE of ring k in DISABLED, or again after a failed ENABLE. The table gives a descriptor that cannot be read
no code: it fails the ENABLE, code 0x1; and the consumer's head is taken as 0, unread (DESIGN CHOICE, log entry 59). -/
def enableRing (s : State) (k : Nat) : State :=
  match memRead s .device (descAt s true k) 64 with
  | (s, .error _) => ringError (s.modRing k fun r => { r with dropped := 0 }) k 0x1
  | (s, .ok bs) =>
    if descOk true bs && !standaloneHost s (parseDesc true bs) then
      let d := parseDesc true bs
      let s := ringSource (s.modRing k fun r => { desc := d, st := .enabled, err := r.err }) k d.world
      match memWrite s (.queue d.world) d.tailA (toBytes 4 0) with
      | (s, none) => s
      | (s, some _) => ringError s k 0x6
    else ringError (s.modRing k fun r => { r with desc := parseDesc true bs, dropped := 0 }) k 0x1

/-- R98, R126: an ENABLE of queue k; its ring must be of its reach and world. A failed one raises EVSRC when EVEN is 1 and
EVSRC lies in its range (R127). It also fails while its ring is DISABLED, which R98 asks software to avoid and does not list, and
when the descriptor cannot be read; the submitter's tail is taken as 0, unread (DESIGN CHOICE, log entry 59). -/
def enableQueue (s : State) (k : Nat) : State :=
  match memRead s .device (descAt s false k) 64 with
  | (s, .error _) => queueError s k 0x1 0
  | (s, .ok bs) =>
    let d := parseDesc false bs
    let g := s.ring d.cq
    if descOk false bs && !standaloneHost s d && g.desc.reach == d.reach && g.desc.world == d.world && g.st != .disabled then
      let s := s.modSq k fun r => { desc := d, st := .enabled, err := r.err }
      match memWrite s (.queue d.world) d.headA (toBytes 4 0) with
      | (s, none) => s
      | (s, some _) => queueError s k 0x6 0
    else queueError (s.modSq k fun r => { r with desc := { d with evEn := d.evEn && decide (Config.softSrcLo ≤ d.evsrc) } }) k 0x1 0

/-- The queue or ring that QSEL of a world names: number, and whether it is a ring. -/
def selected (s : State) (w : World) : Nat × Bool :=
  let v := s.reg (match w with
    | .safety => Reg.dbellQselS
    | .service => Reg.dbellQselV)
  (fld v 9 0, bitOf v 16)

/-- The state of the selected queue or ring. -/
def selState (s : State) (w : World) : QSt :=
  if (selected s w).2 then (s.ring (selected s w).1).st else (s.sq (selected s w).1).st

/-- A DBELL_QCMD write of a world acts on a queue or ring of that world only (the refusal is a bus error, R539). -/
def queueCmd (s : State) (w : World) (act : State → Nat → Bool → State) : State :=
  let (k, isRing) := selected s w
  if queueWorldOf s k isRing ≠ w then s else act s k isRing

/-- QUEUE_ENABLE (R126): from DISABLED only. -/
def queueEnable (s : State) (w : World) : State :=
  queueCmd s w fun s k isRing =>
    if selState s w ≠ .disabled then s else if isRing then enableRing s k else enableQueue s k

/-- R128: the CSWs held for a ring that is disabled are discarded and counted. -/
def discardHeld (s : State) (k : Nat) : State :=
  s.subs.foldl (fun s x =>
    let b := s.sub x.1
    let gone := (b.held.filter (·.ring == k)).length + (b.toCreate.filter (·.ring == k)).length
    if gone = 0 then s else
    let s := dropCsw s k gone
    let s := s.modSub x.1 fun b =>
      { b with held := b.held.filter (·.ring != k), toCreate := b.toCreate.filter (·.ring != k),
               clearWin := b.clearWin && b.toCreate.any fun c => c.csw.op == 4 && c.ring != k }
    let s := foldN 2 (fun s _ => if (s.sub x.1).held.length < 2 then createCsw s x.1 else s) s
    roomAgain s x.1) s

/-- QUEUE_DISABLE (R126, R128): from ENABLED or ERROR. -/
def queueDisable (s : State) (w : World) : State :=
  queueCmd s w fun s k isRing =>
    match selState s w with
    | .enabled | .error =>
      if isRing then
        let s := s.modRing k fun r => { r with
          st := .disabled, reading := false, again := false, dropped := 0 }
        discardHeld s k
      else cutVisit (s.modSq k fun q => { q with st := .disabled, reading := false, again := false, issued := [] }) k
    | .disabled | .fenced => s

/-- QUEUE_RESTART (R126): from ERROR; a failed ENABLE is performed again, otherwise the index is read once. -/
def queueRestart (s : State) (w : World) : State :=
  queueCmd s w fun s k isRing =>
    if selState s w ≠ .error then s
    else if isRing then
      if (s.ring k).err = 1 then enableRing s k
      else wantHead (s.modRing k fun r => { r with st := .enabled }) k
    else
      if (s.sq k).err = 1 then enableQueue s k
      else wantTail (s.modSq k fun q => { q with st := .enabled }) k

end Sys2Proof.Machine
end

