-- ==== Sys2Proof/Machine/Routine.lean ====
section
/-! DEFINITION. The core at the first instruction of a routine: authority blocks, the routine ABI, traces and halts
(chapters "Tributary engines and device routines", "Worlds, levels and capabilities", "Daster monitor"). -/

namespace Sys2Proof.Machine

/-! ### Trace and halts (R521, R524) -/

/-- R524: TE_TRACE_CTL enables records of a kind. -/
def traces (d : TeDbg) (kind : Nat) : Bool :=
  if kind ≤ 2 then d.traceEn else if kind = 3 then d.traceBranch else d.traceExc

/-- R524: the trace island takes one record per cycle of 2.5 ns: the records of this timebase value that fill its four. -/
def traceBusy (s : State) : Bool := decide (4 ≤ ((s.mon.trace.reverse.take 4).filter fun r => r.time == s.now).length)

/-- R524: a record is written, over the oldest when the buffer is full; one that no cycle can take is dropped and counted. -/
def traceRecord (s : State) (te kind code : Nat) (pc : Word) : State :=
  if te < 64 && traces (s.dbg te) kind then
    let r : TraceRec := { time := s.now, te := te, kind := kind, sub := (s.te te).curSub, code := code, pc := pc }
    s.modMon fun m =>
      let l := m.trace ++ [r]
      if traceBusy s then { m with traceDrop := satInc 0xFFFF m.traceDrop } else { m with trace := l.drop (l.length - 4096), traceWr := (m.traceWr + 1) % 4096 }
  else s

/-- R521: the core halts; WHY says for what. -/
def haltCore (s : State) (te why : Nat) : State :=
  let s := s.modDbg te fun d => { d with haltReq := false, step := false, halted := true, why := why, abandoned := false }
  traceRecord s te 5 why (s.core te).pc

/-- R521: a halt request made while no routine ran takes effect before the first instruction. -/
def haltAtDispatch (s : State) (te : Nat) : State := if (s.dbg te).haltReq then haltCore s te 1 else s

/-! ### Authority blocks (R405, R406) -/

/-- R405: where the authority block of a class lies. -/
def authAddr (s : State) (cls : Nat) : Nat :=
  Config.basinBase + fld (s.reg Reg.leveeClassBase) 23 14 * 0x4000 + 256 * cls

/-- R405: the block in Basin: its 256 bytes, then the tags of its 16 granules. -/
def authInBasin (s : State) (cls : Nat) : List Byte :=
  let a := authAddr s cls
  peekMem s a 256 ++ (List.range 16).map fun i => if s.tags.contains (a + 16 * i) then 1 else 0

/-- R406: the cache of 8 blocks after a lookup, the most recently used first, and the block. -/
def authLookup (s : State) (te cls : Nat) : List (Nat × List Byte) × List Byte :=
  let l := (s.te te).auth
  match l.find? fun x => x.1 == cls with
  | some x => (x :: l.filter (fun y => y.1 != cls), x.2)
  | none =>
    let b := authInBasin s cls
    (((cls, b) :: l).take 8, b)

/-- Granule i of a block as a capability. -/
def blockCap (b : List Byte) (i : Nat) : Cap :=
  { body := BitVec.ofNat 128 (ofBytes ((b.drop (16 * i)).take 16)), tag := nth 0 b (256 + i) == 1 }

/-! ### Routine entry (R155, R331) -/

/-- R155: the general registers at the first instruction. -/
def entryRegs (s : State) (te n : Nat) (e : List Word) : List Word :=
  let b := s.sub n
  let p := b.prog
  let stage := p.stage.getD (0, 0)
  let buf : Word := if p.stage.isSome then BitVec.ofNat 32 (0x10000 + stage.1) else 0
  let t := (s.te te).snapTime
  [0, BitVec.ofNat 32 (0x10000 + fld (nth 0 e 2) 15 0), 0, 0, lo p.op.parm, hi p.op.parm,
    pack [(0, 12, n), (12, 5, b.attr.reach), (17, 4, b.gen.toNat), (21, 1, worldBit b.attr.world)],
    buf, BitVec.ofNat 32 stage.2, lo t, p.first.w0, p.first.w1, p.first.w2, p.first.w3] ++ List.replicate 18 0

/-- R155, R331, R405: the core of a TE at the first instruction of the routine that an entry names. The exception
registers but for MASK keep their values. -/
def coreAtEntry (s : State) (te n : Nat) (e : List Word) : State :=
  let b := s.sub n
  let w := b.attr.world
  let (cache, blk) := authLookup s te b.attr.cls
  let cap := schemeCap s w
  let none8 : List Cap := List.replicate 8 {}
  let s := s.modTe te fun t => { t with auth := cache }
  s.modCore te fun x =>
    { x with
      run := true, g := entryRegs s te n e, p := 1,
      c := if cap then (List.range 8).map fun i => blockCap blk (3 + i) else none8,
      pc := BitVec.ofNat 32 (fld (nth 0 e 0) 15 0), ls := [0, 0, 0], le := [0, 0, 0], lc := [0, 0, 0],
      rs := [0xFFFFFFF0#32], sm := false, dc := false, lvl := false, world := w, mlvl := 0, fesc := false, hf := false,
      loopinh := false, sx := List.replicate 256 0, idx := 0, acc := 0,
      pcc := if cap then blockCap blk 0 else {}, epcc := if cap then blockCap blk 1 else {},
      ec0 := if cap then blockCap blk 2 else {},
      gtbase := wordAt blk 60, gtcount := fld (wordAt blk 61) 10 0, gauth := wordAt blk 62, gates := [], rsv := none,
      fbuf := [] }

/-- R524: the record of a dispatch; the spec gives a built-in routine no address, so its PC is a free value. -/
def traceDispatch (s : State) (te : Nat) : State :=
  let t := s.te te
  if t.builtin then
    let (s, v) := s.free
    traceRecord s te 1 t.curCode (v.setWidth 32)
  else traceRecord s te 1 t.curCode (s.core te).pc

end Sys2Proof.Machine
end

