-- ==== Sys2Proof/Machine/Vote.lean ====
section
/-! DEFINITION. The Confluence links, the vote, exclusion and rejoin (chapter "Composite operation and
vote-before-actuate"). -/

namespace Sys2Proof

/-! ### Records (R208) -/

/-- R208: the type of a record. -/
def CflRec.ty (r : CflRec) : Nat := Machine.fld r.w0 19 17
/-- The key of a digest, echo or absent record. -/
def CflRec.key (r : CflRec) : Machine.VKey :=
  { sub := Machine.fld r.w0 11 0, gen := Machine.fld r.w0 15 12, world := if Machine.bitOf r.w0 16 then .service else .safety, aslot := Machine.fld r.w1 15 0 }
def CflRec.own (r : CflRec) : Bool := Machine.bitOf r.w1 16
def CflRec.first (r : CflRec) : Nat := Machine.fld r.w1 31 18
def CflRec.value (r : CflRec) : DWord := BitVec.ofNat 64 (r.w2.toNat + 2 ^ 32 * r.w3.toNat)
/-- The code of a control record. -/
def CflRec.code (r : CflRec) : Nat := Machine.fld r.w1 7 0

end Sys2Proof

namespace Sys2Proof.Machine

/-! ### Configuration (R203 to R206) -/

/-- Position p is a member. -/
def isMember (s : State) (p : Nat) : Bool := bitOf (s.reg Reg.voteCfg) (4 + p)
/-- Position p is a standby at formation. -/
def isStby (s : State) (p : Nat) : Bool := bitOf (s.reg Reg.voteCfg) (12 + p)
/-- R203: the quorum of a mode. -/
def quorum (s : State) : Nat := if voteMode s = 0 then 1 else 2
/-- R231: LATE_MAX, where 0 means 8. -/
def lateMax (s : State) : Nat :=
  let v := fld (s.reg Reg.voteCfg) 23 16
  if v = 0 then 8 else v
/-- R222: VOTE_WIN in ns. -/
def voteWin (s : State) : Nat := fld (s.reg Reg.voteWin) 16 0

/-- R205: the position at the far end of link k. -/
def linkPos (s : State) (k : Nat) : Nat := (myPos s + k + 1) % 4
/-- R205: the link that leads to position p. -/
def posLink (s : State) (p : Nat) : Nat := (p + 3 - myPos s) % 4
/-- Position p is reached over an UP link. -/
def reaches (s : State) (p : Nat) : Bool := p != myPos s && posLink s p < 3 && (s.cfl (posLink s p)).st == 2
/-- The cycle number now (R208). -/
def cycNow (s : State) : Nat := s.now.toNat / 64

/-- A change of the view of another position. -/
def setView (s : State) (p v : Nat) : State :=
  if p = myPos s then s else s.modVote fun u => { u with view := setNth u.view p v }

/-- R207, R209: a link is used. -/
def cflEnabled (s : State) (k : Nat) : Bool :=
  voteMode s != 0 && bitOf (s.reg (Reg.cflCtl k)) 0 && isMember s (linkPos s k)

/-! ### Records (R208) -/

/-- A digest, echo or absent record. -/
def mkRec (ty : Nat) (k : VKey) (own : Bool) (first : Nat) (v : DWord) : CflRec :=
  { w0 := pack [(0, 12, k.sub), (12, 4, k.gen), (16, 1, worldBit k.world), (17, 3, ty)]
    w1 := pack [(0, 16, k.aslot), (16, 1, b2n own), (18, 14, first)]
    w2 := BitVec.ofNat 32 v.toNat, w3 := BitVec.ofNat 32 (v.toNat / 2 ^ 32) }

/-- A control record: its code, the rest of W1, and W2–W3; W0 [15:0] takes its sequence number when it leaves (R208). -/
def mkCtl (code hi v : Nat) : CflRec :=
  { w0 := pack [(17, 3, 5)], w1 := pack [(0, 8, code), (8, 24, hi)], w2 := BitVec.ofNat 32 v,
    w3 := BitVec.ofNat 32 (v / 2 ^ 32) }

/-- R208: the control codes of the records that a member acts on. -/
def knownRec (r : CflRec) : Bool := (decide (1 ≤ r.ty) && decide (r.ty ≤ 4)) || (r.ty == 5 && decide (1 ≤ r.code) && decide (r.code ≤ 6))

/-- R208: control records as they leave in a frame: each with its sequence number, a join request with the timebase at the
frame's cycle start. -/
def stampCtl (t seq : Nat) (rs : List CflRec) : List CflRec :=
  rs.zipIdx.map fun (r, i) =>
    let r := { r with w0 := r.w0 ||| BitVec.ofNat 32 ((seq + i) % 65536) }
    if r.code = 1 then { r with w2 := BitVec.ofNat 32 t, w3 := BitVec.ofNat 32 (t / 2 ^ 32) } else r

/-- R208: the full cycle number of FIRST bits [13:0], the latest not after now. -/
def fullFirst (s : State) (f : Nat) : Nat := cycNow s - (cycNow s + 16384 - f % 16384) % 16384

/-- A control record for every UP link. -/
def ctlAll (s : State) (r : CflRec) : State :=
  foldN 3 (fun s k => if (s.cfl k).st = 2 then s.modCfl k fun c => { c with ctlQ := c.ctlQ ++ [r] } else s) s

/-! ### Voters, and the bookkeeping of reachability (R220, R231) -/

/-- Position p is a voter for a vote whose window opened in cycle c (R233: a promotion holds from its cycle on). -/
def isVoter (s : State) (p c : Nat) : Bool :=
  viewOf s p == 2 && !(s.vote.promo.any fun x => x.1 == p && decide (c < x.2))
/-- Position p is a voter or a standby in service. -/
def inVote (s : State) (p : Nat) : Bool := viewOf s p == 2 || viewOf s p == 3
/-- R220: position p is expected to answer. -/
def expected (s : State) (p : Nat) : Bool := isMember s p && inVote s p && (p == myPos s || reaches s p)

/-- The in-service member with the lowest position (R213). -/
def referencePos (s : State) : Option Nat := (List.range 4).find? fun p => isMember s p && viewOf s p == 2

/-- R231 reasons 6 and 7: since when the member reaches too few members, or its timebase is off. -/
def noteHealth (s : State) : State :=
  if s.vote.st = .inService ∨ s.vote.st = .standby then
    let n := ((List.range 4).filter fun p => p != myPos s && isMember s p && viewOf s p == 2 && reaches s p).length
    let low := voteMode s != 0 && decide (n + 1 < quorum s)
    let off := match referencePos s with
      | some p =>
        if p = myPos s || !reaches s p then false
        else
          let o := (s.cfl (posLink s p)).off
          decide (o > 20) || decide (o < -20)
      | none => false
    s.modVote fun u => { u with
      quorumLostAt := if low then (match u.quorumLostAt with
        | some t => some t
        | none => some s.now) else none
      ofsBadAt := if off then (match u.ofsBadAt with
        | some t => some t
        | none => some s.now) else none }
  else s.modVote fun u => { u with quorumLostAt := none, ofsBadAt := none }

/-! ### Ends of voted commands (R224, R226, R232) -/

/-- The pending image of a subchannel, if the Sluice holds one. -/
def imageOf (s : State) (n : Nat) : Option Image := tget? s.sluice n

/-- The pending image is gone from the Sluice. -/
def dropImage (s : State) (n : Nat) : State := s.setSluice (tdel s.sluice n)

/-- R224: the pending image is discarded and every target of its away entries moves to its safe state. -/
def discardImage (s : State) (n : Nat) : State :=
  match imageOf s n with
  | none => s
  | some im =>
    let s := dropImage s n
    im.targets.foldl (fun s t => safeTarget s t false) s

/-- The command of a subchannel ends its vote with a status: at once in the Sluice phase, else when step 5 has ended. -/
def endVoted (s : State) (n : Nat) (cstat : Word) (dstat detail : Nat) : State :=
  match (s.sub n).prog.phase with
  | .sluice => deviceEnd s n cstat dstat detail
  | .accepted => s.modSub n fun b => { b with prog := { b.prog with after := some (cstat, dstat, detail) } }
  | _ => s

/-- R216: the Sluice of a standby holds no value of a decided vote; the command still ends at the actuation instant. -/
def holdImage (s : State) (n : Nat) : State :=
  match imageOf s n with
  | some im => s.setSluice (tset s.sluice n { im with entries := [] })
  | none => s

/-- R55, R226: the Sluice has applied the image of subchannel n once no value waits for a period boundary. -/
def sluiceDone (s : State) (n : Nat) : State :=
  match imageOf s n with
  | some im =>
    if im.released && im.waiting = [] then
      let s := dropImage s n
      if im.discarded then endVoted s n 0 dsUnitException 0x0B04 else endVoted s n 0 0 0
    else s
  | none => s

/-- R53, R29: the Sluice releases the pending image of subchannel n. -/
def releaseImage (s : State) (n : Nat) : State :=
  match imageOf s n with
  | none => s
  | some im =>
    let s := im.entries.foldl applyTarget s
    let waits := (im.entries.filter fun e => !tgtBrook e.1 && (s.pin (tgtNum e.1)).pwmHold.isSome).map fun e => tgtNum e.1
    let im := (imageOf s n).getD im
    sluiceDone (s.setSluice (tset s.sluice n { im with entries := [], released := true, waiting := waits })) n

/-! ### Exclusion (R231 to R233) -/

/-- VOTE_EXCL_LOG takes an exclusion while it holds no valid record. -/
def logExclusion (s : State) (p reason sub : Nat) : State :=
  if bitOf s.vote.exclLog 31 then s
  else s.modVote fun u => { u with
    exclLog := pack [(0, 2, p), (4, 4, reason), (8, 12, sub), (31, 1, 1)], exclTime := s.now }

/-- R232: some output a subchannel owns is not at its safe state. -/
def ownsLive (s : State) (n : Nat) : Bool :=
  (List.range 96).any (fun p => pinOwner s p == some n && isOutMode (pinMode s p) && !(s.pin p).atSafe)
    || (brookOwned s n).any fun p => s.brookOut p != brookSafeValue s p

/-- R232: this member is excluded. -/
def excludeSelf (s : State) (reason sub : Nat) : State :=
  if s.vote.st = .excluded ∨ s.vote.st = .down ∨ s.vote.st = .forming then s
  else
    let p := myPos s
    let live := (s.subs.filter fun x => x.2.attr.valid && ownsLive s x.1).map (·.1)
    let voting := (s.vote.votes.filter fun v => v.own.isSome).map fun v => v.key.sub
    let s := logExclusion s p reason sub
    let s := ctlAll s (mkCtl 3 (p + 16 * reason) 0)
    let s := s.modVote fun u => { u with
      st := .excluded, votes := [], quorumLostAt := none, ofsBadAt := none, hold := none,
      rejoin := { step := 0, result := u.rejoin.result, attempts := u.rejoin.attempts } }
    let s := safeAll s true
    let s := voting.foldl (fun s n => endVoted (discardImage s n) n csVoteFault 0 0x0B03) s
    let s := (live.filter fun n => !(voting.contains n)).foldl (fun s n =>
      postCsw s n (unsolRing s n) (mkCsw s n 0x04 0 0 csVoteFault 0 0x0B03 0 {})) s
    raiseEvent s Config.srcVote

/-- R219: the FIRST cycle of the own digest: its send cycle, or before that the first cycle that begins at least 4 ns after
it is ready. -/
def ownFirstOf (v : Vote) : Nat := v.ownFirst.getD ((v.ready.toNat + 4 + 63) / 64)

/-- R220 to R223: the digest a position holds in a vote. -/
def digestOf (s : State) (v : Vote) (p : Nat) : Option VAns :=
  if p = myPos s then v.own.map fun d => { pos := p, digest := some d, first := ownFirstOf v }
  else v.ans.find? fun a => a.pos == p

/-- R222: the window's opening cycle. -/
def windowOpen (v : Vote) : Option Nat :=
  let fs := (match v.own, v.ownFirst with
    | some _, some c => [c]
    | _, _ => []) ++ (v.ans.filter fun a => a.digest.isSome).map (·.first)
  match fs with
  | [] => none
  | f :: rest => some (rest.foldl Nat.min f)

/-- R220: what the digests held decide; `closed` at the window's close. -/
def verdictOf (s : State) (v : Vote) (closed : Bool) : Option Verdict :=
  let c := (windowOpen v).getD (cycNow s)
  let ends := c * 64 + voteWin s
  let exp := (List.range 4).filter (expected s)
  let ans := exp.filterMap fun p => (digestOf s v p).filter fun a => !closed || a.digest.isNone || decide (a.first * 64 < ends)
  let missing := exp.filter fun p => !(ans.any fun a => a.pos == p)
  let voters := exp.filter fun p => isVoter s p c
  let vals := (ans.filter fun a => voters.contains a.pos).filterMap (·.digest)
  let absent := (ans.filter fun a => voters.contains a.pos && a.digest.isNone).length
  let missV := (missing.filter fun p => voters.contains p).length
  let count (d : DWord) : Nat := (vals.filter (· == d)).length
  let best := vals.foldl (fun a d => Nat.max a (count d)) 0
  let winner := vals.find? fun d => decide (quorum s ≤ count d)
  match winner with
  | some d => if missing = [] ∨ closed then some (.apply d) else none
  | none =>
    if quorum s ≤ best + missV then
      if closed then some .timeout else if missing = [] then some .disagree else none
    else if quorum s ≤ best + missV + absent then some .timeout
    else some .disagree

/-- R223: the actuation instant of a decision taken now. -/
def actInstant (s : State) (v : Vote) (closed : Bool) : DWord × Bool :=
  let c := if closed then ((windowOpen v).getD (cycNow s) * 64 + voteWin s - 1) / 64
    else
      let fs := (if v.own.isSome then [ownFirstOf v] else []) ++ (v.ans.filter fun a => a.digest.isSome).map (·.first)
      fs.foldl Nat.max 0
  let t := c * 64 + s.vote.actOfs
  if t < s.now.toNat + 10 ∧ !closed then (BitVec.ofNat 64 (s.now.toNat + 10), true) else (BitVec.ofNat 64 t, false)

/-- The cycle of the digest a position holds in a vote, absent answers apart. -/
def digestFirst (s : State) (v : Vote) (p : Nat) : Option Nat :=
  match digestOf s v p with
  | some { pos := _, digest := some _, first := f } => some f
  | _ => none

/-- R231: a decided key is kept, at most 4,096 of them, the oldest overwritten first (R225). -/
def keepDecision (s : State) (v : Vote) (r : Verdict) : State :=
  let d : DecRec := { key := v.key, verdict := r, time := s.now, win := (windowOpen v).getD (cycNow s),
                      seen := (List.range 4).filter fun p => (digestFirst s v p).isSome }
  s.modVote fun u => { u with dec := (u.dec ++ [d]).drop (u.dec.length + 1 - 4096) }

/-- VOTE_LAG: position p's digest left in cycle f, the first one of its key in cycle c (R235). -/
def noteLag (s : State) (p f c : Nat) : State :=
  s.modVote fun u => { u with lags := setNth u.lags p (((f - c) * 64 :: nth [] u.lags p).take 1024) }

/-- VOTE_LAG: a decided vote gives each position's lag behind the first digest (R235). -/
def noteLags (s : State) (v : Vote) : State :=
  match windowOpen v with
  | none => s
  | some c =>
    (List.range 4).foldl (fun s p => match digestFirst s v p with
      | some f => noteLag s p f c
      | none => s) s

/-- R235: a digest of position p that comes after its key's decision enters VOTE_LAG once. -/
def lateLag (s : State) (d : DecRec) (p f : Nat) : State :=
  if d.seen.contains p then s
  else (noteLag s p f d.win).modVote fun u => { u with
    dec := u.dec.map fun x => if x.key == d.key then { x with seen := p :: x.seen } else x }

/-- R233: another member has left service; an active of 2oo2+standby is replaced by the lowest standby in service, for keys
from two cycles after the notice on. -/
def leaveService (s : State) (p notice : Nat) : State :=
  let was := viewOf s p
  if p = myPos s || was == 4 then s
  else
    let s := setView s p 4
    if voteMode s = 3 ∧ was = 2 then
      match (List.range 4).find? fun q => isMember s q && viewOf s q == 3 with
      | some q =>
        let s := s.modVote fun u => { u with promo := u.promo ++ [(q, notice + 2)] }
        if q = myPos s then s.modVote fun u => { u with st := .inService } else setView s q 2
      | none => s
    else s

/-- R231: this member detects the exclusion of a position and announces it. -/
def exclude (s : State) (p reason sub : Nat) : State :=
  if p = myPos s then excludeSelf s reason sub
  else if viewOf s p = 4 then s
  else leaveService (logExclusion (ctlAll s (mkCtl 3 (p + 16 * reason) 0)) p reason sub) p ((s.now.toNat + 63) / 64)

/-- The open vote of a key. -/
def voteOf (s : State) (k : VKey) : Option Vote := s.vote.votes.find? fun v => v.key == k
/-- An open vote changed. -/
def modVoteKey (s : State) (k : VKey) (f : Vote → Vote) : State :=
  s.modVote fun u => { u with votes := u.votes.map fun v => if v.key == k then f v else v }
/-- An open vote removed. -/
def dropVote (s : State) (k : VKey) : State :=
  s.modVote fun u => { u with votes := u.votes.filter fun v => v.key != k }

/-- VOTE_DECIDE (R220 to R223): a decision, its LATE counts, its exclusions and its actuation instant. -/
def decide1 (s : State) (v : Vote) (closed : Bool) : State :=
  if v.verdict.isSome then s
  else match verdictOf s v closed with
  | none => s
  | some r =>
    let c := (windowOpen v).getD (cycNow s)
    let exp := (List.range 4).filter (expected s)
    let has (p : Nat) : Bool := (digestOf s v p).isSome
    let counts (p : Nat) : Bool := ((digestOf s v p).bind (·.digest)).isSome
    let lateSet := match r with
      | .apply _ => if closed then exp.filter fun p => !has p else []
      | .timeout => exp.filter fun p => isVoter s p c && !has p
      | .disagree => []
    let s := keepDecision s v r
    let s := noteLags s v
    let s := s.modVote fun u => match r with
      | .apply _ => { u with cntApply := u.cntApply + 1 }
      | .disagree => { u with cntFault := u.cntFault + 1 }
      | .timeout => { u with cntTmo := u.cntTmo + 1 }
    let s := exp.foldl (fun s p =>
      if counts p then s.modVote fun u => { u with late := setNth u.late p 0 }
      else if lateSet.contains p then s.modVote fun u => { u with late := setNth u.late p (satInc 255 (nth 0 u.late p)) }
      else s) s
    let (t, isLate) := actInstant s v closed
    let applies := match r with
      | .apply d => v.own == some d
      | _ => false
    let s := if isLate && applies then s.modVote fun u => { u with cntLate := u.cntLate + 1 } else s
    let s := if s.vote.st = .standby ∧ v.own.isSome then holdImage s v.key.sub else s
    let s := if v.own.isSome then modVoteKey s v.key fun x => { x with verdict := some r, tAct := t } else dropVote s v.key
    let minority := match r with
      | .apply d => exp.filter fun p => match digestOf s v p with
        | some { pos := _, digest := some x, first := _ } => x != d
        | _ => false
      | .disagree =>
        if voteMode s = 3 then
          let act := exp.filter fun p => isVoter s p c
          let sby := exp.filter fun p => !isVoter s p c
          let val (p : Nat) : Option DWord := (digestOf s v p).bind (·.digest)
          act.filter fun p => (val p).isSome &&
            act.any fun q => q != p && val p != val q && sby.any fun b => (val b).isSome && val b == val q
        else []
      | .timeout => []
    let s := minority.foldl (fun s p => exclude s p 1 v.key.sub) s
    exp.foldl (fun s p => if lateMax s ≤ nth 0 s.vote.late p && lateSet.contains p then exclude s p 2 v.key.sub else s) s

/-- Every open vote is looked at once. -/
def decideAll (s : State) : State := s.vote.votes.foldl (fun s v =>
  match voteOf s v.key with
  | some v => decide1 s v false
  | none => s) s

/-- R233: open votes are decided again with the members now expected, and again when that excludes a member. -/
def redecide (s : State) : State :=
  let s' := decideAll s
  if s'.vote.view = s.vote.view then s' else decideAll (decideAll s')

/-- R220, R233: a vote is looked at; an exclusion decides the other open votes again. -/
def decideKey (s : State) (k : VKey) : State :=
  match voteOf s k with
  | some v =>
    let s' := decide1 s v false
    if s'.vote.view = s.vote.view then s' else redecide s'
  | none => s

/-- R228: the votes that this member holds open. -/
def openVotes (s : State) : Nat := (s.vote.votes.filter fun v => v.own.isSome && v.verdict.isNone).length

/-- R225, R231, R235: a partner's digest comes after the decision of its key: its lag, and its exclusion when it differs from
the value applied. -/
def lateAnswer (s : State) (d : DecRec) (a : VAns) : State :=
  match a.digest with
  | none => s
  | some x =>
    let s := lateLag s d a.pos a.first
    match d.verdict with
    | .apply w => if x = w then s else redecide (exclude s a.pos 1 d.key.sub)
    | _ => s

/-- An answer of a partner enters the vote of its key, unless the key is already decided. -/
def takeAnswer (s : State) (k : VKey) (a : VAns) : State :=
  match s.vote.dec.find? fun d => d.key == k with
  | some d => lateAnswer s d a
  | none =>
    let s := if (voteOf s k).isSome then s else s.modVote fun u => { u with votes := u.votes ++ [{ key := k }] }
    decideKey (modVoteKey s k fun v => { v with ans := (v.ans.filter fun x => x.pos != a.pos) ++ [a] }) k

/-! ### Frames (R208 to R210) -/

/-- A digest record of this member for a link, when the vote is still open. -/
def digestRec (s : State) (k : VKey) : Option CflRec :=
  match voteOf s k with
  | some v => v.own.map fun d => mkRec 1 k false (ownFirstOf v % 16384) d
  | none => none

/-- R142, R237: the context record as the transfer carries it; its working state has no layout: free values. -/
def contextBytes (s : State) (n : Nat) : State × List Byte :=
  let (s, mid) := foldN 128 (fun (r : State × List Byte) _ =>
    let (s, v) := r.1.free
    (s, r.2 ++ [v.setWidth 8])) (s, [])
  (s, wordsBytes (contextWords s n) ++ mid ++
    padTo 0 64 (((s.sub n).held.take 2).flatMap fun h => wordsBytes (cswWords h.csw)))

/-- R237 step 3: the subchannel the donor holds at its next command boundary. -/
def holdForTransfer (s : State) (h : Option Nat) : State :=
  s.modVote fun u => { u with rejoin := { u.rejoin with holdSub := h } }

/-- R237: the next bytes of the transfer stream of a donor; a subchannel that is neither IDLE nor inside a WAITEV is held at
its next command boundary until they have left. -/
def xferMore (s : State) : State :=
  let r := s.vote.rejoin
  match r.items with
  | [] => s
  | .blocks a len :: rest =>
    let s := holdForTransfer s none
    let hdr := wordsBytes [pack [(0, 8, 1), (8, 24, 256)], BitVec.ofNat 32 (a / 256)]
    let left := if 256 < len then [XferItem.blocks (a + 256) (len - 256)] else []
    s.modVote fun u => { u with rejoin := { u.rejoin with items := left ++ rest, bytes := r.bytes ++ hdr ++ peekMem s a 256 } }
  | .sub n :: rest =>
    let b := s.sub n
    let boundary := b.prog.phase == .fetch
    let ready := !(b.st == .active || b.st == .haltPending) || b.prog.phase == .waitev || boundary
    if !ready then holdForTransfer s (some n)
    else
      let s := holdForTransfer s (if boundary then some n else none)
      let hdr := wordsBytes [pack [(0, 8, 2), (8, 24, 272)], BitVec.ofNat 32 n]
      let (s, ctx) := contextBytes s n
      let dg := ((s.vote.votes.find? fun v => v.key.sub == n).bind (·.own)).getD 0
      let tail := wordsBytes [pack [(0, 16, b.aslot.toNat)], BitVec.ofNat 32 dg.toNat, BitVec.ofNat 32 (dg.toNat / 2 ^ 32), 0]
      s.modVote fun u => { u with rejoin := { u.rejoin with
        items := rest, bytes := r.bytes ++ hdr ++ ctx ++ tail } }
  | .endStep k :: rest =>
    let s := holdForTransfer s none
    let hdr := wordsBytes [pack [(0, 8, 3)], BitVec.ofNat 32 k]
    s.modVote fun u => { u with rejoin := { u.rejoin with items := rest, bytes := r.bytes ++ hdr } }

/-- A transfer record with the next 12 bytes of the stream, when there are any. -/
def xferRec (s : State) : State × List CflRec :=
  let s := if s.vote.rejoin.bytes.length < 12 then xferMore s else s
  let r := s.vote.rejoin
  let n := r.bytes.length
  if n = 0 || (n < 12 && r.items != []) then (s, [])
  else
    let p := padTo 0 12 r.bytes
    (s.modVote fun u => { u with rejoin := { u.rejoin with bytes := r.bytes.drop 12, seq := (r.seq + 1) % 65536 } },
      [{ w0 := pack [(0, 16, r.seq), (17, 3, 4)], w1 := wordAt p 0, w2 := wordAt p 1, w3 := wordAt p 2 }])

/-- R208, R219: one link's frame of this cycle. -/
def sendLink (s : State) (k : Nat) : State :=
  let c := s.cfl k
  if c.st ≠ 2 then s
  else
    let cyc := cycNow s
    let ripe := c.digQ.filter fun key => match voteOf s key with
      | some v => v.ready.toNat + 4 ≤ cyc * 64
      | none => false
    let now4 := ripe.take 4
    let s := now4.foldl (fun s key => modVoteKey s key fun v => { v with
      ownFirst := some (v.ownFirst.getD cyc),
      sends := if v.sends.any (·.1 == k) then v.sends else v.sends ++ [(k, cyc)] }) s
    let digs := now4.filterMap (digestRec s)
    let ech := c.echoQ.take 4
    let room := 8 - digs.length - ech.length
    let ctl := c.ctlQ.take room
    let serving := match s.vote.rejoin.joiner with
      | some p => posLink s p == k
      | none => false
    let (s, xf) := if serving && ctl.length < room then xferRec s else (s, [])
    let extra := stampCtl (cyc * 64) c.ctlSeq ctl ++ xf
    let fr : CflFrame := {
      cyc := cyc, pos := myPos s, mstate := mstCode s.vote.st, lock := s.vote.lock,
      view := (List.range 4).foldl (fun a p => a + viewOf s p * 16 ^ p) 0,
      uplinks := (List.range 4).foldl (fun a p => a + (if reaches s p then 2 ^ p else 0)) 0,
      hash := s.reg (Reg.voteHash (cyc % 8)),
      digests := digs ++ extra.take (4 - digs.length), echoes := ech ++ extra.drop (4 - digs.length) }
    s.modCfl k fun c => { c with
      digQ := c.digQ.filter fun key => !(now4.contains key) && (voteOf s key).isSome,
      echoQ := c.echoQ.drop 4, ctlQ := c.ctlQ.drop room, ctlSeq := (c.ctlSeq + ctl.length) % 65536, tx := some fr }

/-- CFL_FRAME_SEND (R208): with each new cycle every UP link sends its frame, at the first value of the timebase in the cycle
(log entry 65); nothing in a power loss (R263). -/
def cflFrameSend (s : State) : State :=
  if s.vote.sentCyc == some (cycNow s) || s.cu.pl != .none then s
  else foldN 3 sendLink (s.modVote fun u => { u with sentCyc := some (cycNow s) })

/-- The rejoin of this donor or joiner ends. -/
def endRejoin (s : State) (result : Nat) : State :=
  s.modVote fun u => { u with rejoin := { step := 0, result := result, attempts := u.rejoin.attempts } }

/-- R231, R232, R236: the rejoin of this joiner has failed: reason 9, its notice, its log and the vote source. -/
def failRejoin (s : State) (result : Nat) : State :=
  let s := (endRejoin s result).modVote fun u => { u with st := .excluded }
  raiseEvent (ctlAll (logExclusion s (myPos s) 9 0) (mkCtl 3 (myPos s + 16 * 9) 0)) Config.srcVote

/-- R236, R237: the donor refuses or gives up the rejoin of the far end of link k. No control code says so: its notice of
reason 9 that names the joiner does (DESIGN CHOICE, log entry 62). -/
def refuseJoiner (s : State) (k : Nat) : State :=
  s.modCfl k fun c => { c with ctlQ := c.ctlQ ++ [mkCtl 3 (linkPos s k + 16 * 9) 0] }

/-- R236: a rejoin begins in this member. -/
def startRejoin (s : State) : State :=
  if s.vote.st ≠ .excluded then s
  else match referencePos s with
  | none => s
  | some p =>
    if !reaches s p then s
    else
      let k := posLink s p
      if (s.cfl k).off < 0 then failRejoin (s.modCfl k fun c => { c with st := 3, err := 5 }) 1
      else
        let s := s.modVote fun u => { u with st := .rejoining, rejoin := { step := 1 } }
        s.modCfl k fun c => { c with ctlQ := c.ctlQ ++ [mkCtl 1 0 0] }

/-- R209, R233, R237: link k carries nothing any more: a rejoin over it fails, and open votes no longer expect its far end. -/
def linkLoss (s : State) (k : Nat) : State :=
  let p := linkPos s k
  let lost := s.vote.rejoin.step != 0 &&
    (s.vote.rejoin.joiner == some p || (s.vote.st == .rejoining && referencePos s == some p))
  let s := if lost then
      if s.vote.st = .rejoining then failRejoin s 3 else (endRejoin s 3).modVote fun u => { u with hold := none }
    else s
  noteHealth (redecide s)

/-- CFL_FRAME_RECEIVE (R209, R210, R211, R231): CRC, position and hash; the header's view; the records wait for their own
commands. -/
def cflFrameReceive (s : State) (k : Nat) (f : CflFrame) : State :=
  let c := s.cfl k
  if c.st ≠ 2 then s
  else if !f.crcOk then s.modCfl k fun c => { c with crc := satInc 0xFFFF c.crc }
  else if f.pos ≠ linkPos s k then linkLoss (s.modCfl k fun c => { c with st := 3, err := 2, peerPos := f.pos % 4 }) k
  else if f.hash ≠ s.reg (Reg.voteHash (f.cyc % 8)) then linkLoss (s.modCfl k fun c => { c with st := 3, err := 1 }) k
  else
    let p := f.pos
    let off : Int := (f.cyc * 64 + c.rttLast / 2 : Nat) - (s.now.toNat : Int)
    let s := s.modCfl k fun c => { c with
      peerPos := p, lastValid := s.now, cyc := f.cyc, uplinks := f.uplinks, ofs := BitVec.ofInt 16 off, off := off,
      rx := c.rx ++ (f.digests ++ f.echoes).filter knownRec }
    let old := viewOf s p
    let s := if old = 4 ∧ (f.mstate = 2 ∨ f.mstate = 3) then s
      else if (old = 2 ∨ old = 3) ∧ f.mstate = 4 then leaveService s p f.cyc
      else setView s p (f.mstate % 8)
    let s := if f.lock && (old == 2 || old == 3) then exclude s p 5 0 else s
    let s := if s.vote.st = .forming ∧ s.vote.entry = none ∧ f.mstate = 2 then s.modVote fun u => { u with st := .excluded } else s
    let s := if s.vote.st = .excluded ∧ bitOf (s.reg Reg.voteCfg) 24 ∧ f.mstate = 2 then startRejoin s else s
    noteHealth (redecide s)

/-- The first waiting record of a link, when it is of this type. -/
def nextRec (s : State) (k ty : Nat) : Option CflRec :=
  match (s.cfl k).rx with
  | r :: _ => if r.ty = ty then some r else none
  | [] => none

/-- The first waiting record is taken. -/
def popRec (s : State) (k : Nat) : State := s.modCfl k fun c => { c with rx := c.rx.drop 1 }

/-- This member's own digest for a key. -/
def ownDigest (s : State) (k : VKey) : Option DWord := (voteOf s k).bind (·.own)

/-- DIGEST (R219, R220, R227): dropped when stale, answered absent when FENCED, otherwise echoed and held. -/
def digestEffect (s : State) (k : Nat) : State :=
  match nextRec s k 1 with
  | none => s
  | some r =>
    let s := popRec s k
    let key := r.key
    let first := fullFirst s r.first
    match dropStale s key.sub key.gen (BitVec.ofNat 64 (first * 64)) 2 with
    | some s' => s'
    | none =>
      if (s.sub key.sub).st = .fenced then
        s.modCfl k fun c => { c with echoQ := c.echoQ ++ [mkRec 3 key false r.first 0] }
      else
        let own := ownDigest s key
        let s := s.modCfl k fun c => { c with echoQ := c.echoQ ++ [mkRec 2 key own.isSome r.first (own.getD 0)] }
        takeAnswer s key { pos := linkPos s k, digest := some r.value, first := first }

/-- ECHO (R219): the partner has the digest; with OWN = 1 its own digest comes with it. -/
def echoEffect (s : State) (k : Nat) : State :=
  match nextRec s k 2 with
  | none => s
  | some r =>
    let s := popRec s k
    let key := r.key
    let first := fullFirst s r.first
    match dropStale s key.sub key.gen (BitVec.ofNat 64 (first * 64)) 2 with
    | some s' => s'
    | none =>
      let p := linkPos s k
      let s := modVoteKey s key fun v => { v with echoed := if v.echoed.contains p then v.echoed else v.echoed ++ [p] }
      if r.own && !((voteOf s key).any fun v => v.ans.any fun a => a.pos == p) then
        takeAnswer s key { pos := p, digest := some r.value, first := first }
      else s

/-- ABSENT (R219, R227): the partner's subchannel is FENCED. -/
def absentEffect (s : State) (k : Nat) : State :=
  match nextRec s k 3 with
  | none => s
  | some r =>
    let s := popRec s k
    let key := r.key
    let p := linkPos s k
    let s := modVoteKey s key fun v => { v with echoed := if v.echoed.contains p then v.echoed else v.echoed ++ [p] }
    takeAnswer s key { pos := p, digest := none, first := fullFirst s r.first }

/-! ### Joining (R211 to R213, R223) -/

/-- R223: ACT_OFS from the links measured. -/
def ownActOfs (s : State) : Nat × Nat × Nat :=
  let ups := (List.range 3).filter fun k => (s.cfl k).st == 2
  let rtt := ups.foldl (fun a k => Nat.max a (s.cfl k).rttMax) 0
  let jit := ups.foldl (fun a k => Nat.max a ((s.cfl k).rttMax - (s.cfl k).rttMin)) 0
  let o := rtt + 10 + Nat.min jit 10
  (o + o % 2, rtt, jit)

/-- The voters among positions at formation. -/
def votersOf (s : State) (ps : List Nat) : Nat := (ps.filter fun p => isMember s p && !isStby s p).length

/-- R212: two other members see one another on an UP link, as their headers' UPLINKS tell. -/
def seeEachOther (s : State) (p q : Nat) : Bool :=
  p == myPos s || q == myPos s || ((s.cfl (posLink s p)).uplinks.testBit q && (s.cfl (posLink s q)).uplinks.testBit p)

/-- R212: the set of this member and the members whose requests are in, as far as they see one another. -/
def formingSet (s : State) : List Nat :=
  let asks := (List.range 4).filter fun p => s.vote.joinSeen.contains p && reaches s p
  let set := asks.foldl (fun ps p => if ps.all (seeEachOther s p) then ps ++ [p] else ps) [myPos s]
  (List.range 4).filter set.contains

/-- R213: the largest timebase of a set, as far ahead of this member's as its links say. -/
def aheadOf (s : State) (ps : List Nat) : Int :=
  ps.foldl (fun (a : Int) p => if reaches s p then max a (s.cfl (posLink s p)).off else a) 0

/-- R212: the lowest position of a set that holds quorum names the entry cycle in a join accept. -/
def tryAccept (s : State) : State :=
  let ps := formingSet s
  if s.vote.st = .forming ∧ s.vote.entry = none ∧ quorum s ≤ votersOf s ps ∧ ps.head? = some (myPos s) then
    let (ofs, rtt, jit) := ownActOfs s
    let entry := (s.now.toNat + (aheadOf s ps).toNat) / 64 + 16
    let s := s.modVote fun u => { u with entry := some entry, formSet := ps, actOfs := ofs, rttMax := rtt, jit := jit }
    (ps.filter (· != myPos s)).foldl (fun s p =>
      s.modCfl (posLink s p) fun c => { c with ctlQ := c.ctlQ ++ [mkCtl 2 ofs entry] }) s
  else s

/-- R237: the transfer items of the composite regions. -/
def regionItems (s : State) : List XferItem :=
  (List.range 16).filterMap fun k =>
    if bitOf (s.reg (Reg.voteRegionSize k)) 31 then
      some (.blocks (fld (s.reg (Reg.voteRegionBase k)) 23 0 * 4096) (fld (s.reg (Reg.voteRegionSize k)) 19 0 * 4096))
    else none

/-- R236: the donor refuses a join request over link k: the joiner is ahead, ACT_OFS would have to grow, or another rejoin is
in progress. -/
def refusesJoin (s : State) (k : Nat) : Bool :=
  decide ((s.cfl k).off > 0) || decide (s.vote.actOfs < (ownActOfs s).1) || s.vote.rejoin.step != 0

/-- JOIN_REQUEST (R212, R236, R237 step 1): formation, or the donor accepts or refuses a rejoin. -/
def joinRequest (s : State) (k : Nat) : State :=
  match nextRec s k 5 with
  | none => s
  | some r =>
    if r.code ≠ 1 then s
    else
      let s := popRec s k
      let p := linkPos s k
      match s.vote.st with
      | .forming =>
        if s.vote.entry.isSome then s
        else
          let s := s.modVote fun u => { u with joinSeen := if u.joinSeen.contains p then u.joinSeen else u.joinSeen ++ [p] }
          tryAccept s
      | .inService =>
        if referencePos s ≠ some (myPos s) then s
        else if refusesJoin s k then refuseJoiner s k
        else
          let s := s.modVote fun u => { u with rejoin := {
            step := 2, joiner := some p, items := regionItems s ++ [.endStep 2] } }
          s.modCfl k fun c => { c with ctlQ := c.ctlQ ++ [mkCtl 2 s.vote.actOfs (cycNow s)] }
      | _ => s

/-- R212, R223: a member of the set takes the entry cycle and reports its own ACT_OFS in a join accept of its own, so that
every member holds the largest (log entry 62). -/
def takeEntry (s : State) (k ofs entry : Nat) : State :=
  let (own, rtt, jit) := ownActOfs s
  let set := formingSet s
  let set := if set.contains (linkPos s k) then set else set ++ [linkPos s k]
  let s := s.modVote fun u => { u with
    entry := some entry, formSet := set, actOfs := Nat.max own ofs, rttMax := rtt, jit := jit }
  set.foldl (fun s p => if reaches s p then
    s.modCfl (posLink s p) fun c => { c with ctlQ := c.ctlQ ++ [mkCtl 2 (Nat.max own ofs) entry] } else s) s

/-- JOIN_ACCEPT (R212, R213, R223, R237 step 1). -/
def joinAccept (s : State) (k : Nat) : State :=
  match nextRec s k 5 with
  | none => s
  | some r =>
    if r.code ≠ 2 then s
    else
      let s := popRec s k
      let ofs := fld r.w1 15 8
      match s.vote.st with
      | .forming =>
        match s.vote.entry with
        | none => takeEntry s k ofs r.value.toNat
        | some e => if r.value.toNat = e then s.modVote fun u => { u with actOfs := Nat.max u.actOfs ofs } else s
      | .rejoining =>
        if s.vote.rejoin.step ≠ 1 then s
        else
          let o := (s.cfl k).off
          if o < 0 then linkLoss (failRejoin (s.modCfl k fun c => { c with st := 3, err := 5 }) 1) k
          else if ofs < (ownActOfs s).1 then failRejoin s 1
          else
            let s := s.setNow (BitVec.ofNat 64 (s.now.toNat + o.toNat))
            s.modVote fun u => { u with actOfs := ofs, rejoin := { u.rejoin with step := 2 } }
      | _ => s

/-- FORMATION_ENTRY (R211 to R213): at the entry cycle the set enters service, the timebase stepped to the largest. -/
def formationEntry (s : State) : State :=
  match s.vote.st, s.vote.entry with
  | .forming, some e =>
    let most := aheadOf s s.vote.formSet
    if (s.now.toNat + most.toNat) / 64 < e then s
    else
      let s := s.setNow (BitVec.ofNat 64 (s.now.toNat + most.toNat))
      let set := s.vote.formSet
      let s := set.foldl (fun s p => setView s p (if isStby s p then 3 else 2)) s
      s.modVote fun u => { u with st := if isStby s (myPos s) then .standby else .inService, entry := none, joinSeen := [] }
  | _, _ => s

/-- EXCLUSION_NOTICE (R231 to R233, R236): one of reason 9 that names this joiner ends its rejoin. -/
def exclusionNotice (s : State) (k : Nat) : State :=
  match nextRec s k 5 with
  | none => s
  | some r =>
    if r.code ≠ 3 then s
    else
      let s := popRec s k
      let p := fld r.w1 9 8
      let reason := fld r.w1 15 12
      let s := if p = myPos s then
          if s.vote.st = .rejoining ∧ reason = 9 then failRejoin s (if s.vote.rejoin.step = 1 then 1 else 2)
          else excludeSelf s reason 0
        else leaveService (logExclusion s p reason 0) p (s.cfl k).cyc
      noteHealth (redecide s)

/-- REJOIN_DONE (R211, R237 step 6, R238). -/
def rejoinDone (s : State) (k : Nat) : State :=
  match nextRec s k 5 with
  | none => s
  | some r =>
    if r.code ≠ 4 then s
    else
      let s := popRec s k
      let p := fld r.w1 9 8
      let newSt := if voteMode s = 3 then 3 else 2
      let s := if p = myPos s then
          if s.vote.st = .rejoining then
            let s := endRejoin s 0
            s.modVote fun u => { u with st := if voteMode s = 3 then .standby else .inService, votes := [] }
          else s
        else setView s p newSt
      noteHealth (raiseEvent s Config.srcVote)

/-- HOLD (R237 step 5): commit requests are held for a number of cycles. -/
def holdEffect (s : State) (k : Nat) : State :=
  match nextRec s k 5 with
  | none => s
  | some r =>
    if r.code ≠ 5 then s
    else (popRec s k).modVote fun u => { u with hold := some (cycNow s + fld r.w1 31 8) }

/-- RELEASE (R237 step 5). -/
def releaseEffect (s : State) (k : Nat) : State :=
  match nextRec s k 5 with
  | none => s
  | some r => if r.code ≠ 6 then s else (popRec s k).modVote fun u => { u with hold := none }

/-! ### Links (R207, R209, R210) -/

/-- CFL_LINK_UP (R207, R210, R223): the wiring, MODE and MEMBERS, hash and round-trip checks, then UP. -/
def cflLinkUp (s : State) (k pos mode members : Nat) (hash : List Word) (rttLast rttMin rttMax : Nat) : State :=
  if !cflEnabled s k || (s.cfl k).st == 2 || (s.cfl k).st == 3 then s
  else
    let own := (List.range 8).map fun j => s.reg (Reg.voteHash j)
    let err := if pos ≠ linkPos s k then 2
      else if mode ≠ voteMode s ∨ members ≠ fld (s.reg Reg.voteCfg) 7 4 then 4
      else if hash ≠ own then 1
      else if 126 < rttMax ∨ 10 < rttMax - rttMin then 3
      else 0
    let s := s.modCfl k fun c => { c with
      st := if err = 0 then 2 else 3, err := if err = 0 then c.err else err, peerPos := pos, rttLast := rttLast,
      rttMin := rttMin, rttMax := rttMax, lastValid := s.now, rx := [], digQ := [], echoQ := [], ctlQ := [] }
    let s := if err = 0 ∧ s.vote.st = .forming then
        s.modCfl k fun c => { c with ctlQ := [mkCtl 1 0 0] }
      else s
    noteHealth s

/-- CFL_LINK_DOWN (R209): no valid frame for 2 µs. -/
def cflLinkDown (s : State) (k : Nat) : State :=
  let c := s.cfl k
  if c.st ≠ 2 ∨ s.now.toNat < c.lastValid.toNat + 2000 then s
  else
    linkLoss (s.modCfl k fun c => { c with
      st := 0, downs := satInc 255 c.downs, rx := [], digQ := [], echoQ := [], ctlQ := [] }) k

/-- CFL_RETRAIN (R210): a FAILED link trains again. -/
def cflRetrain (s : State) (k : Nat) : State :=
  if (s.cfl k).st = 3 then s.modCfl k fun c => { c with st := 1 } else s

/-! ### Time (R219, R222, R225, R231) -/

/-- DIGEST_RESEND (R219 step 4): no echo by RTT_MAX + 64 ns after the send to this partner: the digest waits for the next
cycle's frame on its link, once per cycle; FIRST stays. -/
def digestResend (s : State) (n k : Nat) : State :=
  match s.vote.votes.find? fun v => v.key.sub == n && v.own.isSome && v.ownFirst.isSome && v.verdict.isNone with
  | none => s
  | some v =>
    let c := s.cfl k
    if c.st ≠ 2 || v.echoed.contains (linkPos s k) || c.digQ.contains v.key
        || decide (s.now.toNat < ((tget? v.sends k).getD (v.ownFirst.getD 0)) * 64 + s.vote.rttMax + 64) then s
    else s.modCfl k fun c => { c with digQ := c.digQ ++ [v.key], resend := satInc 255 c.resend }

/-- VOTE_WINDOW_CLOSE (R220, R222): the vote of a subchannel is decided with the digests held. -/
def voteWindowClose (s : State) (n : Nat) : State :=
  let due (v : Vote) : Bool := v.key.sub == n && v.verdict.isNone && (match windowOpen v with
    | some c => decide (c * 64 + voteWin s ≤ s.now.toNat)
    | none => false)
  match s.vote.votes.find? due with
  | none => s
  | some v => noteHealth (redecide (decide1 s v true))

/-- VOTE_RECORD_EXPIRY (R225): decided keys are kept for 1 ms. -/
def voteRecordExpiry (s : State) : State :=
  s.modVote fun u => { u with dec := u.dec.filter fun d => decide (s.now.toNat ≤ d.time.toNat + 1000000) }

/-- QUORUM_LOSS_TIMEOUT (R231 reason 6). -/
def quorumLossTimeout (s : State) : State :=
  match s.vote.quorumLostAt with
  | some t => if t.toNat + 1000000 ≤ s.now.toNat then excludeSelf s 6 0 else s
  | none => s

/-- TIMEBASE_OFFSET_TIMEOUT (R231 reason 7). -/
def timebaseOffsetTimeout (s : State) : State :=
  match s.vote.ofsBadAt with
  | some t => if t.toNat + 100000 ≤ s.now.toNat then excludeSelf s 7 0 else s
  | none => s

/-- LEAVE (R231 reason 8). -/
def leaveEffect (s : State) : State := excludeSelf s 8 0

/-- ACTUATION_INSTANT (R216, R220, R221, R224, R226): the outcome acts on the pending image and ends the command. A DISAGREE
or TIMEOUT keeps its own detail beside the unit exception of a value that a safe move discarded (log entry 62). -/
def actuationInstant (s : State) (n : Nat) : State :=
  match s.vote.votes.find? fun v => v.key.sub == n && v.verdict.isSome && v.own.isSome with
  | none => s
  | some v =>
    if s.now.toNat < v.tAct.toNat || !((s.sub n).prog.phase == .sluice || (s.sub n).prog.phase == .accepted) then s
    else
      let s := dropVote s v.key
      let lost := match imageOf s n with
        | some im => if im.discarded then dsUnitException else 0
        | none => 0
      match v.verdict with
      | some (.apply d) =>
        if s.vote.st = .standby then endVoted (discardImage s n) n 0 0 0
        else if v.own = some d then releaseImage s n
        else endVoted (discardImage s n) n csVoteFault 0 0x0B03
      | some .disagree => endVoted (discardImage s n) n csVoteFault lost 0x0B01
      | some .timeout => endVoted (discardImage s n) n csVoteTimeout lost 0x0B02
      | none => s

/-! ### Digests (R217, R218) -/

/-- Entries in ascending order of bits [15:0]. -/
def insEntry (e : Nat × Nat) : List (Nat × Nat) → List (Nat × Nat)
  | [] => [e]
  | x :: xs => if e.1 ≤ x.1 then e :: x :: xs else x :: insEntry e xs

/-- R217: the digest of a command's output entries. -/
def digestValue (k : VKey) (tag : Nat) (outs : List (Nat × Nat)) : DWord :=
  let sorted := outs.foldr insEntry []
  crc64 (wordsBytes ([pack [(0, 12, k.sub), (12, 4, k.gen), (16, 1, worldBit k.world)],
    pack [(0, 16, tag), (16, 16, k.aslot)], pack [(0, 11, outs.length)]] ++
    sorted.map fun e => pack [(0, 16, e.1), (16, 16, e.2)]))

/-- R219: the own digest of a key waits for the digest slots of every UP link. -/
def sendDigest (s : State) (k : VKey) : State :=
  foldN 3 (fun s l => if (s.cfl l).st = 2 then s.modCfl l fun c => { c with digQ := c.digQ ++ [k] } else s) s

/-- R225: this member reaches a key whose vote has been decided without it. -/
def lateVote (s : State) (k : VKey) (d : DWord) (x : Verdict) : State :=
  let v : Vote := { key := k, own := some d, ready := s.now }
  let s := match s.vote.dec.find? fun e => e.key == k with
    | some e => lateLag s e (myPos s) (ownFirstOf v)
    | none => s
  let add (s : State) (v : Vote) : State := sendDigest (s.modVote fun u => { u with votes := u.votes ++ [v] }) k
  match x with
  | .apply w =>
    if w = d then
      let s := s.modVote fun u => { u with cntLate := u.cntLate + 1 }
      add s { v with verdict := some x, tAct := BitVec.ofNat 64 (ownFirstOf v * 64 + s.vote.actOfs) }
    else exclude (add s v) (myPos s) 1 k.sub
  | _ => add s { v with verdict := some x, tAct := s.now }

/-- R215, R218, R219, R225: the own digest of an accepted voted command enters its vote and every UP link's slots. -/
def openVote (s : State) (k : VKey) (d : DWord) : State :=
  match s.vote.dec.find? fun x => x.key == k with
  | some x => lateVote s k d x.verdict
  | none =>
    let s := if (voteOf s k).isSome then s else s.modVote fun u => { u with votes := u.votes ++ [{ key := k }] }
    let s := modVoteKey s k fun v => { v with own := some d, ready := s.now }
    decideKey (sendDigest s k) k

/-! ### Rejoin (R236 to R239) -/

/-- One complete item at the head of the joiner's stream bytes; a word of KIND 0 fills the last record of a step. -/
def takeItem (bs : List Byte) : Option (Nat × Nat × List Byte × List Byte) :=
  if 4 ≤ bs.length ∧ fld (wordAt bs 0) 7 0 = 0 then some (0, 0, [], bs.drop 4)
  else if bs.length < 8 then none
  else
    let kind := fld (wordAt bs 0) 7 0
    let len := fld (wordAt bs 0) 31 8
    let body := bs.drop 8
    if body.length < len then none
    else some (kind, (wordAt bs 1).toNat, body.take len, body.drop len)

/-- R142: the state that a context record's code names. -/
def codeSubSt (c : Nat) : SubSt :=
  match c with
  | 1 => .startPending
  | 2 => .active
  | 3 => .suspended
  | 4 => .resumePending
  | 5 => .haltPending
  | 6 => .statusPending
  | 7 => .fenced
  | _ => .idle

/-- R89: the CSW that 32 bytes spell. -/
def cswOf (bs : List Byte) : Csw :=
  let w (i : Nat) : Word := wordAt bs i
  { sub := fld (w 0) 11 0, reach := fld (w 0) 16 12, gen := fld (w 0) 20 17,
    world := if bitOf (w 0) 21 then .service else .safety, kind := fld (w 0) 31 24, tag := fld (w 1) 15 0,
    dstat := fld (w 1) 23 16, op := fld (w 1) 31 24, cstat := w 2, resid := fld (w 3) 15 0, detail := fld (w 3) 31 16,
    ccwa := { asel := fld (w 5) 19 16, addr := (w 4).toNat + 2 ^ 32 * fld (w 5) 15 0 },
    time := BitVec.ofNat 64 ((w 6).toNat + 2 ^ 32 * (w 7).toNat) }

/-- R237: a running segment continues in the joiner at its CCW address, inside its WAITEV when that is what stands there;
it competes for a context (log entry 21). -/
def resumeSegment (s : State) (n : Nat) : State :=
  let p := (s.sub n).prog
  let (s, f) := fetchCcw s n p.pos
  let s := s.modSub n fun b => { b with swapEnd := some s.now }
  if f.err.isNone && f.ccw.code == 0x12 then
    s.modSub n fun b => { b with waitAt := s.now, prog := { b.prog with
      phase := .waitev, cur := f.ccw, first := f.ccw,
      wsrc := if f.ccw.arg / 2048 = 1 then none else some (f.ccw.arg % 2048) } }
  else s.modSub n fun b => { b with prog := { b.prog with phase := .fetch, askAt := s.now } }

/-- R237: the joiner installs the context of a subchannel. -/
def installContext (s : State) (n : Nat) (bs : List Byte) : State :=
  let w (i : Nat) : Word := wordAt bs i
  let pair (i : Nat) : DWord := BitVec.ofNat 64 ((w i).toNat + 2 ^ 32 * (w (i + 1)).toNat)
  let st := codeSubSt (fld (w 0) 26 24)
  let stamp := s.q.stamp
  let s := s.modQ fun q => { q with stamp := stamp + 2 }
  let k := ringOfQueue s (fld (w 7) 9 0)
  let held := [48, 56].filterMap fun i =>
    let c := cswOf (bs.drop (4 * i))
    if c.kind = 0 then none else some (HeldCsw.mk k c (stamp + i / 8 - 6))
  let s := s.modSub n fun b => { b with
    st := st, gen := BitVec.ofNat 4 (fld (w 0) 20 17), wmark := pair 8, held := held,
    prog := {
      op := { code := 1, sub := n, tag := fld (w 1) 31 16, queue := fld (w 7) 9 0, parm := pair 12, deadline := pair 14 }
      pos := .mem { asel := fld (w 3) 19 16, addr := (w 2).toNat + 2 ^ 32 * fld (w 3) 15 0 }
      prev := { pos := .mem { asel := fld (w 3) 19 16, addr := (w 2).toNat + 2 ^ 32 * fld (w 3) 15 0 } }
      dver := fld (w 1) 3 0, cnt := fld (w 4) 19 0, resid := fld (w 5) 15 0, cstat := w 6, wdead := pair 10 } }
  match st with
  | .active | .haltPending => resumeSegment s n
  | .startPending | .resumePending =>
    s.modSub n fun b => { b with pend := some { b.prog.op with code := if st = .startPending then 1 else 2 }, arr := stamp }
  | _ => s

/-- R237: the joiner installs one item. -/
def installItem (s : State) (kind arg : Nat) (body : List Byte) : State :=
  if kind = 1 then pokeMem s (arg * 256) body
  else if kind = 2 then
    let s := installContext s (arg % 4096) (body.take 256)
    s.modSub (arg % 4096) fun b => { b with aslot := BitVec.ofNat 16 (ofBytes ((body.drop 256).take 2)) }
  else if kind = 3 then s.modVote fun u => { u with rejoin := { u.rejoin with step := arg + 1 } }
  else s

/-- Complete items at the head of the stream are installed. -/
def installAll : Nat → State → State
  | 0, s => s
  | fuel + 1, s =>
    match takeItem s.vote.rejoin.rx with
    | none => s
    | some (kind, arg, body, rest) =>
      installAll fuel (installItem (s.modVote fun u => { u with rejoin := { u.rejoin with rx := rest } }) kind arg body)

/-- TRANSFER (R237): the joiner takes 12 stream bytes in sequence order. -/
def transferEffect (s : State) (k : Nat) : State :=
  match nextRec s k 4 with
  | none => s
  | some r =>
    let s := popRec s k
    if s.vote.st ≠ .rejoining ∨ fld r.w0 15 0 ≠ s.vote.rejoin.seq then s
    else
      let s := s.modVote fun u => { u with rejoin := { u.rejoin with
        seq := (u.rejoin.seq + 1) % 65536, rx := u.rejoin.rx ++ wordsBytes [r.w1, r.w2, r.w3] } }
      installAll 8 s

/-- R237 steps 3 to 5: every subchannel of the table. -/
def subItems (s : State) : List XferItem := (s.subs.filter fun x => x.2.attr.valid).map fun x => .sub x.1

/-- The dirty blocks as items; new writes are marked again. -/
def dirtyItems (s : State) : List XferItem := s.vote.rejoin.dirty.map fun a => .blocks a 256

/-- REJOIN_STEP_COMPLETE (R237): the donor has sent what its step holds and begins the next. -/
def rejoinStepComplete (s : State) : State :=
  let r := s.vote.rejoin
  match r.joiner with
  | none => s
  | some p =>
    if r.items ≠ [] ∨ r.bytes ≠ [] then s
    else match r.step with
    | 2 => s.modVote fun u => { u with rejoin := { u.rejoin with step := 3, items := subItems s ++ [.endStep 3] } }
    | 3 => s.modVote fun u => { u with rejoin := { u.rejoin with
        step := 4, items := dirtyItems s ++ [.endStep 4], dirty := [] } }
    | 4 =>
      let s := ctlAll s (mkCtl 5 782 0)
      s.modVote fun u => { u with
        hold := some (cycNow s + 782),
        rejoin := { u.rejoin with step := 5, attempts := u.rejoin.attempts + 1, items := dirtyItems s ++ [.endStep 5], dirty := [] } }
    | 5 =>
      let s := ctlAll s (mkCtl 6 0 0)
      let s := ctlAll s (mkCtl 4 p 0)
      let s := s.modVote fun u => { u with hold := none }
      let s := endRejoin s 0
      raiseEvent (setView s p (if voteMode s = 3 then 3 else 2)) Config.srcVote
    | _ => s

/-- REJOIN_HOLD_TIMEOUT (R237): blocks not sent within the hold; steps 4 and 5 repeat, the eighth attempt fails. -/
def rejoinHoldTimeout (s : State) : State :=
  let r := s.vote.rejoin
  match r.joiner, s.vote.hold with
  | some p, some c =>
    if r.step ≠ 5 ∨ cycNow s < c then s
    else
      let s := ctlAll s (mkCtl 6 0 0)
      let s := s.modVote fun u => { u with hold := none }
      if 8 ≤ r.attempts then
        let s := endRejoin s 2
        if reaches s p then refuseJoiner s (posLink s p) else s
      else
        let left := r.items.filter fun x => match x with
          | .endStep _ => false
          | _ => true
        s.modVote fun u => { u with rejoin := { u.rejoin with step := 4, items := left ++ [.endStep 4] } }
  | _, _ => s

end Sys2Proof.Machine
end

