-- ==== Sys2Proof/Machine/Brook.lean ====
section
/-! DEFINITION. Brook links: cycles, process data, positions, training and the shadow receiver (chapter "Brook links and
satellites"). Message exchanges stand in Exchange.lean. -/

namespace Sys2Proof.Machine

/-! ### Configuration -/

/-- R317: further attempts. -/
def bkRetry (s : State) (k : Nat) : Nat := fld (s.reg (Reg.bkCfg k)) 9 8
/-- R312: PD_MISS, where 0 means 3. -/
def bkMiss (s : State) (k : Nat) : Nat :=
  let v := fld (s.reg (Reg.bkCfg k)) 13 10
  if v = 0 then 3 else v
/-- BK_CTL.EN. -/
def bkEnabled (s : State) (k : Nat) : Bool := bitOf (s.reg (Reg.bkCtl k)) 0

/-- A position changed. -/
def modBkPos (s : State) (k p : Nat) (f : BkPos → BkPos) : State :=
  s.modBk k fun b => { b with pos := setNth b.pos p (f (nth {} b.pos p)) }

/-- The source of a link: every change of the link's or a position's state raises it (R328). -/
def bkEvent (s : State) (k : Nat) : State := raiseEvent s (Config.srcBrook + k)

/-- BK_LAST_ERR takes an error while it holds no valid record. -/
def bkLogErr (s : State) (k pos ty seq kind : Nat) : State :=
  s.modBk k fun b => if b.last.valid then b
    else { b with last := { pos := pos, ty := ty, seq := seq, kind := kind, valid := true, time := s.now } }

/-! ### Positions (R312, R313) -/

/-- R312: the output points of a position take their safe value in the module. -/
def bkSafePoints (s : State) (k p : Nat) : State :=
  foldN 64 (fun s i => safeTarget s (32768 + k * 512 + p * 64 + i) false) s

/-- R312: every byte of the position reads VAL 0, GOOD 0, LOST 1. -/
def bkLostBytes (s : State) (k p : Nat) : State :=
  foldN 64 (fun s i =>
    let a := k * 512 + p * 64 + i
    s.setBrookIn a ((s.brookIn a &&& 0xF4#8) ||| 0x08#8)) s

/-- R313: the LOST bit of every byte of the position becomes 0. -/
def bkFoundBytes (s : State) (k p : Nat) : State :=
  foldN 64 (fun s i =>
    let a := k * 512 + p * 64 + i
    s.setBrookIn a (s.brookIn a &&& 0xF7#8)) s

/-- POSITION_LOST (R312, R313). -/
def bkLose (s : State) (k p : Nat) : State :=
  let was := bkPosSt s k p
  let s := modBkPos s k p fun x => { x with st := .lost, miss := 0, fresh := none, val := 0, qual := 0 }
  let s := bkSafePoints s k p
  let s := bkLostBytes s k p
  if was = .online then bkEvent (bkLogErr s k p 0x02 ((s.bk k).cyc % 256) 5) k
  else if was = .ident then bkEvent s k else s

/-- R313: the link leaves UP: LOST, IDENT and ONLINE positions become LOST. -/
def bkLeaveUp (s : State) (k : Nat) : State :=
  foldN 8 (fun s p =>
    match bkPosSt s k p with
    | .online | .ident | .lost => bkLose s k p
    | _ => s) s

/-- R310: SAFE frames: the position is not ONLINE, the member may not drive, or the module is not READY. -/
def bkSafeFrame (s : State) (k p : Nat) : Bool :=
  bkPosSt s k p != .online || !s.ready ||
    (voteMode s != 0 && !(s.vote.st == .inService))

/-! ### Frames (R305, R306) -/

/-- R305: a frame as the link receives it. `crcOk`, `formOk` and `inWindow` tell R306's and R309's conditions on it. -/
structure BkFrame where
  crcOk : Bool := true
  formOk : Bool := true
  inWindow : Bool := true
  pos : Nat := 0
  gen : Nat := 0
  ty : Nat := 0
  seq : Nat := 0
  attn : Bool := false
  busy : Bool := false
  payload : List Byte := []
  deriving DecidableEq, Repr

/-- R305: the bytes of a frame: its words W0 and W1, PARAM, the payload and the CRC over all of them. -/
def bkBytes (w0 w1 : Word) (param : Nat) (payload : List Byte) : List Byte :=
  let body := toBytes 4 w0.toNat ++ toBytes 4 w1.toNat ++ toBytes 2 param ++ payload
  body ++ toBytes 4 (crc32c body).toNat

/-- R319: a frame that is no accepted reply is dropped and counted. -/
def lateFrame (s : State) (k : Nat) (f : BkFrame) : State :=
  bkLogErr (s.modBk k fun b => { b with errLate := if b.errLate = 0xFFFFFFFF#32 then b.errLate else b.errLate + 1 })
    k f.pos f.ty f.seq 3

/-- R308: how long a frame of `len` payload bytes lasts, in ns: 22 bytes beside them, the preamble among them, 80 ns each. -/
def bkFrameTime (len : Nat) : Nat := 80 * (22 + len)

/-- R306: the fields of received bytes. LEN, the reserved fields (W4[31:24] of a PD_IN among them) and DIR decide `formOk`. -/
def bkParse (bs : List Byte) (win : Nat → Bool) : BkFrame :=
  let w0 := wordAt bs 0
  let w1 := wordAt bs 1
  let body := bs.take (bs.length - 4)
  let payload := body.drop 10
  { crcOk := decide (14 ≤ bs.length) && crc32c body == wordAt (bs.drop (bs.length - 4)) 0
    formOk := fld w1 15 0 == payload.length && decide (payload.length ≤ 256) && bitOf w0 3 && !bitOf w0 31 && fld w1 31 28 == 0
      && (fld w0 15 8 != 2 || nth 0 payload 19 == 0)
    inWindow := win (fld w0 2 0), pos := fld w0 2 0, gen := fld w0 7 4, ty := fld w0 15 8, seq := fld w0 23 16, attn := bitOf w0 24
    busy := bitOf w0 25, payload := payload }

/-- R308, R309, R312: the window of position p's PD_IN: 20 µs from the end of its PD_OUT. -/
def pdWindow (s : State) (k : Nat) (begun : DWord) (p : Nat) : Bool :=
  let e := (s.bk k).cyc * 100000 + 5000 * p + bkFrameTime 16
  decide (e ≤ begun.toNat) && decide (begun.toNat ≤ e + 20000)

/-- R308 step 5: when the request of an exchange ends. -/
def requestEnd (e : Exchange) : Nat := e.sentAt.toNat + bkFrameTime e.payload.length

/-- R309: the window of the reply to the outstanding attempt. -/
def replyWindow (s : State) (k : Nat) (begun : DWord) : Bool :=
  match (s.bk k).cur with
  | some e => decide (requestEnd e ≤ begun.toNat) && decide (begun.toNat ≤ requestEnd e + 20000)
  | none => false

/-! ### The link cycle (R308 to R312) -/

/-- The committed values of the points of a position as OUT bits. -/
def bkOutBits (s : State) (k p : Nat) : DWord :=
  foldN 64 (fun (a : DWord) i =>
    if s.brookOut (k * 512 + p * 64 + i) != 0 then a ||| (1#64 <<< i) else a) 0

/-- Symbol errors of the link in its cycle: BK_ERR_SYM counts them and stops at its largest value. -/
def bkSymbols (s : State) (k n : Nat) : State :=
  s.modBk k fun b => { b with errSym := BitVec.ofNat 32 (satAdd 0xFFFFFFFF b.errSym.toNat n) }

/-- BROOK_OUTPUT_LATCH (R308 step 1, R310): at T − 1 µs. Every link runs cycles, whatever its state; only a link that is UP
receives symbols. -/
def brookOutputLatch (s : State) (k syms : Nat) : State :=
  if (s.now.toNat + 1000) % 100000 ≠ 0 then s
  else
    let s := if (s.bk k).link = 2 then bkSymbols s k syms else s
    let v := (List.range 8).map (bkOutBits s k)
    s.modBk k fun b => { b with
      latch := v, cyc := (s.now.toNat + 1000) / 100000, pos := b.pos.map fun x => { x with asked := false, heard := false, fresh := none } }

/-- R305: W0 of a frame to a position. NRDY, SAFE and MPOS of a message frame are those of a PD_OUT (DESIGN CHOICE, log entry
52). -/
def bkDown (s : State) (k p ty seq gen : Nat) (rpt : Bool) : Word :=
  pack [(0, 3, p), (4, 4, gen), (8, 8, ty), (16, 8, seq), (26, 1, b2n (!s.ready)), (27, 1, b2n (bkSafeFrame s k p)), (28, 1, b2n rpt),
    (29, 2, if voteMode s = 0 then 0 else myPos s)]

/-- R310: the payload of a PD_OUT. -/
def pdPayload (s : State) (k p : Nat) : List Byte :=
  let out : DWord := if bkSafeFrame s k p then 0 else nth 0 (s.bk k).latch p
  toBytes 8 out.toNat ++ toBytes 4 (s.bk k).cyc ++ toBytes 4 (voteMode s + 4 * fld (s.reg Reg.voteCfg) 7 4)

/-- PD_OUT (R308 step 2, R310): at T + 5p µs the frame to position p. -/
def pdOut (s : State) (k p : Nat) : State :=
  let b := s.bk k
  if b.link ≠ 2 ∨ !bkConfigured s k p ∨ s.now.toNat ≠ b.cyc * 100000 + 5000 * p then s
  else
    let f := bkBytes (bkDown s k p 0x01 b.cyc 0 false) 16 0 (pdPayload s k p)
    modBkPos (s.modBk k fun b => { b with sent := f }) k p fun x => { x with asked := true }

/-- A word counter that stops at its largest value. -/
def satWord (w : Word) : Word := if w = 0xFFFFFFFF#32 then w else w + 1

/-- R306: a frame counts only with a right CRC and form; a CRC failure is counted. -/
def bkFrameOk (s : State) (k : Nat) (f : BkFrame) : State × Bool :=
  if !f.crcOk then (bkLogErr (s.modBk k fun b => { b with errCrc := satWord b.errCrc }) k f.pos f.ty f.seq 2, false)
  else (s, f.formOk)

/-- R321: control-unit end for the subchannels that met the busy. -/
def bkBusyOver (s : State) (k p : Nat) : State :=
  let subs := (bkPos s k p).busySubs
  let s := modBkPos s k p fun x => { x with busySeen := false, busySubs := [] }
  subs.foldl (fun s n =>
    if (s.sub n).st = .idle then
      postCsw s n (unsolRing s n) (mkCsw s n 0x01 0 0 0 dsControlUnitEnd 0 0 {})
    else s.modSub n fun b => { b with cue := true }) s

/-- PD_IN (R309, R311 to R313, R319 to R321): a fresh frame is kept for the image; ATTN and BUSY act at once. -/
def pdIn (s : State) (k : Nat) (f : BkFrame) : State :=
  let b := s.bk k
  if b.link ≠ 2 then s
  else
    let s := if f.inWindow && bkConfigured s k f.pos then modBkPos s k f.pos fun x => { x with heard := true } else s
    let (s, ok) := bkFrameOk s k f
    if !ok || f.ty != 0x02 then s
    else if !f.inWindow then lateFrame s k f
    else if !bkConfigured s k f.pos then s
    else
      let p := f.pos
      if f.seq != b.cyc % 256 || f.payload.length != 20 then s
      else
        let val : DWord := BitVec.ofNat 64 (ofBytes (f.payload.take 8))
        let qual : DWord := BitVec.ofNat 64 (ofBytes ((f.payload.drop 8).take 8))
        let rose := f.attn && !(bkPos s k p).attn
        let s := modBkPos s k p fun x => { x with fresh := some (val, qual), attn := f.attn }
        let s := if rose then bkEvent (s.modBk k fun b => { b with attn := b.attn ||| 2 ^ p }) k else s
        let s := if !f.busy && (bkPos s k p).busySeen then bkBusyOver s k p else s
        if bkPosSt s k p = .lost then bkEvent (modBkPos s k p fun x => { x with st := .ident, miss := 0 }) k else s

/-- R311: the image byte of a point. VAL and GOOD follow the last fresh PD_IN in every state; LOST says that the position is
not ONLINE. -/
def bkByte (x : BkPos) (online : Bool) (i : Nat) : Byte :=
  BitVec.ofNat 8 (b2n (x.val.getLsbD i) + 2 * b2n (x.qual.getLsbD i) + 4 * b2n x.fresh.isSome + 8 * b2n (!online) + 16 * Nat.min 15 x.age)

/-- R311, R312: one position at T + 62 µs. -/
def bkImagePos (k : Nat) (s : State) (p : Nat) : State :=
  if !bkConfigured s k p then s
  else
    let x := bkPos s k p
    let s := match x.fresh with
      | some (v, q) => modBkPos s k p fun x => { x with val := v, qual := q, miss := 0, age := 0 }
      | none =>
        let s := if x.heard || !x.asked then s
          else bkLogErr (s.modBk k fun b => { b with errTmo := satWord b.errTmo }) k p 0x02 ((s.bk k).cyc % 256) 1
        let s := modBkPos s k p fun x => { x with miss := x.miss + 1, age := satInc 15 x.age }
        if bkMiss s k ≤ (bkPos s k p).miss && (bkPosSt s k p == .online || bkPosSt s k p == .ident) then bkLose s k p else s
    let x := bkPos s k p
    let on := bkPosSt s k p = .online
    foldN 64 (fun s i => s.setBrookIn (k * 512 + p * 64 + i) (bkByte x on i)) s

/-- BROOK_INPUT_IMAGE_WRITE (R311, R312): at T + 62 µs, in a single step per link, whatever its state. -/
def brookInputImageWrite (s : State) (k : Nat) : State :=
  if s.now.toNat ≠ (s.bk k).cyc * 100000 + 62000 then s
  else foldN 8 (bkImagePos k) s

/-! ### Link states and training (R323 to R325) -/

/-- BROOK_SIGNAL_DETECT (R323). -/
def brookSignalDetect (s : State) (k : Nat) : State :=
  let b := s.bk k
  if b.link ≠ 0 || !bkEnabled s k || (b.downAt != 0 && decide (s.now.toNat < b.downAt.toNat + 10000000)) then s
  else bkEvent (s.modBk k fun b => { b with link := 1, trainAt := s.now }) k

/-- BROOK_TRAINING_COMPLETE (R323): trained and 1 ms without symbol error, within 2 ms; the shadow receiver starts over on the new live
traffic (R324). -/
def brookTrainingComplete (s : State) (k eq : Nat) : State :=
  let b := s.bk k
  if b.link ≠ 1 ∨ s.now.toNat < b.trainAt.toNat + 1000000 ∨ b.trainAt.toNat + 2000000 < s.now.toNat then s
  else bkEvent (s.modBk k fun b => { b with link := 2, eqPri := eq, downAt := 0, shadow := 0, lowMs := 0, eyeAt := s.now }) k

/-- BROOK_TRAINING_TIMEOUT (R323): DOWN, retried after 10 ms. -/
def brookTrainingTimeout (s : State) (k : Nat) : State :=
  let b := s.bk k
  if b.link ≠ 1 ∨ s.now.toNat < b.trainAt.toNat + 2000000 then s
  else bkEvent (s.modBk k fun b => { b with link := 0, downAt := s.now }) k

/-- BROOK_LINK_DOWN (R323, R313). -/
def brookLinkDown (s : State) (k syms : Nat) : State :=
  if (s.bk k).link ≠ 2 then s
  else bkEvent (bkLeaveUp ((bkSymbols s k syms).modBk k fun b => { b with link := 0, downAt := 0 }) k) k

/-- BK_RETRAIN (R323, R313). -/
def bkRetrain (s : State) (k : Nat) : State :=
  if (s.bk k).link ≠ 2 then s
  else bkEvent (bkLeaveUp (s.modBk k fun b => { b with link := 1, trainAt := s.now }) k) k

/-- BK_ENABLE (R323): EN := 0 takes the link DOWN. -/
def bkEnable (s : State) (k : Nat) (en : Bool) : State :=
  let s := s.setReg (Reg.bkCtl k) (setBit (s.reg (Reg.bkCtl k)) 0 en)
  if en || (s.bk k).link = 0 then s
  else
    let up := (s.bk k).link = 2
    let s := s.modBk k fun b => { b with link := 0, downAt := 0 }
    bkEvent (if up then bkLeaveUp s k else s) k

/-- BK_CNT_CLR: the counters at 0x20–0x34 become 0. -/
def bkCntClr (s : State) (k : Nat) : State :=
  s.modBk k fun b => { b with errCrc := 0, errTmo := 0, errLate := 0, errSym := 0, swaps := 0, retries := 0 }

/-- BK_POS_RESET (R313): FAILED positions named become LOST. -/
def bkPosReset (s : State) (k mask : Nat) : State :=
  foldN 8 (fun s p => if mask.testBit p && bkPosSt s k p == .failed then
    bkEvent (modBkPos s k p fun x => { x with st := .lost, miss := 0 }) k else s) s

/-- R324: EYE_MIN, HYST and HOLD. -/
def eyeMin (s : State) (k : Nat) : Nat := fld (s.reg (Reg.bkRetrainCfg k)) 7 0
def eyeHyst (s : State) (k : Nat) : Nat := fld (s.reg (Reg.bkRetrainCfg k)) 15 8
def eyeHold (s : State) (k : Nat) : Nat := Nat.max 1 (fld (s.reg (Reg.bkRetrainCfg k)) 23 16)

/-- BROOK_EYE_MEASURE (R324): every 1 ms the margins, and a shadow training once the margin stayed low for HOLD ms. -/
def brookEyeMeasure (s : State) (k v h : Nat) : State :=
  let b := s.bk k
  if b.link ≠ 2 ∨ s.now.toNat < b.eyeAt.toNat + 1000000 then s
  else
    let low := v < eyeMin s k
    let ms := if low then b.lowMs + 1 else 0
    let wait := b.degraded && decide (s.now.toNat < b.lastTry.toNat + 100000000)
    let go := b.shadow = 0 && low && decide (eyeHold s k ≤ ms) && !wait
    s.modBk k fun b => { b with
      vPri := v, hPri := h, lowMs := ms, eyeAt := s.now, shadow := if go then 1 else b.shadow,
      lastTry := if go then s.now else b.lastTry }

/-- A failed shadow training: the fourth in a row degrades the link. -/
def shadowFailed (s : State) (k : Nat) : State :=
  let s := s.modBk k fun b => { b with shadow := 0, fails := satInc 255 b.fails }
  if (s.bk k).fails = 4 && !(s.bk k).degraded then bkEvent (s.modBk k fun b => { b with degraded := true }) k else s

/-- SHADOW_TRAINING_COMPLETE (R324). -/
def shadowTrainingComplete (s : State) (k : Nat) (good : Bool) (eq : Nat) : State :=
  if (s.bk k).shadow ≠ 1 then s
  else if good then s.modBk k fun b => { b with shadow := 2, eqSh := eq, verAt := s.now }
  else shadowFailed s k

/-- SHADOW_VERIFIED (R324): 2^20 symbols of 8 ns without error at a margin at least HYST above the primary's, or a failure
before that. -/
def shadowVerified (s : State) (k : Nat) (clean : Bool) (v h : Nat) : State :=
  let b := s.bk k
  if b.shadow ≠ 2 || (clean && decide (s.now.toNat < b.verAt.toNat + 8 * 2 ^ 20)) then s
  else
    let s := s.modBk k fun b => { b with vSh := v, hSh := h }
    if clean && decide (b.vPri + eyeHyst s k ≤ v) then s.modBk k fun b => { b with shadow := 3 } else shadowFailed s k

/-- SHADOW_SWAP (R325). -/
def shadowSwap (s : State) (k : Nat) : State :=
  if (s.bk k).shadow ≠ 3 ∨ (s.bk k).link ≠ 2 then s
  else s.modBk k fun b => { b with
    shadow := 0, vPri := b.vSh, hPri := b.hSh, eqPri := b.eqSh, eqSh := b.eqPri, fails := 0, degraded := false, lowMs := 0,
    swaps := satWord b.swaps }

/-! ### FIFOs (R322, R544) -/

/-- BK_TXDATA: a write pushes 4 bytes, lowest first; a write to a full FIFO is discarded. -/
def bkTxdata (s : State) (k : Nat) (w : Word) : State :=
  s.modBk k fun b => if b.tx.length + 4 ≤ 256 then { b with tx := b.tx ++ toBytes 4 w.toNat } else b

/-- R322: a pulse with DONE_KIND 2 marks the staged frame ready, or flushes a short FIFO with RESULT 5. -/
def bkStageReady (s : State) (k : Nat) : State :=
  let len := fld (s.reg (Reg.bkStage k)) 12 4
  s.modBk k fun b => if b.tx.length < len then { b with tx := [], stageResult := 5 } else { b with stageWait := true }

end Sys2Proof.Machine
end

