-- ==== Sys2Proof/Machine/Exchange.lean ====
section
/-! DEFINITION. Message exchanges of Brook links: WRITE, READ, CONTROL, IDENT and staged frames (chapter "Brook links and
satellites"). -/

namespace Sys2Proof.Machine

/-- R49: the satellite a subchannel is bound to. -/
def boundTo (s : State) (n : Nat) : Option (Nat × Nat) := bindSat (s.sub n).attr.binding

/-- R318: the sense record of a satellite binding takes a detail and the words of an exchange. -/
def bkSense (s : State) (n detail link : Nat) (e : Exchange) (kind reason : Nat) (more : List Byte) : State :=
  let b := s.sub n
  let w3 := pack [(0, 4, link), (4, 3, e.pos), (8, 8, e.ty), (16, 8, e.seq), (24, 8, kind)]
  let w4 := pack [(0, 16, reason), (16, 4, e.tries)]
  let d := padTo 0 12 more
  s.modSub n fun x => { x with sense := {
    detail := detail, cmd := fld b.prog.first.w0 31 24, time := s.now,
    dev := [w3, w4, wordAt d 0, wordAt d 1, wordAt d 2] } }

/-- R314: a DRIVE toward a point of a position that is not ONLINE, other than to its safe value: interface check. -/
def brookStateFault (s : State) (n : Nat) (outs : List (Nat × Nat)) : State × Option Ending :=
  let bad (e : Nat × Nat) : Bool :=
    tgtBrook e.1 && e.2 != brookSafeValue s (tgtNum e.1) && bkPosSt s (tgtNum e.1 / 512) (tgtNum e.1 / 64 % 8) != .online
  match outs.find? bad with
  | some e =>
    let p := tgtNum e.1
    (bkSense s n 0x0901 (p / 512) { kind := .sub n, pos := p / 64 % 8 } 4 0 [], some { cstat := csInterface, detail := 0x0901 })
  | none => (s, none)

/-- R314, R317: a command ends with interface check. -/
def ifaceEnd (s : State) (n detail : Nat) : State := endProgram s n 0x01 { cstat := csInterface, detail := detail }

/-- R316: WRITE, READ or CONTROL builds its request and hands it to the link, which is its channel end. -/
def askSatellite (s : State) (n ty : Nat) (payload : List Byte) : State :=
  match boundTo s n with
  | none => endProgram s n 0x01 (unitCheck 0x0201)
  | some (k, p) =>
    let b := s.sub n
    let e : Exchange := {
      kind := .sub n, pos := p, ty := ty, gen := b.gen.toNat, arg := b.prog.first.arg,
      param := b.prog.first.param, payload := payload }
    if bkPosSt s k p ≠ .online then ifaceEnd (bkSense s n 0x0901 k e 4 0 []) n 0x0901
    else
      let s := s.modBk k fun x => { x with waiting := x.waiting ++ [e] }
      s.modSub n fun x => { x with prog := { x.prog with phase := .exchange, dstat := x.prog.dstat ||| dsChannelEnd } }

/-- R316: COUNT above 256 in a WRITE or CONTROL. -/
def frameRule (k : Nat) : Option Ending := if 256 < k then some (progCheck 0x010D) else none

/-- WRITE (R49, R316, R245): its commit point is the hand-over of the frame. -/
def writeEffect (s : State) (n : Nat) : State :=
  if !readyFor s n 0x01 then s
  else
    let s := startSnap s n
    let (s, bs, a) := sourceArea s n frameRule
    match a.err with
    | some e => endProgram s n 0x01 e
    | none =>
      let s' := askSatellite s n 0x10 bs
      if (s'.sub n).prog.phase = .exchange then atCommit s' n 0 0 else s'

/-- READ (R49, R316): its commit point is device end. -/
def readEffect (s : State) (n : Nat) : State := if readyFor s n 0x02 then askSatellite s n 0x12 [] else s

/-- CONTROL (R49, R316): reserved codes are program checks. -/
def controlEffect (s : State) (n : Nat) : State :=
  if !readyFor s n 0x03 then s
  else
    let arg := (s.sub n).prog.cur.arg
    if arg < 0x100 ∧ arg ≠ 0x002 ∧ arg ≠ 0x003 then endProgram s n 0x01 (progCheck 0x0108)
    else
      let c := (s.sub n).prog.cur
      let (s, bs, a) := if c.count = 0 && !c.ida then (s, [], { cur := c, pos := (s.sub n).prog.pos, cnt := (s.sub n).prog.cnt })
        else sourceArea s n frameRule
      match a.err with
      | some e => endProgram s n 0x01 e
      | none =>
        let s' := askSatellite s n 0x14 bs
        if (s'.sub n).prog.phase = .exchange then atCommit s' n 0 0 else s'

/-! ### The message slot (R315, R322) -/

/-- R315 items 3 and 4: the next waiting request, safety world first. -/
def nextWaiting (s : State) (k : Nat) : Option Exchange :=
  let w := (s.bk k).waiting
  let safe := w.find? fun e => match e.kind with
    | .sub n => (s.sub n).attr.world == .safety
    | _ => false
  match safe with
  | some e => some e
  | none => w.head?

/-- The lowest position in IDENT (R315 item 2). -/
def identPos (s : State) (k : Nat) : Option Nat := (List.range 8).find? fun p => bkPosSt s k p == .ident

/-- R308 step 5: the time at which the request of an exchange begins in this cycle, so that it ends at T + 62 µs. -/
def slotAt (s : State) (k : Nat) (e : Exchange) : Nat := (s.bk k).cyc * 100000 + 62000 - bkFrameTime e.payload.length

/-- R305, R316: the frame of a request. -/
def requestBytes (s : State) (k : Nat) (e : Exchange) (seq : Nat) (rpt : Bool) : List Byte :=
  bkBytes (bkDown s k e.pos e.ty seq e.gen rpt) (pack [(0, 16, e.payload.length), (16, 12, e.arg)]) e.param e.payload

/-- An attempt is sent in this cycle's slot. -/
def sendEx (s : State) (k : Nat) (e : Exchange) (rpt : Bool) : State :=
  let seq := if rpt then e.seq else (s.bk k).seq
  let f := requestBytes s k e seq rpt
  s.modBk k fun b => { b with
    sent := f
    cur := some { e with seq := seq, tries := e.tries + 1, crc := false, sentAt := s.now }, retry := false,
    seq := if rpt then b.seq else (b.seq + 1) % 256, msgCyc := some b.cyc,
    retries := if rpt then (satWord b.retries) else b.retries }

/-- The requests of subchannels whose position is no longer ONLINE end with interface check, KIND 4. -/
def dropNotOnline (s : State) (k : Nat) : State :=
  (s.bk k).waiting.foldl (fun s e =>
    if bkPosSt s k e.pos = .online then s
    else
      let s := s.modBk k fun b => { b with waiting := b.waiting.erase e }
      match e.kind with
      | .sub n => ifaceEnd (bkSense s n 0x0901 k e 4 0 []) n 0x0901
      | _ => s) s

/-- BROOK_MESSAGE_SEND (R308 step 5, R315, R317, R322): the slot takes the first that is waiting, when its request begins. -/
def brookMessageSend (s : State) (k : Nat) : State :=
  let s := dropNotOnline s k
  let b := s.bk k
  let due (e : Exchange) : Bool := s.now.toNat == slotAt s k e
  if b.link ≠ 2 ∨ b.msgCyc = some b.cyc then s
  else match b.cur, b.retry with
  | some e, true => if due e then sendEx s k e true else s
  | some _, false => s
  | none, _ =>
    match identPos s k with
    | some p =>
      let e : Exchange := { kind := .ident p, pos := p, ty := 0x14, arg := 1 }
      if due e then sendEx s k e false else s
    | none =>
      match nextWaiting s k with
      | some e => if due e then sendEx (s.modBk k fun b => { b with waiting := b.waiting.erase e }) k e false else s
      | none =>
        if b.stageWait && b.rx = [] then
          let st := s.reg (Reg.bkStage k)
          let p := fld st 2 0
          let len := fld st 12 4
          if bkPosSt s k p ≠ .online then s.modBk k fun b => { b with tx := [], stageWait := false, stageResult := 4 }
          else
            let e : Exchange := { kind := .staged, pos := p, ty := 0x15, arg := fld st 27 16, payload := b.tx.take len }
            if due e then sendEx (s.modBk k fun b => { b with tx := b.tx.drop len, stageWait := false }) k e false else s
        else s

/-! ### Replies (R317, R319, R320, R321) -/

/-- The exchange is over. -/
def clearEx (s : State) (k : Nat) : State := s.modBk k fun b => { b with cur := none, retry := false }

/-- R319: the outstanding exchange, when the frame is accepted as its reply. -/
def acceptReply (s : State) (k : Nat) (f : BkFrame) (types : List Nat) : State × Option Exchange :=
  let (s, ok) := bkFrameOk s k f
  if !ok then
    (s.modBk k fun b => { b with cur := b.cur.map fun e => { e with crc := e.crc || (!f.crcOk && f.inWindow && !b.retry) } }, none)
  else match (s.bk k).cur with
  | none => (lateFrame s k f, none)
  | some e =>
    if !(s.bk k).retry && f.inWindow && f.pos == e.pos && f.seq == e.seq && f.gen == e.gen && types.contains f.ty then (s, some e)
    else (lateFrame s k f, none)

/-- R320: while a position holds ATTN, a message exchange with it ends with attention. -/
def addAttn (s : State) (k n : Nat) (e : Exchange) : State :=
  if (bkPos s k e.pos).attn then
    s.modSub n fun b => { b with prog := { b.prog with dstat := b.prog.dstat ||| dsAttention } }
  else s

/-- R124: the accepted reply of a subchannel is dropped when stale; otherwise the command goes on. -/
def forSub (s : State) (k n : Nat) (e : Exchange) (go : State → State) : State :=
  let s := clearEx s k
  match dropStale s n e.gen e.sentAt 1 with
  | some s' => s'
  | none =>
    if e.dead || (s.sub n).prog.phase != .exchange then s
    else go (addAttn s k n e)

/-- R313: the IDENT exchange of a position failed. -/
def identFails (s : State) (k p : Nat) : State :=
  if bkPosSt s k p = .ident then bkEvent (modBkPos s k p fun x => { x with st := .lost, miss := 0 }) k else s

/-- R321: the satellite did not accept the request. -/
def bkBusy (s : State) (k n : Nat) (e : Exchange) : State :=
  let s := bkSense s n 0 k e 5 0 []
  let s := modBkPos s k e.pos fun x => { x with busySeen := true, busySubs := if x.busySubs.contains n then x.busySubs else x.busySubs ++ [n] }
  deviceEnd s n 0 dsBusy 0

/-- The expected reply types of a request (R307, R316). -/
def replyTypes (e : Exchange) : List Nat :=
  if e.ty = 0x10 then [0x11]
  else if e.ty = 0x12 ∨ e.ty = 0x15 then [0x13]
  else if e.kind matches .ident _ then [0x13]
  else if e.arg = 2 ∨ e.arg = 3 then [0x11]
  else [0x11, 0x13]

/-- The types accepted for the outstanding exchange, restricted to one type. -/
def typesFor (s : State) (k ty : Nat) : List Nat :=
  match (s.bk k).cur with
  | some e => if ty = 0x1F then [0x1F] else (replyTypes e).filter (· == ty)
  | none => []

/-- ACK (R316, R317, R319 to R321, R313): ends a WRITE or CONTROL. -/
def ackEffect (s : State) (k : Nat) (f : BkFrame) : State :=
  match acceptReply s k f (typesFor s k 0x11) with
  | (s, none) => s
  | (s, some e) =>
    match e.kind with
    | .sub n => forSub s k n e fun s =>
        if f.busy then bkBusy s k n e
        else
          let took := ofBytes (f.payload.take 2)
          let s := if e.ty = 0x14 ∧ e.arg = 2 ∧ bkPosSt s k e.pos = .online then bkLose s k e.pos else s
          let short := e.ty = 0x10 && took != e.payload.length
          let c := (s.sub n).prog.cur
          let s := if e.ty = 0x10 then s.modSub n fun b => { b with prog := { b.prog with resid := e.payload.length - took } } else s
          deviceEnd s n (if short && !c.sli then csLength else 0) 0 0
    | _ => clearEx s k

/-- DATA (R313, R316, R319 to R322): ends a READ, an IDENT, a staged frame or a CONTROL that answers data. -/
def dataEffect (s : State) (k : Nat) (f : BkFrame) : State :=
  match acceptReply s k f (typesFor s k 0x13) with
  | (s, none) => s
  | (s, some e) =>
    match e.kind with
    | .sub n => forSub s k n e fun s =>
        if f.busy then bkBusy s k n e
        else if e.ty = 0x12 then
          let (s, a) := storeArea s n f.payload
          match a.err with
          | some x => endProgram s n 0x01 x
          | none => endCommitted s n (lengthFlag a false) 0 0
        else deviceEnd s n 0 0 0
    | .ident p =>
      let s := clearEx s k
      if f.busy then identFails (modBkPos s k p fun x => { x with busySeen := true }) k p
      else
        let ty := wordAt f.payload 0
        let s := modBkPos s k p fun x => { x with satType := ty }
        if bkPosSt s k p ≠ .ident then s
        else if ty = tget 0 s.brook.satType (k * 8 + p) then
          bkEvent (bkFoundBytes (modBkPos s k p fun x => { x with st := .online, miss := 0 }) k p) k
        else bkEvent (modBkPos s k p fun x => { x with st := .failed, miss := 0 }) k
    | .staged =>
      let s := if f.busy then modBkPos s k e.pos fun x => { x with busySeen := true } else s
      (clearEx s k).modBk k fun b => { b with rx := f.payload, stageResult := 0 }

/-- NAK (R317, R318): unit check 0x0201 without retry. -/
def nakEffect (s : State) (k : Nat) (f : BkFrame) : State :=
  match acceptReply s k f (typesFor s k 0x1F) with
  | (s, none) => s
  | (s, some e) =>
    let s := bkLogErr s k e.pos 0x1F e.seq 4
    match e.kind with
    | .sub n => forSub s k n e fun s =>
        let s := bkSense s n 0x0201 k e 3 (ofBytes (f.payload.take 2)) (f.payload.drop 2)
        let d := (s.sub n).sense.dev
        let s := endProgram s n 0x01 (unitCheck 0x0201)
        s.modSub n fun b => { b with sense := { b.sense with dev := d } }
    | .ident p => identFails (clearEx s k) k p
    | .staged => (clearEx s k).modBk k fun b => { b with stageResult := 3 }

/-- BROOK_REPLY_TIMEOUT (R309, R317): 20 µs after the end of the request the attempt has failed; it is repeated, or the exchange ends. -/
def brookReplyTimeout (s : State) (k : Nat) : State :=
  let b := s.bk k
  match b.cur with
  | none => s
  | some e =>
    if b.retry || decide (s.now.toNat < requestEnd e + 20000) then s
    else
      let s := bkLogErr (s.modBk k fun b => { b with
        errTmo := if e.crc then b.errTmo else satWord b.errTmo }) k e.pos e.ty e.seq (if e.crc then 2 else 1)
      let gone := e.dead || b.link != 2
      if e.tries ≤ bkRetry s k && !gone then s.modBk k fun b => { b with retry := true }
      else
        let s := clearEx s k
        match e.kind with
        | .sub n =>
          if e.dead || (s.sub n).prog.phase != .exchange then s
          else
            let d := if e.crc then 0x0902 else 0x0901
            ifaceEnd (bkSense (addAttn s k n e) n d k e (if e.crc then 2 else 1) 0 []) n d
        | .ident p => identFails s k p
        | .staged => s.modBk k fun b => { b with stageResult := if e.crc then 2 else 1 }

end Sys2Proof.Machine
end

