-- ==== Sys2Proof/Machine/Engines.lean ====
section
/-! DEFINITION. Tributary engines: dispatch, staging, budgets, the rebalancer, migration, retirement and live routine
replacement (chapter "Tributary engines and device routines"). -/

namespace Sys2Proof.Machine

/-- R157, R159: a core that has finished a command; DEMAND of the window falls when nothing is ready. -/
def coreFree (s : State) (te : Nat) : State :=
  s.modTe te fun t => { t with
    running := none, builtin := false, held := {},
    demandNow := t.demandNow && (t.waitq != [] || t.rerun != []) }

/-- R153: the next command for the core: a rolled-back one, then safety before service, each in request order. -/
def nextCommand (s : State) (te : Nat) : Option Nat :=
  let t := s.te te
  match t.rerun with
  | n :: _ => some n
  | [] =>
    match t.waitq.find? fun n => (s.sub n).attr.world == .safety with
    | some n => some n
    | none => t.waitq.head?

/-- DISPATCH_CACHE_MISS (R149): the cache after a lookup, the entry used, and whether it missed. -/
def cacheAfter (s : State) (te n code : Nat) : List DCache × List Word × Bool :=
  let b := s.sub n
  let t := s.te te
  let hit (d : DCache) : Bool := cacheHit b code d
  match t.dcache.find? hit with
  | some d => (d :: t.dcache.filter (!hit ·), d.entry, false)
  | none =>
    let e := tableEntry s n code
    (({ cls := b.attr.cls, code := code, ver := b.prog.dver, entry := e } :: t.dcache).take 32, e, true)

/-- CORE_DISPATCH (R149, R152 to R155, R253 step 4): the core takes the next waiting command. -/
def coreDispatch (s : State) (te : Nat) : State :=
  let t := s.te te
  if t.running.isSome || !bitOf (s.reg (Reg.teCtl te)) 0 || (s.dbg te).halted || s.cu.pl != .none
      || !(t.st == .inService || t.st == .slow || t.st == .retiring) then s
  else match nextCommand s te with
  | none => s
  | some n =>
    let b := s.sub n
    let code := b.prog.first.code
    let again := t.rerun.contains n
    let (cache, e, miss) := cacheAfter s te n code
    let builtin := fieldCode code && !entryValid e
    let snap := if again then b.prog.snap else takeSnapshot s
    let s := s.modSub n fun b => { b with prog := { b.prog with phase := .onCore, snap := snap } }
    let s := s.modTe te fun t => { t with
      waitq := t.waitq.filter (· != n), rerun := t.rerun.filter (· != n), running := some n, builtin := builtin,
      curSub := n, curCode := code, curCls := b.attr.cls, dcache := cache,
      misses := if miss then satInc 0xFFFF t.misses else t.misses,
      budget := fld (nth 0 e 1) 23 0, stageOut := bitOf (nth 0 e 0) 18, snapTime := snap.time,
      held := {}, fiOvf := false }
    let s := traceDispatch (if builtin then s else coreAtEntry s te n e) te
    if builtin then s else haltAtDispatch s te

/-- R156: the length of a staged data area. -/
def stageRule (k : Nat) : Option Ending := if 4096 < k then some (progCheck 0x010D) else none

/-- STAGE_IN_COMPLETE (R156): the data area is in the staging buffer and the dispatch request is made. The spec does not say what
a stage-in does while both buffers are in use: the next buffer in turn is taken all the same (DESIGN CHOICE, log entry 57). -/
def stageInComplete (s : State) (n : Nat) : State :=
  let (s, fresh) := moverDone s n
  let b := s.sub n
  if !fresh ∨ b.prog.phase ≠ .staging ∨ !b.resident then s
  else
    let te := b.attr.owner
    let e := lookupEntry s n b.prog.first.code
    let buf := if (s.te te).stageAlt then 0xF000 else 0xE000
    let s := s.modTe te fun t => { t with stageAlt := !t.stageAlt }
    let (s, bs, a) := if entryStageIn e then sourceArea s n stageRule else
      let (s, a) := areaOf s n false none
      (setArea s n a, [], { a with err := (a.total.bind stageRule).or a.err })
    match a.err with
    | some x => endProgram s n 0x01 x
    | none =>
      let s := pokeMem s (loamDataAt te + buf) bs
      let s := s.modSub n fun b => { b with prog := { b.prog with
        phase := .waitCore, stage := some (buf, segsLen a.segs), work := { b.prog.work with segs := a.segs } } }
      s.modTe te fun t => { t with waitq := t.waitq ++ [n] }

/-- STAGE_OUT_COMPLETE (R156, R251 step 3): the buffer is written back to the data area before acceptance. -/
def stageOutComplete (s : State) (n : Nat) : State :=
  let (s, fresh) := moverDone s n
  let b := s.sub n
  if !fresh then s
  else match b.prog.phase, b.prog.stage with
  | .stageOut, some (buf, len) =>
    match writeSegs b.prog.work.segs s n (peekMem s (loamDataAt b.attr.owner + buf) len) with
    | (s, k, some x) =>
      endProgram (freeDirect (s.modSub n fun b => { b with prog := { b.prog with resid := len - k } }) n) n 0x01 x
    | (s, _, none) => s.modSub n fun b => { b with prog := { b.prog with phase := .commitReq } }
  | _, _ => s

/-- BUDGET_EXPIRY (R157, R67, R158): cause 0x17, whose fault address is 0 (R358), ends the command before its commit point. -/
def budgetExpiry (s : State) (te : Nat) : State :=
  let t := s.te te
  match t.running with
  | none => s
  | some n =>
    if t.builtin || (s.dbg te).halted then s
    else
      let s := traceRecord s te 4 0x17 (s.core te).pc
      let s := s.modTe te fun t => { t with faultCause := 0x17, faultSub := n, faultAddr := 0 }
      let s := coreFree (freeDirect s n) te
      if (s.sub n).st = .fenced then endFenced s n
      else endProgram s n 0x01 { cstat := csBudget, detail := 0x0317 }

/-! ### Rebalancer (R159, R160) -/

/-- R159: one TE at the close of a window. -/
def windowTe (s : State) (te : Nat) : State :=
  let t := s.te te
  let i := s.island te
  let minCmd := fld (s.reg Reg.devRbalMin) 23 0
  let hold := Nat.max 1 (fld (s.reg Reg.devRbalCtl) 25 24)
  let bad := i.slow || i.clk == 3 || i.stalledInWin || (minCmd != 0 && t.demandNow && decide (t.winCnt < minCmd))
  let st := match t.st with
    | .inService => if bad then .slow else .inService
    | .slow => if !bad && hold ≤ t.goodWins + 1 then .inService else .slow
    | x => x
  let s := s.modTe te fun t => { t with
    st := st, goodWins := if bad then 0 else t.goodWins + 1, rate := t.winCnt, winCnt := 0, demand := t.demandNow,
    demandNow := t.waitq != [] || t.rerun != [] || t.running.isSome }
  s.modIsland te fun i => { i with stalledInWin := i.clk == 3 }

/-- REBALANCER_WINDOW (R159): a window closes when WIN ms have passed since the last one did. -/
def rebalancerWindow (s : State) : State :=
  if s.now.toNat < s.q.rbalAt.toNat + 1000000 * Nat.max 1 (fld (s.reg Reg.devRbalCtl) 7 0) then s
  else foldN 64 windowTe (s.modQ fun q => { q with rbalAt := s.now })

/-! ### Migration (R161 to R163) -/

/-- R161: the refusal of a migration, 0 for none; of several refusals the one of the lowest code (DESIGN CHOICE, log entry 60). -/
def migrateRefusal (s : State) (n dest : Nat) : Nat :=
  let b := s.sub n
  if !inTeMask s b.attr.cls dest then 1
  else if (s.te dest).st ≠ .inService ∨ (s.dbg dest).halted then 2
  else if b.st = .fenced then 3
  else if b.attr.owner = dest then 4
  else if !stickyFits s n dest then 5
  else 0

/-- DEV_MIGRATE (R161, R162); a write while BUSY is 1 is refused before it comes here (R541). -/
def devMigrate (s : State) (n dest : Nat) : State :=
  if s.mig.busy then s
  else
    let r := migrateRefusal s n dest
    if r ≠ 0 then s.setMig { s.mig with result := r, sub := n, dest := dest }
    else if (s.sub n).resident then s.setMig { busy := true, result := 0, sub := n, dest := dest }
    else (setOwner s n dest).setMig { busy := false, result := 0, sub := n, dest := dest }

/-- R162 step 1: the subchannel is at a command boundary, or inside a WAITEV. -/
def movableNow (p : Prog) : Bool :=
  p.phase == .fetch || p.phase == .runaway || p.phase == .held || p.phase == .waitev || p.phase == .none
    || p.phase == .ending

/-- R162 steps 2 to 4: the context of a resident subchannel moves; a full destination swaps out a waiter (R144). -/
def moveContext (s : State) (n dest : Nat) : Option State :=
  let src := (s.sub n).attr.owner
  let full := decide (16 ≤ (s.te dest).slots.length)
  let victim := swapVictim s dest
  if full && victim.isNone then none
  else
    let s := match full, victim with
      | true, some k =>
        let s := s.modTe dest fun t => { t with swapCnt := t.swapCnt + 1 }
        freeSlot (s.modSub k fun b => { b with prog := { b.prog with pre := [] } }) k
      | _, _ => s
    let s := s.modTe src fun t => { t with slots := t.slots.filter (· != n) }
    let s := setOwner (writeContext s n) n dest
    let s := s.modTe dest fun t => { t with slots := t.slots ++ [n] }
    some (s.modSub n fun b => { b with prog := { b.prog with pre := [] } })

/-- MIGRATION_COMPLETE (R162, R163, R165): a resident subchannel at its boundary moves; RESULT 0. -/
def migrationComplete (s : State) (n : Nat) : State :=
  let b := s.sub n
  if s.mig.busy && s.mig.sub == n then
    if !b.resident then (setOwner s n s.mig.dest).setMig { s.mig with busy := false, result := 0 }
    else if !movableNow b.prog then s
    else match moveContext s n s.mig.dest with
      | none => s
      | some s' => (retireIfEmpty s' b.attr.owner).setMig { s.mig with busy := false, result := 0 }
  else if (s.te b.attr.owner).st = .retiring ∧ b.resident ∧ movableNow b.prog then
    match retireDest s n with
    | none => s
    | some d =>
      match moveContext s n d with
      | none => s
      | some s' => retireIfEmpty s' b.attr.owner
  else s

/-! ### Retirement and spares (R164 to R166) -/

/-- R165: the lowest-numbered unused spare. -/
def freeSpare (s : State) : Option Nat := (List.range 64).find? fun t => (s.te t).st == .spare

/-- R164, R165: a retirement takes the lowest spare, which begins to load. -/
def takeSpare (s : State) (te : Nat) (lost : Bool) : State :=
  match freeSpare s with
  | some sp =>
    let s := s.modTe te fun t => { t with spareFor := some sp }
    s.modTe sp fun t => { t with st := .loading, dataLost := lost }
  | none => scatter s te

/-- R523: the retirement of a TE abandons its halted routine before its commit point; the command is dispatched again
(log entry 22). -/
def abandonHalted (s : State) (te : Nat) : State :=
  match (s.te te).running, (s.dbg te).halted with
  | some n, true =>
    let s := s.modDbg te fun d => { d with halted := false, abandoned := true }
    let s := coreFree ((freeDirect s n).modTe te fun t => { t with rerun := n :: t.rerun }) te
    s.modSub n fun b => { b with prog := { b.prog with phase := .waitCore, again := true } }
  | _, _ => s

/-- R164: the retirement of a TE whose island runs. -/
def retireTe (s : State) (te : Nat) : State :=
  let t := s.te te
  if t.st = .inService ∨ t.st = .slow then
    let s := abandonHalted s te
    let s := s.modTe te fun t => { t with st := .retiring }
    let s := raiseEvent s (Config.srcTeFault + te)
    let s := takeSpare s te false
    retireIfEmpty s te
  else s

/-- DEV_TE_RETIRE (R164), written by SC-S. -/
def devTeRetire (s : State) (te : Nat) : State := retireTe s te

/-- R166: the ending of one resident subchannel of a stalled TE; its context leaves the TE whether or not its CSW finds room. A
commit that the commit unit has accepted completes first (R259). -/
def endStalled (s : State) (n : Nat) : State :=
  let b := s.sub n
  if b.prog.phase = .none then releaseCtx s n
  else
    let at_ := match b.prog.lastReq with
      | some a => a
      | none => b.prog.op.chain
    let s := s.modSub n fun b => { b with prog := { b.prog with pos := .mem at_, resid := 0 } }
    if b.prog.phase = .accepted then releaseCtx s n
    else releaseCtx (endNow (freeDirect s n) n 0x01 (ctrlCheck 0x0507)) n

/-- TE_STALL_RETIRE (R164, R166): an island stalled for 20 µs. -/
def teStallRetire (s : State) (te : Nat) : State :=
  let t := s.te te
  let i := s.island te
  if (t.st = .inService ∨ t.st = .slow) ∧ i.clk = 3 ∧ i.stallAt.toNat + 20000 ≤ s.now.toNat then
    let s := raiseEvent s (Config.srcTeFault + te)
    let s := t.slots.foldl endStalled s
    let s := coreFree s te
    let s := s.modTe te fun t => { t with st := .retired, waitq := [], rerun := [], slots := [] }
    let s := takeSpare s te true
    raiseEvent s (Config.srcTeFault + te)
  else s

/-- R165, R476: a TE's Loam code from the retained image, with the emulation handler's address of the TE it replaces. -/
def loadLoamCode (s : State) (te img old : Nat) : State :=
  let s := pokeMem s (loamAt te) (peekMem s (Config.retainedBase + 0x20000 * img) 0x10000)
  s.modCore te fun x => { x with evbase := (s.core old).evbase }

/-- R165, R476: a TE's Loam data from the retained initial image. -/
def loadLoamData (s : State) (te img : Nat) : State :=
  pokeMem s (loamDataAt te) (peekMem s (Config.retainedBase + 0x20000 * img + 0x10000) 0x10000)

/-- R165: the spare takes the retired TE's place in every TEMASK. -/
def replaceInMasks (s : State) (te sp : Nat) : State :=
  foldN 64 (fun s cls =>
    if inTeMask s cls te then
      let word (s : State) (t : Nat) (b : Bool) : State :=
        let a := dispSlot s cls 0 + 4 * (t / 32)
        pokeMem s a (toBytes 4 (setBit (peekWord s a) (t % 32) b).toNat)
      word (word s te false) sp true
    else s) s

/-- The TE that a spare replaces. -/
def replacedBy (s : State) (sp : Nat) : Option Nat := (List.range 64).find? fun t => (s.te t).spareFor == some sp

/-- SPARE_LOAD_COMPLETE (R165): the Loam of the spare is loaded, its data while the retiring TE's core is idle; the spare
takes the retired TE's place in every TEMASK, and the subchannels that are not resident change owner. -/
def spareLoadComplete (s : State) (sp : Nat) : State :=
  if (s.te sp).st ≠ .loading then s
  else match replacedBy s sp with
  | none => s
  | some te =>
   if (s.te te).running.isSome then s
   else
    let img := (s.te te).loamImg
    let s := loadLoamCode s sp img te
    let s := if (s.te sp).dataLost then loadLoamData s sp img
      else pokeMem s (loamDataAt sp) (peekMem s (loamDataAt te) 0x10000)
    let s := replaceInMasks s te sp
    let s := s.modTe sp fun t => { t with st := .inService, loamImg := img }
    retireIfEmpty (scatter s te) te

/-! ### Dispatch cache and live replacement (R150, R167, R168) -/

/-- TE_DISP_INVAL (R150, R406): a key, a class, or the whole cache. -/
def teDispInval (s : State) (te cls code : Nat) (classAll all : Bool) : State :=
  s.modTe te fun t => { t with
    dcache := t.dcache.filter fun d => !(all || (d.cls == cls && (classAll || d.code == code))),
    auth := t.auth.filter fun a => !(all || (a.1 == cls && classAll)) }

/-- R147: the codes a dispatch table may hold. -/
def tableCode (code : Nat) : Bool := fieldCode code || routineCode code

/-- R148: the checks of one dispatch entry (four words). -/
def entryOk (e : List Word) : Bool :=
  let w0 := nth 0 e 0
  let w1 := nth 0 e 1
  let w2 := nth 0 e 2
  fld w0 31 19 == 0 && !bitOf w0 0 && fld w1 31 24 == 0 && nth 0 e 3 == 0
  && (!bitOf w0 16 || (decide (fld w0 15 0 + fld w2 31 16 ≤ 0x10000) && fld w1 23 0 != 0))

/-- R167: a class segment that is ACTIVE, HALT PENDING or STATUS PENDING under version `ver`; STATUS PENDING is a segment's
while its ending CSW is held. -/
def segmentOf (cls ver : Nat) (b : Sub) : Bool :=
  b.attr.valid && b.attr.cls == cls && b.prog.dver == ver &&
    (b.st == .active || b.st == .haltPending ||
      (b.st == .statusPending && (b.held ++ b.toCreate).any fun h => h.csw.op == 1 || h.csw.op == 2))

/-- DEV_DISP_CMD (R167): the entry of DEV_DISP_NEW replaces CUR of (class, code) in one step, or is refused. -/
def devDispCmd (s : State) (cls code : Nat) : State :=
  let e := (List.range 4).map fun k => s.reg (Reg.devDispNew k)
  if oldSegs s cls ≠ 0 || !entryOk e || !tableCode code then
    s.modDisp fun d => { d with result := 1 }
  else
    let slot := dispSlot s cls code
    let cur := peekMem s slot 16
    let s := pokeMem s (slot + 16) cur
    let s := pokeMem s slot (wordsBytes e)
    let hdr := dispSlot s cls 0
    let w2 := wordAt (peekMem s hdr 32) 2
    let s := { s with subs := s.subs.map fun x => if segmentOf cls (fld w2 3 0) x.2 then (x.1, { x.2 with old := true }) else x }
    let ver := (fld w2 3 0 + 1) % 16
    let s := pokeMem s (hdr + 8) (toBytes 4 (setFld (setFld w2 3 0 ver) 15 8 code).toNat)
    s.modDisp fun _ => { cls := cls, result := 0 }

end Sys2Proof.Machine
end

