-- ==== Sys2Proof/Machine/Sift.lean ====
section
/-! DEFINITION. The Sift transform of 16-bit samples, block by block (R301, R302). -/

namespace Sys2Proof.Machine

/-- The 16-bit samples that bytes spell; a last byte without a partner is a sample of its own. -/
def samplesOf : List Byte → List Nat
  | [] => []
  | [a] => [a.toNat]
  | a :: b :: rest => (a.toNat + 256 * b.toNat) :: samplesOf rest

/-- The bytes of samples. -/
def sampleBytes (l : List Nat) : List Byte := l.flatMap (toBytes 2)

/-- R301: first differences of samples, and the last sample. -/
def diffs (prev : Nat) : List Nat → List Nat × Nat
  | [] => ([], prev)
  | x :: xs =>
    let r := diffs x xs
    ((x + 65536 - prev) % 65536 :: r.1, r.2)

/-- R301: running sums of differences, and the last sample. -/
def sums (prev : Nat) : List Nat → List Nat × Nat
  | [] => ([], prev)
  | x :: xs =>
    let v := (prev + x) % 65536
    let r := sums v xs
    (v :: r.1, r.2)

/-- Bit i of byte m of plane k is bit k of sample 8m + i. -/
def siftPlane (t : List Nat) (k : Nat) : List Byte :=
  (List.range 32).map fun m =>
    BitVec.ofNat 8 (foldN 8 (fun a i => a + nth 0 t (8 * m + i) / 2 ^ k % 2 * 2 ^ i) 0)

/-- R301: one block of up to 256 transformed values, filled up with 0. -/
def siftBlockBytes (vals : List Nat) : List Byte :=
  let t := padTo 0 256 vals
  let zero (k : Nat) : Bool := t.all fun v => v / 2 ^ k % 2 == 0
  let one (k : Nat) : Bool := t.all fun v => v / 2 ^ k % 2 == 1
  let mask (f : Nat → Bool) : Nat := foldN 16 (fun a k => a + b2n (f k) * 2 ^ k) 0
  toBytes 4 (mask zero + 65536 * mask one) ++
    (List.range 16).flatMap fun k => if zero k || one k then [] else siftPlane t k

/-- R301, R302: the next block of raw bytes: its stream bytes, the raw bytes left, the sample before them. -/
def siftForward (diff : Bool) (prev : Nat) (raw : List Byte) : List Byte × List Byte × Nat :=
  let s := samplesOf (raw.take 512)
  let d := diffs prev s
  (siftBlockBytes (if diff then d.1 else s), raw.drop 512, if diff then d.2 else prev)

/-- R301: the length of the block at the head of a stream; none when its header is malformed. -/
def siftBlockLen (bs : List Byte) : Option Nat :=
  if bs.length < 4 then none
  else
    let z := ofBytes (bs.take 2)
    let o := ofBytes ((bs.drop 2).take 2)
    if z &&& o ≠ 0 then none
    else some (4 + 32 * ((List.range 16).filter fun k => !(z ||| o).testBit k).length)

/-- R301: the 256 values of the block at the head of a stream. -/
def siftValues (bs : List Byte) : List Nat :=
  let z := ofBytes (bs.take 2)
  let o := ofBytes ((bs.drop 2).take 2)
  let stored := (List.range 16).filter fun k => !(z ||| o).testBit k
  let bitAt (k i : Nat) : Nat :=
    if o.testBit k then 1
    else match stored.idxOf? k with
    | some j => (nth 0 bs (4 + 32 * j + i / 8)).toNat / 2 ^ (i % 8) % 2
    | none => 0
  (List.range 256).map fun i => foldN 16 (fun a k => a + bitAt k i * 2 ^ k) 0

/-- R301: the inverse of the next block: its samples' bytes (at most `keep` samples), the stream left, the last sample;
none when the stream is malformed or ends inside the block. -/
def siftInverse (diff : Bool) (prev keep : Nat) (bs : List Byte) : Option (List Byte × List Byte × Nat) :=
  match siftBlockLen bs with
  | none => none
  | some len =>
    if bs.length < len then none
    else
      let v := (siftValues bs).take keep
      let r := sums prev v
      some (sampleBytes (if diff then r.1 else v), bs.drop len, if diff then r.2 else prev)

end Sys2Proof.Machine
end

