-- ==== Sys2Proof/Machine/Silt.lean ====
section
/-! DEFINITION. The Silt store: drives, extents, archive rings, records, recovery, the drive-to-drive copy (chapter "Silt
store and DMA engine"). The drives' contents lie outside the model: an NVMe command in flight carries its data. -/

namespace Sys2Proof.Machine

/-! ### Extents (R275 to R277) -/

/-- A word of an extent's entry. -/
def extW (s : State) (e i : Nat) : Word :=
  peekWord s (Config.basinBase + fld (s.reg Reg.siltExtBase) 23 14 * 0x4000 + 32 * e + 4 * i)
def extValid (s : State) (e : Nat) : Bool := bitOf (extW s e 0) 0
/-- The number of members. -/
def extWays (s : State) (e : Nat) : Nat := fld (extW s e 0) 4 1 + 1
/-- Blocks of a stripe unit. -/
def extUnit (s : State) (e : Nat) : Nat := 2 ^ fld (extW s e 0) 8 5
def extRo (s : State) (e : Nat) : Bool := bitOf (extW s e 0) 9
def extRdV (s : State) (e : Nat) : Bool := bitOf (extW s e 0) 10
/-- The first LBA on each member. -/
def extLba (s : State) (e : Nat) : Nat := (extW s e 1).toNat + 2 ^ 32 * fld (extW s e 2) 15 0
/-- Member k's drive. -/
def extDrive (s : State) (e k : Nat) : Nat := fld (extW s e (3 + k / 8)) (4 * (k % 8) + 3) (4 * (k % 8))
/-- The drives of an extent. -/
def extDrives (s : State) (e : Nat) : List Nat := (List.range (extWays s e)).map (extDrive s e)

/-- R276: blocks that each member gives the extent. -/
def extShare (s : State) (e : Nat) : Nat :=
  let wu := extWays s e * extUnit s e
  (2 ^ 24 + wu - 1) / wu * extUnit s e

/-- R276: the extent exceeds the namespace of a member that is READY. -/
def extBroken (s : State) (e : Nat) : Bool :=
  (extDrives s e).any fun d => (s.drv d).st == .ready && decide ((s.drv d).blocks < extLba s e + extShare s e)

/-- R276: the drive, LBA and stripe unit of the 4 KiB block at a store address. -/
def mapBlock (s : State) (a : Nat) : Nat × Nat × Nat :=
  let e := a / 2 ^ 36
  let blk := a % 2 ^ 36 / 4096
  let u := extUnit s e
  let unit := blk / u
  (extDrive s e (unit % extWays s e), extLba s e + unit / extWays s e * u + blk % u, unit)

/-- The extents that n blocks from a store address touch. -/
def extentsOf (a n : Nat) : List Nat :=
  if n = 0 then [] else (List.range ((a + 4096 * n - 1) / 2 ^ 36 - a / 2 ^ 36 + 1)).map fun i => a / 2 ^ 36 + i

/-- R277: an access to n blocks at a store address by a world; `raw` for FORM 1. -/
def extFault (s : State) (w : World) (write raw : Bool) (a n : Nat) : Option Ending :=
  let es := extentsOf a n
  if es.any fun e => !extValid s e || extBroken s e then some (progCheck 0x0102)
  else if write && es.any (extRo s) then some (protCheck 0x0401)
  else if raw && w == .service && es.any (fun e => !extRdV s e) then some (protCheck 0x0401)
  else none

/-! ### NVMe commands (R270, R271, R273) -/

/-- R270: blocks of one NVMe command: the smaller of 128 KiB and MDTS. -/
def maxBlocks (s : State) (d : Nat) : Nat := Nat.max 1 (s.drv d).maxXfer

/-- The device source of the store. -/
def siltEvent (s : State) : State := raiseEvent s Config.srcSilt

/-- R270: entries of a drive's I/O queues: 256 in each pair, of which NVMe leaves one free (log entry 64). -/
def nvRoom (s : State) (d : Nat) : Nat := 255 * (s.drv d).ioq

/-- Commands in a drive's I/O queues. -/
def nvIn (s : State) (d : Nat) : Nat := (s.silt.nv.filter fun c => c.drive == d && !c.done && !c.wait).length

/-- One NVMe command is issued, or waits for an entry of the drive's queues. -/
def issueNv (s : State) (c : NvCmd) : State :=
  s.modSilt fun x => { x with
    nv := x.nv ++ [{ c with id := x.nextId, issued := s.now, wait := decide (nvRoom s c.drive ≤ nvIn s c.drive) }]
    nextId := x.nextId + 1 }

/-- The first k waiting commands of a drive enter its queues. -/
def enterQueue (now : DWord) (d : Nat) : Nat → List NvCmd → List NvCmd
  | _, [] => []
  | 0, cs => cs
  | k + 1, c :: cs =>
    if c.wait && c.drive == d then { c with wait := false, issued := now } :: enterQueue now d k cs
    else c :: enterQueue now d (k + 1) cs

/-- R270: commands that waited enter a drive's queues as far as there is room. -/
def nvEnter (s : State) (d : Nat) : State :=
  s.modSilt fun x => { x with nv := enterQueue s.now d (nvRoom s d - nvIn s d) x.nv }

/-- The command leaves the list. -/
def dropNv (s : State) (c : NvCmd) : State := s.modSilt fun y => { y with nv := y.nv.filter fun z => z.id != c.id }

/-- R273: commands that serve nothing any more: those in a drive's queues run on without effect, the others are not issued. -/
def orphanNv (s : State) (mine : NvUse → Bool) : State :=
  s.modSilt fun y => { y with
    nv := (y.nv.filter fun c => !(mine c.use && c.wait)).map fun c => if mine c.use then { c with dead := true } else c }

/-- R271: data on its way to or from a drive stands in the bounce buffer, page after page (log entry 64). -/
def bouncePut (s : State) (bs : List Byte) : State :=
  let n := s.silt.bouncePages
  let blocks := (bs.length + 4095) / 4096
  if n = 0 then s
  else
    let at_ (i : Nat) : Nat := s.silt.bounceBase + 4096 * ((s.silt.bounceNext + i) % n)
    let s := foldN blocks (fun s i => pokeMem s (at_ i) ((bs.drop (4096 * i)).take 4096)) s
    s.modSilt fun y => { y with bounceNext := (y.bounceNext + blocks) % n }

/-- R282: a command reaches the Silt store with its stored length known. -/
def siltArrive (s : State) (n : Nat) : State :=
  (s.modSub n fun b => { b with prog := { b.prog with work := { b.prog.work with arr := s.silt.stamp } } }).modSilt fun y =>
    { y with stamp := y.stamp + 1 }

/-- R270, R276: n blocks from a store address, cut at stripe units and at the transfer size: drive, LBA, block index, count. -/
def cutRuns : Nat → State → Nat → Nat → Nat → List (Nat × Nat × Nat × Nat)
  | 0, _, _, _, _ => []
  | fuel + 1, s, a, i, n =>
    if n ≤ i then []
    else
      let m := mapBlock s (a + 4096 * i)
      let u := extUnit s ((a + 4096 * i) / 2 ^ 36)
      let room := u - ((a + 4096 * i) % 2 ^ 36 / 4096) % u
      let k := Nat.max 1 (Nat.min (Nat.min room (maxBlocks s m.1)) (n - i))
      (m.1, m.2.1, i, k) :: cutRuns fuel s a (i + k) n

/-- Writes with FUA of whole blocks at a store address. -/
def writeBlocks (s : State) (a : Nat) (bs : List Byte) (use : NvUse) : State :=
  let n := (bs.length + 4095) / 4096
  (cutRuns n s a 0 n).foldl (fun s r =>
    issueNv s {
      id := 0, drive := r.1, lba := r.2.1, blocks := r.2.2.2, write := true, fua := true,
      data := padTo 0 (4096 * r.2.2.2) (bs.drop (4096 * r.2.2.1)), use := use }) s

/-- Reads of n blocks at a store address. -/
def readBlocks (s : State) (a n : Nat) (use : NvUse) : State :=
  (cutRuns n s a 0 n).foldl (fun s r =>
    issueNv s { id := 0, drive := r.1, lba := r.2.1, blocks := r.2.2.2, use := use }) s

/-- R273: the binding-specific sense words. -/
def siltSense (s : State) (n detail drive sct sc kind lba ring seq : Nat) : State :=
  s.modSub n fun b => { b with sense := {
    detail := detail, cmd := fld b.prog.first.w0 31 24, time := s.now,
    dev := [pack [(0, 4, drive), (8, 3, sct), (16, 8, sc), (24, 8, kind)], BitVec.ofNat 32 lba,
      pack [(0, 16, lba / 2 ^ 32)], pack [(0, 8, ring)], BitVec.ofNat 32 seq] } }

/-- R273, R290: a command ends with interface check, detail 0x0903. -/
def siltEnd (s : State) (n : Nat) : State := endProgram s n 0x01 { cstat := csInterface, detail := 0x0903 }

/-! ### Rings (R279, R281 to R284) -/

/-- The store address of a ring's first block. -/
def arBase (s : State) (r : Nat) : Nat := (arW s r 0).toNat + 2 ^ 32 * fld (arW s r 1) 15 0
def arSize (s : State) (r : Nat) : Nat := (arW s r 2).toNat
/-- Entries of the index. -/
def arIdxN (s : State) (r : Nat) : Nat := 2 ^ fld (arW s r 3) 4 0
def arCkptRec (s : State) (r : Nat) : Nat := fld (arW s r 3) 31 16
/-- The DRAM address of the index. -/
def arIdxBase (s : State) (r : Nat) : Nat := (arW s r 4).toNat + 2 ^ 32 * fld (arW s r 5) 3 0
/-- The store address of checkpoint block A. -/
def arCkpt (s : State) (r : Nat) : Nat := (arW s r 6).toNat + 2 ^ 32 * fld (arW s r 7) 15 0
def arNext (s : State) (r : Nat) : Nat := (arW s r 8).toNat
def arEpoch (s : State) (r : Nat) : Nat := (arW s r 9).toNat
def arWrblk (s : State) (r : Nat) : Nat := (arW s r 10).toNat
def arOld (s : State) (r : Nat) : Nat := (arW s r 11).toNat
def arRel (s : State) (r : Nat) : Nat := (arW s r 13).toNat
def arDone (s : State) (r : Nat) : Nat := (arW s r 14).toNat
def arIndexed (s : State) (r : Nat) : Bool := bitOf (arW s r 15) 3
def arOpen (s : State) (r : Nat) : Nat := fld (arW s r 15) 11 4
def setArState (s : State) (r st : Nat) : State := setArW s r 15 (setFld (arW s r 15) 2 0 st).toNat
def setIndexed (s : State) (r : Nat) (b : Bool) : State := setArW s r 15 (setBit (arW s r 15) 3 b).toNat
def setArOpen (s : State) (r n : Nat) : State := setArW s r 15 (setFld (arW s r 15) 11 4 n).toNat

/-- The distance of sequence b from a, modulo 2^32 (R279). -/
def seqDist (a b : Nat) : Nat := (b + 2 ^ 32 - a) % 2 ^ 32

/-- Word i of the index entry of a sequence (R286). -/
def idxW (s : State) (r q i : Nat) : Word := peekWord s (arIdxBase s r + 16 * (q % arIdxN s r) + 4 * i)

/-- R286: the index entry of a record or void is written. -/
def setIdx (s : State) (r q epoch blk blocks : Nat) (void : Bool) : State :=
  pokeMem s (arIdxBase s r + 16 * (q % arIdxN s r))
    (wordsBytes [BitVec.ofNat 32 q, BitVec.ofNat 32 epoch, BitVec.ofNat 32 blk, pack [(0, 13, blocks), (13, 1, b2n void)]])

/-- R289: the index of a ring describes a sequence: it is INDEXED, or the scan or a commit since then wrote the entry. -/
def idxStands (s : State) (r q : Nat) : Bool :=
  arIndexed s r || decide (seqDist (tget {} s.silt.ringx r : RingX).scanFrom q < 2 ^ 31)

/-- The blocks of a sequence, from the open records or the index; of a record that the rebuild has not reached only the
first block of the oldest is known (log entry 42). -/
def recSpan (s : State) (r q : Nat) : Option (Nat × Nat) :=
  match s.silt.recs.find? fun x => x.ring == r && x.seq == q with
  | some x => some (x.blk, x.blocks)
  | none =>
    if idxStands s r q then
      (if (idxW s r q 0).toNat = q then some ((idxW s r q 2).toNat, fld (idxW s r q 3) 12 0) else none)
    else if q = arOld s r then some ((arW s r 12).toNat, 1)
    else none

/-- R283: an allocation of blocks meets the blocks of a sequence. -/
def overlaps (s : State) (r blk blocks q : Nat) : Bool :=
  match recSpan s r q with
  | some (b, n) => decide (b < blk + blocks) && decide (blk < b + n)
  | none => false

/-- R283: the last of n sequences from q on that an allocation overlaps. -/
def lastHit : Nat → State → Nat → Nat → Nat → Nat → Option Nat → Option Nat
  | 0, _, _, _, _, _, acc => acc
  | fuel + 1, s, r, blk, blocks, q, acc =>
    lastHit fuel s r blk blocks ((q + 1) % 2 ^ 32) (if overlaps s r blk blocks q then some q else acc)

/-- R282: where a record of this many blocks goes, and its epoch. -/
def placeRec (s : State) (r blocks : Nat) : Nat × Nat :=
  if arSize s r - arWrblk s r < blocks then (0, (arEpoch s r + 1) % 2 ^ 32) else (arWrblk s r, arEpoch s r)

/-- R283: the allocation is refused as full. -/
def ringFullFor (s : State) (r blk blocks : Nat) : Bool :=
  !arOverwrite s r &&
    ((lastHit (seqDist (arRel s r) (arNext s r)) s r blk blocks (arRel s r) none).isSome
      || decide (arIdxN s r < seqDist (arRel s r) (arNext s r) + 1))

/-- R283: OLDSEQ and OLDBLK move on to sequence q. -/
def setOld (s : State) (r q blk : Nat) : State :=
  let s := setArW (setArW s r 11 q) r 12 blk
  if arOverwrite s r then setArW s r 13 q else s

/-- R282, R283: overlapped and too old records stop being present; blk is where the record at NEXTSEQ lies. -/
def dropOverlapped (s : State) (r blk blocks : Nat) : State :=
  let next := arNext s r
  let old := arOld s r
  let q1 := match lastHit (seqDist old next) s r blk blocks old none with
    | some q => (q + 1) % 2 ^ 32
    | none => old
  let q2 := if arIdxN s r < seqDist q1 next + 1 then (next + 1 + 2 ^ 32 - arIdxN s r) % 2 ^ 32 else q1
  if q2 = old then s
  else setOld s r q2 (match recSpan s r q2 with
    | some x => x.1
    | none => blk)

/-- R282: NEXTSEQ, WRBLK, EPOCH and OPEN advance. -/
def advanceRing (s : State) (r blk blocks epoch opened : Nat) : State :=
  let s := setArW (setArW (setArW s r 8 ((arNext s r + 1) % 2 ^ 32)) r 9 epoch) r 10 (blk + blocks)
  setArOpen s r (arOpen s r + opened)

/-- R280: a record header of 64 bytes. `kind` holds SIFT, DIFF and VOID. -/
def recHeader (r seq epoch sub gen reach kind : Nat) (w : World) (time : DWord) (olen blocks : Nat)
    (payload : List Byte) : List Byte :=
  let h := wordsBytes [0x544C4953#32, pack [(0, 8, r), (8, 3, kind), (12, 4, 1)], BitVec.ofNat 32 seq, BitVec.ofNat 32 epoch,
    lo time, hi time, BitVec.ofNat 32 payload.length, BitVec.ofNat 32 olen,
    pack [(0, 12, sub), (12, 4, gen), (16, 1, worldBit w), (17, 5, reach)], pack [(0, 13, blocks)],
    0, 0, 0, 0, 0]
  h ++ toBytes 4 (crc32c (h ++ payload)).toNat

/-- R280: a header is valid when MAGIC, VER and CRC are right; the bytes begin with the header. -/
def headerOk (bs : List Byte) : Bool :=
  let len := (wordAt bs 6).toNat
  wordAt bs 0 == 0x544C4953#32 && fld (wordAt bs 1) 15 12 == 1
    && crc32c (bs.take 60 ++ (bs.drop 64).take len) == wordAt bs 15

/-! ### Checkpoints (R288) -/

/-- R288: the checkpoint block: W8 to W15, CKCNT, the time, and a CRC in its last four bytes (log entry 23: the places of
CKCNT and the time). -/
def ckptBytes (s : State) (r cnt : Nat) : List Byte :=
  let body := padTo 0 4092 (wordsBytes (((List.range 8).map fun i => arW s r (8 + i)) ++
    [BitVec.ofNat 32 cnt, lo s.now, hi s.now]))
  body ++ toBytes 4 (crc32c body).toNat

/-- R288: a checkpoint is written, blocks A and B in turn. -/
def writeCkpt (s : State) (r : Nat) : State :=
  let x : RingX := tget {} s.silt.ringx r
  let cnt := (x.ckcnt + 1) % 2 ^ 32
  let s := writeBlocks s (arCkpt s r + (if x.nextB then 4096 else 0)) (ckptBytes s r cnt) (.checkpoint r)
  s.modSilt fun y => { y with ringx := tset y.ringx r { x with ckcnt := cnt, since := 0, nextB := !x.nextB } }

/-! ### Commands of the rings' registers (R287, R289) -/

/-- The command state of a world. -/
def ringCmd (s : State) : World → RingCmd
  | .safety => s.silt.cmdS
  | .service => s.silt.cmdV
def setRingCmd (s : State) (w : World) (c : RingCmd) : State :=
  s.modSilt fun x => match w with
    | .safety => { x with cmdS := c }
    | .service => { x with cmdV := c }

/-- R289: a DISABLE takes effect once no record is open. -/
def disableNow (s : State) (r : Nat) : State :=
  let s := if arState s r = 2 then writeCkpt s r else s
  setArState s r 0

/-- R289: a DISABLE that waits for this ring ends once no record is open. -/
def finishDisable (s : State) (r : Nat) : State :=
  if arOpen s r ≠ 0 then s
  else
    let one (s : State) (w : World) : State :=
      let c := ringCmd s w
      if c.busy && c.ring == r then setRingCmd (disableNow s r) w { c with busy := false, result := 0 } else s
    one (one s .safety) .service

/-! ### Records in progress (R284, R285) -/

/-- R284 step 4, R285, R288: a record or void is settled: its index entry, COMMITTED, OPEN, a due checkpoint. -/
def settleRec (s : State) (x : Rec) (void : Bool) : State :=
  let r := x.ring
  let s := setIdx s r x.seq x.epoch x.blk x.blocks void
  let s := setArW s r 14 x.seq
  let s := setArOpen s r (arOpen s r - 1)
  let s := s.modSilt fun y => { y with recs := y.recs.filter fun z => !(z.ring == r && z.seq == x.seq) }
  let s := if void then s
    else
      let s := s.modSilt fun y => { y with ringx := tmod {} y.ringx r fun g => { g with since := g.since + 1 } }
      if arState s r = 2 ∧ arCkptRec s r ≤ (tget {} s.silt.ringx r : RingX).since then writeCkpt s r else s
  finishDisable s r

/-- The open records of a ring, in sequence order. -/
def recsOf (s : State) (r : Nat) : List Rec := s.silt.recs.filter fun x => x.ring == r

/-- A record changed. -/
def modRec (s : State) (r q : Nat) (f : Rec → Rec) : State :=
  s.modSilt fun y => { y with recs := y.recs.map fun z => if z.ring == r && z.seq == q then f z else z }

/-- R284 step 2: the commit unit releases the record's commit mark. -/
def releaseMark (s : State) (r q : Nat) : State := modRec s r q fun z => { z with mark := true }

/-- The command of an open record has not ended. -/
def recLives (s : State) (x : Rec) : Bool :=
  (s.sub x.sub).prog.work.seq == some x.seq && (s.sub x.sub).prog.work.ring == x.ring && !x.dead &&
    (s.sub x.sub).prog.phase != .none

/-- R273, R285: the command of a record that is lost ends: before the commit mark at once, after it with device end. -/
def loseRec (s : State) (x : Rec) (drive sct sc kind lba : Nat) : State :=
  if !recLives s x then s
  else
    let s := siltSense s x.sub 0x0903 drive sct sc kind lba x.ring x.seq
    if x.mark ∧ (s.sub x.sub).prog.phase = .archive then deviceEnd s x.sub csInterface 0 0x0903
    else if x.mark then
      s.modSub x.sub fun b => { b with prog := { b.prog with after := some (csInterface, 0, 0x0903) } }
    else siltEnd s x.sub

/-! ### Drives of a store range (R274, R276) -/

/-- The drives that hold blocks [a, a + 4096 n) of the store, within one extent. -/
def drivesIn (s : State) (a n e : Nat) : List Nat :=
  let lo := Nat.max a (e * 2 ^ 36)
  let hi := Nat.min (a + 4096 * n) ((e + 1) * 2 ^ 36)
  let u0 := lo % 2 ^ 36 / 4096 / extUnit s e
  let u1 := (hi - 1) % 2 ^ 36 / 4096 / extUnit s e
  (List.range (Nat.min (u1 - u0 + 1) (extWays s e))).map fun i => extDrive s e ((u0 + i) % extWays s e)

/-- The drives that hold n blocks from a store address. -/
def drivesOf (s : State) (a n : Nat) : List Nat := (extentsOf a n).flatMap (drivesIn s a n)

/-- The drives that hold a ring's blocks and its checkpoints. -/
def ringDrives (s : State) (r : Nat) : List Nat := drivesOf s (arBase s r) (arSize s r) ++ drivesOf s (arCkpt s r) 2

/-- Every drive holding ring blocks is READY (R289). -/
def ringReady (s : State) (r : Nat) : Bool := (ringDrives s r).all fun d => (s.drv d).st == .ready

/-- R289: a ring enters OFFLINE: its open records end under R273 and are absent; one whose header is written is committed. With
every drive READY it recovers at once. -/
def ringOffline (s : State) (r drive kind : Nat) : State :=
  if arState s r ≠ 1 ∧ arState s r ≠ 2 then s
  else
    let s := setArState s r 3
    let xs := (recsOf s r).filter fun x => !x.written
    let s := xs.foldl (fun s x => loseRec s x drive 0 0 kind 0) s
    let mine (u : NvUse) : Bool := match u with
      | .payload g _ | .header g _ | .void g _ | .checkpoint g => g == r
      | _ => false
    let s := orphanNv (s.modSilt fun y => { y with recs := y.recs.filter fun z => z.ring != r || z.written }) mine
    let s := finishDisable (setArOpen s r (recsOf s r).length) r
    if arState s r = 3 ∧ ringReady s r then setArState s r 1 else s

/-! ### Drives (R272 to R274, R278) -/

/-- A ring has blocks, or a checkpoint, on a drive (R289). -/
def ringOn (s : State) (r d : Nat) : Bool := arValid s r && (ringDrives s r).contains d

/-- R274: a ring has a block on a drive. -/
def ringHas (s : State) (r d : Nat) : Bool := arValid s r && (drivesOf s (arBase s r) (arSize s r)).contains d

/-- The first drive of a ring that is not READY. -/
def ringAway (s : State) (r : Nat) : Nat := ((ringDrives s r).find? fun d => (s.drv d).st != .ready).getD 0

/-- R290: a command that meets an OFFLINE ring ends. -/
def siltAway (s : State) (n r q : Nat) : State := siltEnd (siltSense s n 0x0903 (ringAway s r) 0 0 3 0 r q) n

/-- R273: what the end of a failed NVMe command does. -/
def failNv (s : State) (c : NvCmd) (sct sc kind : Nat) : State :=
  let s := dropNv s c
  if c.orphan then s
  else match c.use with
  | .payload r q =>
    match s.silt.recs.find? fun x => x.ring == r && x.seq == q with
    | none => s
    | some x =>
      let s := loseRec s x c.drive sct sc kind c.lba
      if x.mark then ringOffline s r c.drive kind else modRec s r q fun z => { z with dead := true }
  | .header r q =>
    match s.silt.recs.find? fun x => x.ring == r && x.seq == q with
    | none => s
    | some x => ringOffline (loseRec s x c.drive sct sc kind c.lba) r c.drive kind
  | .void r _ => ringOffline s r c.drive kind
  | .checkpoint _ => s
  | .fetch n g =>
    match dropStale s n g s.now 4 with
    | some s' => s'
    | none =>
    let b := s.sub n
    if b.prog.phase = .fetching ∧ !c.dead then
      let s := orphanNv s fun u => match u with
        | .fetch m _ => m == n
        | _ => false
      let w (i : Nat) : Word := wordAt b.prog.work.bytes (8 * b.prog.work.desc + i)
      let raw := bitOf (w 1) 16
      siltEnd (siltSense s n 0x0903 c.drive sct sc kind c.lba (if raw then 0 else fld (w 1) 7 0)
        (if raw then 0 else (w 0).toNat)) n
    else s
  | .copyRead _ | .copyWrite => s.modSilt fun y => { y with copy := { y.copy with err := true } }
  | .flush => s

/-- R273, R289: a drive leaves READY or its link: its commands end, and its rings go OFFLINE when it was READY. -/
def driveGone (s : State) (d : Nat) (ready : Bool) : State :=
  let s := (s.silt.nv.filter fun c => c.drive == d && !c.done).foldl (fun s c => failNv s c 0 0 3) s
  if !ready then s
  else foldN 256 (fun s r => if (arState s r == 1 || arState s r == 2) && ringOn s r d then ringOffline s r d 3 else s) s

/-- R272: a drive enters FAILED. -/
def driveFail (s : State) (d reason : Nat) : State :=
  let ready := (s.drv d).st == .ready
  let s := s.modDrv d fun x => { x with st := .failed, reason := reason, ioq := 0, wcache := false }
  siltEvent (driveGone s d ready)

/-- R268: lanes of a drive's link; 0 when the bifurcation of its port does not provide the drive. -/
def driveLanes (s : State) (d : Nat) : Nat :=
  match fld (s.reg (Reg.siltPortCfg (d / 4))) 1 0 with
  | 0 => if d % 4 = 0 then 4 else 0
  | 1 => if d % 4 < 2 then 2 else 0
  | 2 => 1
  | _ => 0

/-- R269: the highest rate of a port, as a generation. -/
def portGen (s : State) (p : Nat) : Nat := 4 - fld (s.reg (Reg.siltPortCfg p)) 3 2

/-- DRIVE_LINK_UP (R268, R269, R272): the link trains within the port's rate and the link's lanes; not while a RESET pulse of
100 ms runs. -/
def driveLinkUp (s : State) (d width speed : Nat) : State :=
  let x := s.drv d
  if x.st ≠ .absent || !bitOf (s.reg Reg.siltCtl) 0 || driveLanes s d == 0
      || (x.perst && decide (s.now.toNat < x.since.toNat + 100000000)) then s
  else s.modDrv d fun x => { x with
    st := .init, linkUp := true, width := Nat.min width (driveLanes s d), speed := Nat.min speed (portGen s (d / 4)),
    perst := false, since := s.now }

/-- R276: some extent of which the drive is a member exceeds its namespace. -/
def driveBroken (s : State) (d : Nat) : Bool :=
  (List.range 4096).any fun e => extValid s e && (extDrives s e).contains d
    && decide ((s.drv d).blocks < extLba s e + extShare s e)

/-- R272, R289: a drive enters READY: its write cache is enabled, BROKEN is judged, and rings that waited for it recover. -/
def driveReady (s : State) (d : Nat) : State :=
  let s := s.modDrv d fun x => { x with
    st := .ready, tmoRun := 0, wcache := true, flushed := false, latSum := 0, latN := 0, latMax := 0, latAt := s.now }
  let s := s.modDrv d fun x => { x with broken := driveBroken s d }
  let s := foldN 256 (fun s r => if arState s r == 3 && ringOn s r d && ringReady s r then setArState s r 1 else s) s
  siltEvent s

/-- DRIVE_IDENTIFY_COMPLETE (R272, R269, R270). -/
def driveIdentifyComplete (s : State) (d : Nat) (i : DriveId) : State :=
  let x := s.drv d
  if x.st ≠ .init then s
  else if !i.nvme then driveFail s d 2
  else if !i.adminOk then driveFail s d 3
  else
    let s := s.modDrv d fun x => { x with
      blocks := i.blocks, maxXfer := Nat.min 32 (Nat.max 1 i.mdts), ioq := Nat.min 8 i.queues }
    if !(x.any || x.serial == i.serial) then s.modDrv d fun x => { x with st := .foreign }
    else if !i.fmt4k then driveFail s d 4
    else driveReady s d

/-- DRIVE_INIT_TIMEOUT (R272). -/
def driveInitTimeout (s : State) (d : Nat) : State := if (s.drv d).st = .init then driveFail s d 1 else s

/-- R272: a drive enters ABSENT. -/
def driveAbsent (s : State) (d : Nat) (perst : Bool) : State :=
  let ready := (s.drv d).st == .ready
  let s := s.modDrv d fun x => { x with
    st := .absent, linkUp := false, width := 0, speed := 0, ioq := 0, slow := false, wcache := false, perst := perst, since := s.now }
  siltEvent (driveGone s d ready)

/-- DRIVE_LINK_DOWN (R272). -/
def driveLinkDown (s : State) (d : Nat) : State :=
  match (s.drv d).st with
  | .ready | .init | .removing => driveAbsent s d false
  | .absent => s
  | .foreign | .failed => s.modDrv d fun x => { x with linkUp := false, width := 0, speed := 0 }

/-- DRIVE_RESET (R272): SPERST_n is pulsed for 100 ms. -/
def driveReset (s : State) (d : Nat) : State := if (s.drv d).st = .failed then driveAbsent s d true else s

/-- R274: a ring is emptied. -/
def emptyRing (s : State) (r : Nat) : State :=
  let next := arNext s r
  let s := setArW (setArW (setArW s r 11 next) r 13 next) r 14 ((next + 2 ^ 32 - 1) % 2 ^ 32)
  setArW (setArW (setArW s r 9 ((arEpoch s r + 1) % 2 ^ 32)) r 10 0) r 12 0

/-- DRIVE_ADOPT (R272, R274). -/
def driveAdopt (s : State) (d : Nat) : State :=
  if (s.drv d).st ≠ .foreign then s
  else driveReady (foldN 256 (fun s r => if ringHas s r d then emptyRing s r else s) s) d

/-- A drive has commands in its queues. -/
def nvBusy (s : State) (d : Nat) : Bool := s.silt.nv.any fun c => c.drive == d && !c.done && !c.wait

/-- R272: once every command issued to a drive that is REMOVING has finished, the Flush follows. -/
def removeNext (s : State) (d : Nat) : State :=
  if (s.drv d).st = .removing ∧ !(s.drv d).flushed ∧ !nvBusy s d then
    issueNv (s.modDrv d fun x => { x with flushed := true }) { id := 0, drive := d, lba := 0, blocks := 0, use := .flush }
  else s

/-- DRIVE_REMOVE (R272, R289): no new commands; a Flush follows those issued; rings with blocks there go OFFLINE. -/
def driveRemove (s : State) (d : Nat) : State :=
  if (s.drv d).st ≠ .ready then s
  else
    let s := s.modDrv d fun x => { x with st := .removing, flushed := false, since := s.now }
    let s := foldN 256 (fun s r => if (arState s r == 1 || arState s r == 2) && ringOn s r d then ringOffline s r d 3 else s) s
    let s := (s.silt.nv.filter fun c => c.drive == d && c.wait).foldl (fun s c => failNv s c 0 0 3) s
    removeNext s d

/-- DRIVE_SHUTDOWN_COMPLETE (R272): the normal shutdown after the Flush has completed, or 2 s have passed; SPERST_n stays
asserted. -/
def driveShutdownComplete (s : State) (d : Nat) : State :=
  let x := s.drv d
  if x.st = .removing ∧ ((x.flushed ∧ !nvBusy s d) ∨ x.since.toNat + 2000000000 ≤ s.now.toNat) then driveAbsent s d true else s

/-- R278: a write of a drive has completed. -/
def noteLatency (s : State) (c : NvCmd) : State :=
  let ns := s.now.toNat - c.issued.toNat
  if c.write then s.modDrv c.drive fun x => { x with latSum := x.latSum + ns, latN := x.latN + 1, latMax := Nat.max x.latMax ns } else s

/-- R278: a time of `ns` over `n` writes in µs, saturating at 16 bits; `up` rounds what is left over up. -/
def latencyUs (up : Bool) (ns n : Nat) : Nat :=
  let k := 1000 * Nat.max 1 n
  Nat.min 0xFFFF ((if up then ns + k - 1 else ns) / k)

/-- DRIVE_LATENCY_WINDOW (R278): mean and largest write latency of a window of 100 ms; SLOW_LAT counts 0.1 ms. The spec does not
say how the two are rounded to µs: the sender tells which is rounded up. A window without a write reports 0 (DESIGN CHOICE, log
entry 64). -/
def driveLatencyWindow (s : State) (d : Nat) (meanUp maxUp : Bool) : State :=
  let x := s.drv d
  if x.st ≠ .ready ∨ s.now.toNat < x.latAt.toNat + 100000000 then s
  else
    let slow := decide (100000 * fld (s.reg Reg.siltCtl) 23 16 * x.latN < x.latSum)
    let s := s.modDrv d fun x => { x with
      mean := latencyUs meanUp x.latSum x.latN, max := latencyUs maxUp x.latMax 1, slow := slow, latSum := 0, latN := 0, latMax := 0, latAt := s.now }
    if slow && !x.slow then siltEvent s else s

/-- DRIVE_CSTS_CFS (R272). -/
def driveCstsCfs (s : State) (d : Nat) : State := if (s.drv d).st = .ready then driveFail s d 5 else s

/-! ### Completions (R273) -/

/-- R292: the copy's read has come: its data goes to the destination with FUA. -/
def copyWrite (s : State) (c : NvCmd) (off : Nat) (data : List Byte) : State :=
  let dst := (s.reg Reg.siltCopyDstLo).toNat + 2 ^ 32 * fld (s.reg Reg.siltCopyDstHi) 15 0
  writeBlocks s (dst + 4096 * off) (padTo 0 (4096 * c.blocks) (data.take (4096 * c.blocks))) .copyWrite

/-- R284, R285, R292: a successful completion by its use. -/
def nvDone (s : State) (c : NvCmd) (data : List Byte) : State :=
  if c.orphan then dropNv s c
  else match c.use with
  | .payload _ _ | .checkpoint _ | .flush | .copyWrite => dropNv s c
  | .copyRead off => if s.silt.copy.err then dropNv s c else copyWrite (dropNv s c) c off data
  | .header r q => modRec (dropNv s c) r q fun z => { z with written := true }
  | .void r q =>
    let s := dropNv s c
    match s.silt.recs.find? fun x => x.ring == r && x.seq == q with
    | some x => settleRec s x true
    | none => s
  | .fetch n g =>
    match dropStale s n g s.now 4 with
    | some s' => dropNv s' c
    | none =>
      if c.dead then dropNv s c else
      let bs := padTo 0 (4096 * c.blocks) (data.take (4096 * c.blocks))
      bouncePut (s.modSilt fun y => { y with nv := y.nv.map fun z =>
        if z.id == c.id then { z with done := true, data := bs } else z }) bs

/-- R292: a copy command is in flight. -/
def copyBusy (s : State) : Bool := s.silt.nv.any fun c => match c.use with
  | .copyRead _ | .copyWrite => !c.dead
  | _ => false

/-- R292: with the 4 MiB copy buffer empty the next reads of the copy are issued; a drive that is not READY is a drive error. -/
def copyNext (s : State) : State :=
  let c := s.silt.copy
  if !c.busy || c.err || copyBusy s then s
  else
    let src := (s.reg Reg.siltCopySrcLo).toNat + 2 ^ 32 * fld (s.reg Reg.siltCopySrcHi) 15 0
    let dst := (s.reg Reg.siltCopyDstLo).toNat + 2 ^ 32 * fld (s.reg Reg.siltCopyDstHi) 15 0
    let k := Nat.min 1024 ((s.reg Reg.siltCopyLen).toNat - c.next)
    if k = 0 then s
    else if (drivesOf s (src + 4096 * c.next) k ++ drivesOf s (dst + 4096 * c.next) k).any (fun d => (s.drv d).st != .ready) then
      s.modSilt fun y => { y with copy := { y.copy with err := true } }
    else
      let s := (cutRuns k s (src + 4096 * c.next) 0 k).foldl (fun s r =>
        issueNv s { id := 0, drive := r.1, lba := r.2.1, blocks := r.2.2.2, use := .copyRead (c.next + r.2.2.1) }) s
      s.modSilt fun y => { y with copy := { y.copy with next := c.next + k } }

/-- What follows the end of a command of a drive: waiting commands enter its queues, a REMOVE goes on, the copy goes on. -/
def nvNext (s : State) (d : Nat) : State := copyNext (removeNext (nvEnter s d) d)

/-- R269: AER errors that the drive reported with a transaction. -/
def noteAer (s : State) (d : Nat) (cor unc : Bool) : State :=
  s.modDrv d fun x => { x with
    aerCor := if cor then satInc 255 x.aerCor else x.aerCor, aerUnc := if unc then satInc 255 x.aerUnc else x.aerUnc }

/-- NVME_COMPLETION (R273, R278): `cor` and `unc` tell a correctable and an uncorrectable AER error met on the way (R269). -/
def nvmeCompletion (s : State) (id sct sc : Nat) (data : List Byte) (cor unc : Bool) : State :=
  match s.silt.nv.find? fun c => c.id == id && !c.done && !c.wait with
  | none => s
  | some c =>
    let s := noteAer (noteLatency (s.modDrv c.drive fun x => { x with tmoRun := 0 }) c) c.drive cor unc
    let s := if sct = 0 ∧ sc = 0 then nvDone s c data
      else failNv (s.modDrv c.drive fun x => { x with errStatus := satInc 255 x.errStatus }) c sct sc 1
    nvNext s c.drive

/-- NVME_COMMAND_TIMEOUT (R273, R272): TMO ms have passed; the third in a row fails the drive. -/
def nvmeCommandTimeout (s : State) (id : Nat) : State :=
  match s.silt.nv.find? fun c => c.id == id && !c.done && !c.wait with
  | none => s
  | some c =>
    if s.now.toNat < c.issued.toNat + 1000000 * Nat.max 1 (fld (s.reg Reg.siltCtl) 15 8) then s
    else
      let s := s.modDrv c.drive fun x => { x with errTmo := satInc 255 x.errTmo, tmoRun := x.tmoRun + 1 }
      let s := failNv s c 0 0 2
      let s := if 3 ≤ (s.drv c.drive).tmoRun ∧ (s.drv c.drive).st = .ready then driveFail s c.drive 5 else s
      nvNext s c.drive

/-! ### Allocation and the writes of a record (R271, R282 to R285) -/

/-- R271: pages of the bounce buffer in use: the blocks of commands in flight, the copy's apart (R292). -/
def bounceUsed (s : State) : Nat := s.silt.nv.foldl (fun a c => match c.use with
  | .copyRead _ | .copyWrite => a
  | _ => a + c.blocks) 0

/-- R271: the bounce buffer has room for this many blocks; a record larger than the buffer passes through it when empty. -/
def bounceFits (s : State) (blocks : Nat) : Bool :=
  decide (bounceUsed s + blocks ≤ s.silt.bouncePages) || decide (bounceUsed s = 0)

/-- R280: the blocks of a record with this payload length. -/
def recBlocks (len : Nat) : Nat := (64 + len + 4095) / 4096

/-- R284 steps 1 and 2: every payload write of the record is issued: channel end, and the commit request follows. -/
def issuePayload (s : State) (n : Nat) : State :=
  let b := s.sub n
  let w := b.prog.work
  match w.seq with
  | none => s
  | some q =>
    match s.silt.recs.find? fun x => x.ring == w.ring && x.seq == q with
    | none => s
    | some x =>
      let s := bouncePut s (w.bytes.drop 4032)
      let s := writeBlocks s (arBase s w.ring + 4096 * (x.blk + 1)) (w.bytes.drop 4032) (.payload w.ring q)
      s.modSub n fun b => { b with prog := { b.prog with
        phase := .commitReq, lastReq := some (posAddr b.prog.op b.prog.pos),
        held := { b.prog.held with mark := some (w.ring, q) }, work := { b.prog.work with bounce := true, bytes := [] } } }

/-- R282: the stored length of the command's record: without SIFT it is known before a SAMPLE captures and before the payload of
an ARCHIVE is read. -/
def recLen (w : Work) : Nat := if w.left ≠ 0 || w.unread then w.olen else w.bytes.length

/-- R280: the header of a record whose payload has grown or shrunk since its allocation (a SAMPLE that has captured). -/
def sealRec (s : State) (n : Nat) : State :=
  let w := (s.sub n).prog.work
  match w.seq with
  | none => s
  | some q => modRec s w.ring q fun x =>
    let head := recHeader w.ring q x.epoch n x.gen (s.sub n).attr.reach w.kind x.world w.t0 w.olen x.blocks w.bytes
    { x with head := padTo 0 4096 (head ++ w.bytes.take 4032) }

/-- R62, R282: the payload of an ARCHIVE without SIFT, its record allocated: channel end once it is read. The CCWs of its data
area are walked again for it (log entry 57). -/
def readPayload (s : State) (n : Nat) : State :=
  let (s, bs, a) := sourceArea s n fun _ => none
  match a.err with
  | some e => endProgram s n 0x01 e
  | none =>
    sealRec (s.modSub n fun b => { b with prog := { b.prog with
      dstat := b.prog.dstat ||| dsChannelEnd,
      work := { b.prog.work with bytes := bs.take b.prog.work.olen, unread := false } } }) n

/-- R284 step 2, R282: what follows an allocation: the captures of a SAMPLE without SIFT, the payload of an ARCHIVE without it,
or the payload writes. -/
def afterAllocate (s : State) (n blocks : Nat) : State :=
  if (s.sub n).prog.work.left ≠ 0 then s.modSub n fun b => { b with prog := { b.prog with phase := .sampling } }
  else
    let s := if (s.sub n).prog.work.unread then readPayload s n else s
    if (s.sub n).prog.phase = .archive ∧ bounceFits s blocks then issuePayload s n else s

/-- R280: TIME of an allocated record is that of its first sample, which has just been taken. -/
def timeRec (s : State) (r q : Nat) : State :=
  modRec s r q fun z => { z with head := z.head.take 16 ++ toBytes 8 s.now.toNat ++ z.head.drop 24 }

/-- A command waits for the allocation of its record in a ring. -/
def awaitsRec (p : Prog) (r : Nat) : Bool :=
  p.phase == .archive && p.work.ring == r && p.work.seq.isNone && p.work.raw == [] && !p.committed

/-- R282: allocations in one ring take place in the order in which the commands reached the Silt store. -/
def firstToAllocate (s : State) (n r : Nat) : Bool :=
  s.subs.all fun x => x.1 == n || !awaitsRec x.2.prog r || decide ((s.sub n).prog.work.arr ≤ x.2.prog.work.arr)

/-- R283, R289: an allocation meets blocks of records that the index rebuild has not read yet: they lie from OLDBLK up to where
the scan began. Which records these are stands on the drives alone, so the allocation waits for the rebuild (log entry 42). -/
def meetsUnread (s : State) (r blk blocks : Nat) : Bool :=
  let x : RingX := tget {} s.silt.ringx r
  let lo := (arW s r 12).toNat
  let meets (a b : Nat) : Bool := decide (a < blk + blocks) && decide (blk < b)
  !arIndexed s r && seqDist (arOld s r) x.scanFrom != 0 && decide (seqDist (arOld s r) x.scanFrom < 2 ^ 31) &&
    (if lo < x.scanBlk then meets lo x.scanBlk else meets lo (arSize s r) || meets 0 x.scanBlk)

/-- RECORD_ALLOCATE (R281 to R283, R277, R290, R529): the archive command of a subchannel takes its sequence and blocks, or
waits while 255 records of the ring are open; a SAMPLE has no first sample yet, so TIME is open. -/
def recordAllocate (s : State) (n : Nat) : State :=
  let b := s.sub n
  let w := b.prog.work
  let r := w.ring
  if b.prog.phase ≠ .archive ∨ w.seq.isSome ∨ w.raw ≠ [] ∨ b.prog.committed then s
  else if arState s r = 3 then siltAway s n r 0
  else if arState s r = 0 then endProgram s n 0x01 (progCheck 0x0108)
  else if arState s r ≠ 2 then (if b.st = .haltPending then endHalted s n else s)
  else if !firstToAllocate s n r then s
  else
    let blocks := recBlocks (recLen w)
    let (blk, epoch) := placeRec s r blocks
    match extFault s b.attr.world true false (arBase s r + 4096 * blk) blocks with
    | some e => endProgram s n 0x01 e
    | none =>
      if meetsUnread s r blk blocks then s
      else if ringFullFor s r blk blocks then endProgram s n 0x01 { cstat := csArchiveFull, detail := 0x0C02 }
      else if 255 ≤ arOpen s r then s
      else
        let q := arNext s r
        let s := dropOverlapped s r blk blocks
        let s := advanceRing s r blk blocks epoch 1
        let (s, t0) := if w.left = 0 then (s, w.t0) else s.free
        let head := recHeader r q epoch n b.gen.toNat b.attr.reach w.kind b.attr.world t0 w.olen blocks w.bytes
        let rec_ : Rec := {
          ring := r, seq := q, epoch := epoch, blk := blk, blocks := blocks, sub := n, gen := b.gen.toNat,
          world := b.attr.world, head := padTo 0 4096 (head ++ w.bytes.take 4032) }
        let s := s.modSilt fun y => { y with recs := y.recs ++ [rec_] }
        let s := s.modSub n fun b => { b with prog := { b.prog with work := { b.prog.work with seq := some q } } }
        afterAllocate s n blocks

/-- BOUNCE_SPACE_GRANT (R271): an archive command that waited for space goes on. -/
def bounceSpaceGrant (s : State) (n : Nat) : State :=
  let w := (s.sub n).prog.work
  if (s.sub n).prog.phase = .archive ∧ w.seq.isSome ∧ !w.bounce ∧ w.left = 0 ∧ bounceFits s (recBlocks w.bytes.length) then
    issuePayload s n
  else s

/-- A payload write of a record is in flight. -/
def payloadLeft (s : State) (r q : Nat) : Bool := s.silt.nv.any fun c => c.use == .payload r q

/-- RECORD_HEADER_WRITE (R284 step 3): the oldest open record of a ring. -/
def recordHeaderWrite (s : State) (r : Nat) : State :=
  match recsOf s r with
  | [] => s
  | x :: _ =>
    if !x.mark || x.issued || payloadLeft s r x.seq then s
    else
      let s := writeBlocks (bouncePut s x.head) (arBase s r + 4096 * x.blk) x.head (.header r x.seq)
      modRec s r x.seq fun z => { z with issued := true }

/-- RECORD_COMMITTED (R284 step 4, R124): the header write of the oldest record has completed. The journal's has a row of its
own, JOURNAL_WRITE_COMPLETE. -/
def recordCommitted (s : State) (r : Nat) : State :=
  match recsOf s r with
  | [] => s
  | x :: _ =>
    if !x.written || x.sub == 4096 then s
    else
      let s := settleRec s x false
      match dropStale s x.sub x.gen s.now 4 with
      | some s' => s'
      | none =>
        let p := (s.sub x.sub).prog
        if p.work.seq = some x.seq ∧ p.work.ring = r then
          if p.phase = .archive then deviceEnd s x.sub 0 0 p.detail else s
        else s

/-- RECORD_VOID (R285): the oldest record, its command gone before its commit mark, receives a void header. -/
def recordVoid (s : State) (r : Nat) : State :=
  match recsOf s r with
  | [] => s
  | x :: _ =>
    if !x.dead || x.mark || x.issued then s
    else
      let head := recHeader r x.seq x.epoch x.sub x.gen (s.sub x.sub).attr.reach 4 x.world (BitVec.ofNat 64 (ofBytes ((x.head.drop 16).take 8))) 0 x.blocks []
      let s := writeBlocks s (arBase s r + 4096 * x.blk) (padTo 0 4096 head) (.void r x.seq)
      modRec s r x.seq fun z => { z with issued := true }

/-! ### Ring commands and recovery (R287 to R290) -/

/-- A ring command of a world: refused while one waits, or for a ring of the other world (RESULT 1). -/
def ringCommand (s : State) (w : World) (r : Nat) (act : State → RingCmd → State) : State :=
  let c := ringCmd s w
  if c.busy then s
  else if arValid s r && arWorld s r != w then setRingCmd s w { c with result := 1 }
  else act s { c with ring := r }

/-- RING_RELEASE (R287, R283). -/
def ringRelease (s : State) (w : World) (r : Nat) (seq : Word) : State :=
  ringCommand s w r fun s c =>
    if !arValid s r ∨ arState s r = 0 then setRingCmd s w { c with result := 3 }
    else
      let q := (seq.toNat + 1) % 2 ^ 32
      if seqDist (arRel s r) (arNext s r) < seqDist (arRel s r) q then setRingCmd s w { c with result := 2 }
      else setRingCmd (if arOverwrite s r then s else setArW s r 13 q) w { c with result := 0 }

/-- RING_ENABLE (R289). -/
def ringEnable (s : State) (w : World) (r : Nat) : State :=
  ringCommand s w r fun s c =>
    if arValid s r && arState s r == 0 then setRingCmd (setArState s r 1) w { c with result := 0 }
    else setRingCmd s w { c with result := 3 }

/-- RING_DISABLE (R289). -/
def ringDisable (s : State) (w : World) (r : Nat) : State :=
  ringCommand s w r fun s c =>
    if !arValid s r ∨ (arState s r ≠ 2 ∧ arState s r ≠ 3) then setRingCmd s w { c with result := 3 }
    else if arOpen s r = 0 then setRingCmd (disableNow s r) w { c with result := 0 }
    else setRingCmd s w { c with busy := true }

/-- The bytes of consecutive blocks of a ring as the reads of a scan found them. -/
def scanBytes (t : Tbl (List Byte)) (blk n : Nat) : List Byte :=
  (List.range n).flatMap fun i => padTo 0 4096 (tget [] t (blk + i))

/-- R289: a valid header of a sequence and epoch stands at a block. -/
def scanHeader (t : Tbl (List Byte)) (blk q epoch : Nat) : Option (List Byte) :=
  let h := scanBytes t blk 1
  let bs := scanBytes t blk (Nat.max 1 (fld (wordAt h 9) 12 0))
  if (wordAt h 2).toNat = q ∧ (wordAt h 3).toNat = epoch ∧ headerOk bs then some h else none

/-- R289: one step of the forward scan; none at its end. -/
def scanStep (s : State) (r : Nat) (t : Tbl (List Byte)) : Option State :=
  let q := arNext s r
  let ep := arEpoch s r
  let found := match scanHeader t (arWrblk s r) q ep with
    | some h => some (h, arWrblk s r, ep)
    | none =>
      match scanHeader t 0 q ((ep + 1) % 2 ^ 32) with
      | some h => some (h, 0, (ep + 1) % 2 ^ 32)
      | none => none
  match found with
  | none => none
  | some (h, blk, epoch) =>
    let blocks := fld (wordAt h 9) 12 0
    let s := dropOverlapped s r blk blocks
    let s := advanceRing s r blk blocks epoch 0
    let s := setIdx s r q epoch blk blocks (bitOf (wordAt h 1) 10)
    some (setArW s r 14 q)

/-- R289: the forward scan, of at most CKPT_REC headers. -/
def forwardScan : Nat → State → Nat → Tbl (List Byte) → State
  | 0, s, _, _ => s
  | fuel + 1, s, r, t =>
    match scanStep s r t with
    | some s' => forwardScan fuel s' r t
    | none => s

/-- R288: a checkpoint block is valid. -/
def ckptOk (bs : List Byte) : Bool := bs.length == 4096 && crc32c (bs.take 4092) == wordAt bs 1023

/-- R289: the valid checkpoint with the later CKCNT, compared modulo 2^32; whether it is block B. -/
def takeCkpt (a b : List Byte) : Option (List Byte × Bool) :=
  match ckptOk a, ckptOk b with
  | true, true => if seqDist (wordAt a 8).toNat (wordAt b 8).toNat < 2 ^ 31 then some (b, true) else some (a, false)
  | true, false => some (a, false)
  | false, true => some (b, true)
  | false, false => none

/-- RING_SCAN_COMPLETE (R289): the checkpoint is taken, the scan runs, the ring goes ONLINE with a checkpoint. Without a
valid checkpoint the ring starts from the words it has, empty (log entry 24). -/
def ringScanComplete (s : State) (r : Nat) (ckA ckB : List Byte) (t : Tbl (List Byte)) : State :=
  if arState s r ≠ 1 || !ringReady s r then s
  else
    let s := match takeCkpt ckA ckB with
      | some (bs, isB) =>
        let s := foldN 7 (fun s i => setArW s r (8 + i) (wordAt bs i).toNat) s
        s.modSilt fun y => { y with ringx := tset y.ringx r { ckcnt := (wordAt bs 8).toNat, nextB := !isB } }
      | none => setArW (setArW (setArW s r 11 (arNext s r)) r 13 (arNext s r)) r 14 ((arNext s r + 2 ^ 32 - 1) % 2 ^ 32)
    let s := s.modSilt fun y => { y with ringx := tmod {} y.ringx r fun g => { g with scanFrom := arNext s r, scanBlk := arWrblk s r } }
    let s := forwardScan (arCkptRec s r) (setIndexed s r false) r t
    let s := setArOpen (setArState s r 2) r (recsOf s r).length
    writeCkpt s r

/-- R289: one sequence of the index rebuild: its valid header among the blocks read, or OLDSEQ moves past it. -/
def rebuildOne (s : State) (r q : Nat) (t : Tbl (List Byte)) : State :=
  let hit := t.find? fun x => (wordAt x.2 2).toNat == q && headerOk (scanBytes t x.1 (Nat.max 1 (fld (wordAt x.2 9) 12 0)))
  match hit with
  | some (blk, h) => setIdx s r q (wordAt h 3).toNat blk (fld (wordAt h 9) 12 0) (bitOf (wordAt h 1) 10)
  | none =>
    let nq := (q + 1) % 2 ^ 32
    setOld s r nq (match t.find? fun x => (wordAt x.2 2).toNat == nq with
      | some (blk, _) => blk
      | none => (arW s r 12).toNat)

/-- INDEX_REBUILD_COMPLETE (R289): sequences OLDSEQ to COMMITTED; entries that the scan or a commit wrote stand. -/
def indexRebuildComplete (s : State) (r : Nat) (t : Tbl (List Byte)) : State :=
  if arState s r ≠ 2 || arIndexed s r then s
  else
    let n := seqDist (arOld s r) ((arDone s r + 1) % 2 ^ 32)
    let first := arOld s r
    let s := foldN n (fun s i =>
      let q := (first + i) % 2 ^ 32
      if idxStands s r q then s else rebuildOne s r q t) s
    setIndexed s r true

/-! ### Drive-to-drive copy (R292, R545) -/

/-- The blocks [a, a + n) of the store meet the blocks of a VALID ring. -/
def overRing (s : State) (a n : Nat) : Bool :=
  (List.range 256).any fun r => arValid s r && decide (arBase s r < a + 4096 * n) && decide (a < arBase s r + 4096 * arSize s r)

/-- SILT_COPY_GO (R292, R545). -/
def siltCopyGo (s : State) : State :=
  if s.silt.copy.busy then s
  else
    let src := (s.reg Reg.siltCopySrcLo).toNat + 2 ^ 32 * fld (s.reg Reg.siltCopySrcHi) 15 0
    let dst := (s.reg Reg.siltCopyDstLo).toNat + 2 ^ 32 * fld (s.reg Reg.siltCopyDstHi) 15 0
    let n := (s.reg Reg.siltCopyLen).toNat
    let set (c : SiltCopy) : State := s.modSilt fun y => { y with copy := c }
    let c := s.silt.copy
    let es := extentsOf src n ++ extentsOf dst n
    if n = 0 then set { busy := false, done := true, result := 0 }
    else if es.any (fun e => !extValid s e || extBroken s e) || (extentsOf dst n).any (extRo s) then set { c with result := 1 }
    else if overRing s dst n then set { c with result := 2 }
    else if (drivesOf s src n ++ drivesOf s dst n).any fun d => (s.drv d).st != .ready then set { c with result := 3 }
    else copyNext (set { busy := true, done := false, result := 0 })

/-- SILT_COPY_COMPLETE (R292): every destination write has completed, or a drive error ended the copy. The spec does not say what
counts as a drive error: beside an error status, a timeout and a drive that leaves READY the sender may tell of one (`err`). -/
def siltCopyComplete (s : State) (err : Bool) : State :=
  let c := s.silt.copy
  let bad := err || c.err
  if !c.busy || copyBusy s || !(bad || decide ((s.reg Reg.siltCopyLen).toNat ≤ c.next)) then s
  else s.modSilt fun y => { y with copy := { busy := false, done := !bad, result := if bad then 3 else 0 } }

end Sys2Proof.Machine
end

