-- ==== Sys2Proof/Machine/FieldRows.lean ====
section
/-! DEFINITION. What the field die does: edges, conversions, PWM and audio, diagnostics and their reports, guard bands
and calibration, common cause, reconfiguration (chapter "Field pins and the field die"). -/

namespace Sys2Proof.Machine

/-! ### Inputs (R174 to R176) -/

/-- PIN_EDGE_ACCEPT (R174, R175): a level whose change crossed the threshold at t is accepted once it has held for the filter
time; a matching edge raises source 1,024 + n at the moment its filter passes (R414). -/
def pinEdgeAccept (s : State) (n : Nat) (level : Bool) (t : DWord) : State :=
  let m := pinMode s n
  let old := (s.pin n).inLevel
  let pass := t.toNat + filterTime s n
  if !(m = modeDI ∨ m = modeFQ) || old == level || pinDead s n || decide (s.now.toNat < pass) then s
  else
    let s := s.modPin n fun p =>
      let c : Word := if m = modeFQ ∧ level then p.fq + 1 else p.fq
      { p with inLevel := level, edgeAt := t, fq := c, code := if m = modeFQ then c.setWidth 16 else p.code }
    let e := fld (s.reg (Reg.pinCfg n)) 20 19
    if (level && (e == 1 || e == 3)) || (!level && (e == 2 || e == 3)) then raiseEventAt s (Config.srcPin + n) (BitVec.ofNat 64 pass) else s

/-! ### Fault detection (R186 to R188) -/

/-- The bit of a condition in PIN_DIAG_CFG.EN; OVERTEMP (5) and OVERCURRENT (6) always run. -/
def diagEnabled (s : State) (n k : Nat) : Bool := k == 5 || k == 6 || bitOf (s.reg (Reg.pinDiagCfg n)) k

/-- R55, R226: images whose last waiting value has been applied or discarded end their commands. -/
def sluiceSweep (s : State) : State := s.sluice.foldl (fun s x => sluiceDone s x.1) s

/-- R188: the condition stands since an earlier detection; OVERTEMP belongs to the bank. -/
def diagStands (s : State) (n k : Nat) : Bool := if k = 5 then (s.bank (n / 8)).ot else bitOf (s.pin n).active k

/-- Detection of condition k on pin n (R186, R187, R183): ACTIVE, the fatal reaction, the held report; a condition that
stands and moves nothing is no new report (log entry 56). -/
def detect (s : State) (n k : Nat) : State :=
  let fatal := diagFatal s n k && !diagReportOnly s n k && isOutMode (pinMode s n) && !(k == 6 && pinSafeOn s n)
  let moves := fatal && !(s.pin n).atSafe
  let new := moves || !diagStands s n k
  let s := s.modPin n fun p => { p with active := setBit p.active k true }
  let s := if fatal then
      let s := safePin s n true
      s.modPin n fun p => { p with latchOff := true }
    else s
  if new then s.modFd fun f => { f with reports := f.reports ++ [⟨n, k + 1, s.now, moves⟩] } else s

/-- OVERCURRENT_TRIP (R186, R187, R183). -/
def overcurrentTrip (s : State) (n : Nat) : State := if diagApplies s n 6 then sluiceSweep (detect s n 6) else s

/-- The outputs of a bank that passed its self-test. -/
def bankOutputs (s : State) (b : Nat) : List Nat :=
  if (s.bank b).failed then []
  else (List.range 8).filterMap fun i => if isOutMode (pinMode s (8 * b + i)) then some (8 * b + i) else none

/-- DIAGNOSTIC_DETECT (R186, R187, R242): OVERTEMP acts on every output of the bank; `fb` says that the FB-based part of
SHORT_SUP or SHORT_GND detects the condition. -/
def diagnosticDetect (s : State) (n k : Nat) (fb : Bool) : State :=
  if k = 5 then
    let b := n / 8
    let s := (bankOutputs s b).foldl (fun s m => detect s m 5) s
    sluiceSweep (s.modBank b fun x => { x with ot := true })
  else if diagEnabled s n k && diagApplies s n k && (!(fb && decide (k < 2)) || fbApplies s n) then sluiceSweep (detect s n k)
  else s

/-- DIAGNOSTIC_CHECK_PASS (R188, R187): ACTIVE clears; OVERCURRENT and OVERTEMP stay while LATCHOFF is 1; the bank hold
of OVERTEMP ends. -/
def diagnosticCheckPass (s : State) (n k : Nat) : State :=
  if k = 5 then
    let s := s.modBank (n / 8) fun x => { x with ot := false }
    (bankOutputs s (n / 8)).foldl (fun s m =>
      s.modPin m fun p => if p.latchOff then p else { p with active := setBit p.active 5 false }) s
  else s.modPin n fun p => if k == 6 && p.latchOff then p else { p with active := setBit p.active k false }

/-- WETTING_PULSE (R176, R186, R188): the pulse of a DI pin at its slot of the 2 ms period; with EOL the line voltage
(mV) at its end is checked. -/
def wettingPulse (s : State) (n mv : Nat) : State :=
  let cfg := s.reg (Reg.pinCfg n)
  if pinMode s n ≠ modeDI ∨ !bitOf cfg 25 ∨ bitOf cfg 26 ∨ pinDead s n then s
  else if s.now.toNat % 2000000 / 20000 ≠ n % 100 then s
  else
    let s := s.modPin n fun p => { p with wetAt := s.now }
    if bitOf cfg 28 && diagEnabled s n 2 then
      let c2 := s.reg (Reg.pinCfg2 n)
      if mv < fld c2 27 24 * 2000 ∨ fld c2 31 28 * 2000 < mv then detect s n 2
      else s.modPin n fun p => { p with active := setBit p.active 2 false }
    else s

/-- R188: the test period of a pin, in ns; OPEN_PER 0 means 10. -/
def testPeriod (s : State) (n : Nat) : Nat :=
  let v := fld (s.reg (Reg.pinDiagCfg n)) 23 16
  10000000 * (if v = 0 then 10 else v)

/-- TEST_PULSE (R188), once a test period: never on an output that is on; the outcome decides OPEN and SHORT_GND. -/
def testPulse (s : State) (n : Nat) (isOpen isShort : Bool) : State :=
  let m := pinMode s n
  if !isOutMode m || pinLevel s n || pinDead s n || notYet s (s.pin n).testAt (testPeriod s n) then s
  else
    let s := s.modPin n fun p => { p with testAt := s.now }
    let one (s : State) (k : Nat) (bad : Bool) : State :=
      if !(diagEnabled s n k && diagApplies s n k) then s
      else if bad then detect s n k
      else s.modPin n fun p => { p with active := setBit p.active k false }
    let s := one s 2 isOpen
    sluiceSweep (if m = modeLS then one s 1 isShort else s)

/-- R189: the pins that take part in the walk. -/
def walks (s : State) (n : Nat) : Bool := bitOf (s.reg (Reg.pinCfg n)) 27 && !pinDead s n

/-- R189: an output that is on neither pulses nor watches. -/
def walkOn (s : State) (n : Nat) : Bool := isOutMode (pinMode s n) && pinLevel s n

/-- The pin the walk visits next, skipping outputs that are on (they come once at the end), and what then remains. -/
def walkNext (s : State) : Option (Nat × Nat × List Nat) :=
  let ahead := (List.range 96).filter fun n => decide (s.fd.walkPos ≤ n) && walks s n
  let on := ahead.takeWhile (walkOn s)
  match ahead.drop on.length with
  | n :: _ => some (n, n + 1, s.fd.walkSkip ++ on)
  | [] =>
    match (s.fd.walkSkip ++ on).dropWhile (walkOn s) with
    | n :: rest => some (n, 96, rest)
    | [] => none

/-- R188: the walk has ended: CROSS clears on the visited pins on which it was not detected. -/
def walkEnd (s : State) : State :=
  let s := (s.fd.walkSeen.filter fun n => !s.fd.walkHits.contains n).foldl (fun s n =>
    s.modPin n fun p => { p with active := setBit p.active 4 false }) s
  s.modFd fun f => { f with walkPos := 0, walkSkip := [], walkSeen := [], walkHits := [] }

/-- R189: pin n is visited: each watching pin that moved reports CROSS, and so does the visited one. -/
def walkVisit (s : State) (n pos : Nat) (skip moved : List Nat) : State :=
  let hits := moved.filter fun m => m != n && walks s m && !walkOn s m
  let crossed := if hits = [] then [] else n :: hits
  let s := crossed.foldl (fun s m => if diagEnabled s m 4 then detect s m 4 else s) s
  s.modFd fun f => { f with
    walkPos := pos, walkSkip := skip, walkSeen := n :: f.walkSeen, walkHits := crossed ++ f.walkHits }

/-- R189: a new walk begins once per walk period, WALK_PER × 100 ms; the steps of a walk are 100 µs apart. -/
def walkEarly (s : State) : Bool :=
  if s.fd.walkSeen = [] then notYet s s.fd.walkAt (100000000 * fld (s.reg Reg.pinCcCtl) 23 16) else notYet s s.fd.stepAt 100000

/-- WALK_STEP (R189): the next pin of the walk is visited, the first one of a new walk when no pin of this one remains. -/
def walkStep (s : State) (moved : List Nat) : State :=
  if fld (s.reg Reg.pinCcCtl) 23 16 = 0 then s
  else
    let s := if (walkNext s).isNone then walkEnd s else s
    match walkNext s with
    | none => s
    | some (n, pos, skip) =>
      if walkEarly s then s
      else
      let s := s.modFd fun f => { f with stepAt := s.now, walkAt := if f.walkSeen = [] then s.now else f.walkAt }
      let s := walkVisit s n pos skip moved
      sluiceSweep (if (walkNext s).isNone then walkEnd s else s)

/-! ### Reports (R197 to R199) -/

/-- R199 (STORM_RECORD): a record in the Basin ring, or a counted drop beyond eight in a millisecond. -/
def stormRecord (s : State) (t : DWord) (pin kind : Nat) (supp fatal : Bool) (banks : Nat) : State :=
  let base := s.reg Reg.pinStormBase
  if !bitOf base 0 then s
  else
    let ms := s.now.toNat / 1000000
    let f := s.fd
    let cnt := if f.stormMs = ms then f.stormIn else 0
    if 8 ≤ cnt then
      s.modFd fun f => { f with
        stormDrop := satInc 0xFFFFFFFF f.stormDrop, stormPend := satInc 0xFFFF f.stormPend,
        stormMs := ms, stormIn := cnt }
    else
      let newMs := decide (f.stormMs ≠ ms)
      let words : List Word := [BitVec.ofNat 32 t.toNat, BitVec.ofNat 32 (t.toNat / 2 ^ 32),
        pack [(0, 7, pin), (7, 4, kind), (11, 1, b2n supp), (12, 1, b2n fatal), (16, 16, if newMs then f.stormPend else 0)],
        pack [(0, 16, f.stormSeq), (16, 16, banks)]]
      let s := pokeMem s (Config.basinBase + fld base 23 14 * 16384 + 16 * f.stormIdx) (wordsBytes words)
      s.modFd fun f => { f with
        stormIdx := (f.stormIdx + 1) % 1024, stormSeq := (f.stormSeq + 1) % 65536, stormMs := ms, stormIn := cnt + 1,
        stormPend := if newMs then 0 else f.stormPend }

/-- R198: a report enters the bank's first-fault record. -/
def bankFirst (s : State) (b pin kind : Nat) (t : DWord) : State :=
  s.modBank b fun x =>
    if x.firstValid then
      if x.firstCount = 255 then { x with firstOvf := true } else { x with firstCount := x.firstCount + 1 }
    else { x with firstValid := true, firstPin := pin, firstKind := kind, firstTime := t, firstCount := 0, firstOvf := false }

/-- R198: a suppressed report only counts. -/
def bankCount (s : State) (b : Nat) : State :=
  s.modBank b fun x => if x.firstCount = 255 then { x with firstOvf := true } else { x with firstCount := x.firstCount + 1 }

/-- R197: the common-cause condition explains a fault of this pin at this time. -/
def explains (s : State) (r : Report) (c : CommonCause) : Bool :=
  let out := s.reg (Reg.pinOutcfg r.pin)
  let hitBank (b : Nat) : Bool := c.all || c.hit.testBit b
  let began := c.active || c.ended.isSome
  let inTime := decide (c.tcc.toNat ≤ r.time.toNat + 10000) && (match c.ended with
    | some e => c.active || decide (r.time.toNat ≤ e.toNat + 50000)
    | none => true)
  began && inTime && (hitBank (r.pin / 8) || (fld out 6 0 != 0x7F && hitBank (fld out 6 0 / 8))
    || (fld out 14 8 != 0x7F && hitBank (fld out 14 8 / 8)))

/-- R197: some common-cause condition suppresses the report. -/
def suppressed (s : State) (r : Report) : Bool := (s.fd.cc :: s.fd.ccOld).any (explains s r)

/-- R197: the conditions before the one that begins now that may still suppress a held report, or one to come. -/
def ccKept (s : State) : List CommonCause :=
  (s.fd.cc :: s.fd.ccOld).filter fun c => match c.ended with
    | some e => decide (s.now.toNat ≤ e.toNat + 50000) || s.fd.reports.any fun r => decide (r.time.toNat ≤ e.toNat + 50000)
    | none => false

/-- R198: the report that comes first among the held ones: the oldest, of those the one of the lowest pin. -/
def firstReport (r : Report) (rs : List Report) : Report :=
  rs.foldl (fun a x => if x.time.toNat < a.time.toNat || (x.time == a.time && decide (x.pin < a.pin)) then x else a) r

/-- FAULT_REPORT (R197 to R199): the first held fault, 10 µs after its detection. -/
def faultReport (s : State) : State :=
  match s.fd.reports with
  | [] => s
  | r :: rest =>
    let all := r :: rest
    let r := firstReport r rest
    let rest := all.erase r
    if s.now.toNat < r.time.toNat + 10000 then s
    else
      let s := s.modFd fun f => { f with reports := rest }
      let k := r.kind - 1
      let s := s.modPin r.pin fun p => { p with count := satInc 255 p.count }
      if suppressed s r then
        let s := if k < 7 then s.modPin r.pin fun p => { p with supp := setBit p.supp k true } else s
        let s := bankCount s (r.pin / 8)
        let s := s.modFd fun f => { f with ccSupp := satInc 0xFFFFFFFF f.ccSupp }
        stormRecord s r.time r.pin r.kind true r.fatal 0
      else
        let s := if k < 7 then s.modPin r.pin fun p => { p with sticky := setBit p.sticky k true } else s
        let s := raiseEvent s (Config.srcPin + r.pin)
        let s := bankFirst s (r.pin / 8) (r.pin % 8) r.kind r.time
        stormRecord s r.time r.pin r.kind false r.fatal 0

/-! ### Conversions, PWM, audio (R177 to R185) -/

/-- R184: what slot k of the bank's active scan list names. -/
def scanSlot (s : State) (b k : Nat) : Nat := fld (s.reg (Reg.bankScan b)) (4 * k + 3) (4 * k)

/-- R184: a scan slot of its bank names the pin. -/
def scanned (s : State) (n : Nat) : Bool := (List.range 8).any fun k => scanSlot s (n / 8) k == n % 8

/-- R184: the number of the frame whose slot k is being converted. -/
def frameOf (s : State) (k : Nat) : Nat := (s.now.toNat - 625 * k) / 5000

/-- R185, R566: the frame began after the command started. -/
def frameCounts (p : Prog) (f : Nat) : Bool := decide (p.snap.time.toNat < 5000 * f)

/-- R56: one conversion enters the PROVE windows of its pin. -/
def proveTake (s : State) (n k : Nat) (code : Half) : State :=
  s.subs.foldl (fun s x =>
    let p := x.2.prog
    if p.phase == .onCore && p.work.begun && p.first.code == 0x11 && frameCounts p (frameOf s k) then
      s.modSub x.1 fun b => { b with prog := { b.prog with work := { b.prog.work with
        prove := b.prog.work.prove.map fun it =>
          if it.pin == n && it.n < b.prog.work.interval then { it with sum := it.sum + sgn 16 code.toNat, n := it.n + 1 }
          else it } } }
    else s) s

/-- R245, R251: a command that needs no core asks for its commit; `cstat` comes with its device end. -/
def toCommit (s : State) (n : Nat) (cstat : Word) : State :=
  if (s.sub n).st = .fenced then endFenced s n
  else s.modSub n fun b => { b with prog := { b.prog with
    phase := .commitReq, lastReq := some (posAddr b.prog.op b.prog.pos), after := some (cstat, 0, 0) } }

/-- R61, R70: the captures of a SAMPLE have ended: the data area takes the first sample's time and the samples, or the
samples go on to their ring, through the Sift unit when SIFT is 1. The spec does not say what a SAMPLE stores that a HALT ends
before its first sample: nothing, since the timestamp is that of the first sample (DESIGN CHOICE, log entry 57). -/
def sampleDone (s : State) (n : Nat) : State :=
  let b := s.sub n
  let p := b.prog
  let w := p.work
  let halted := b.st == .haltPending
  if p.first.aselF = 2 then
    let (s, a) := areaOf s n true (some w.bytes.length)
    let s := setArea s n a
    match a.err with
    | some e => endProgram s n 0x01 e
    | none =>
      if p.first.skp ∨ w.bytes = [] then toCommit s n 0
      else
        let sift := w.kind % 2 = 1
        let s := s.modSub n fun b => { b with prog := { b.prog with
          phase := .archive,
          work := { w with
            left := 0, olen := w.bytes.length, raw := if sift then w.bytes else [], bytes := if sift then [] else w.bytes } } }
        if sift then s else afterAllocate (sealRec s n) n (recBlocks w.bytes.length)
  else
    let (s, a) := storeArea s n (if w.bytes = [] then [] else toBytes 8 w.t0.toNat ++ w.bytes)
    match a.err with
    | some e => endProgram s n 0x01 e
    | none => toCommit s n (lengthFlag a halted)

/-- R61, R185: a running SAMPLE takes the conversion of frame f. -/
def frameDue (p : Prog) (f : Nat) : Bool :=
  if p.work.bytes = [] then frameCounts p f else decide (p.work.frames + p.work.interval ≤ f)

/-- R61, R185: one conversion of the pin of a running SAMPLE: every PARAM-th frame is taken. -/
def sampleTake (s : State) (n k : Nat) (code : Half) : State :=
  s.subs.foldl (fun s x =>
    let w := x.2.prog.work
    let f := frameOf s k
    if x.2.prog.phase == .sampling && w.pin == n && w.left != 0 && frameDue x.2.prog f then
      let w' := { w with
        frames := f, left := if w.stopNow then 0 else w.left - 1,
        bytes := w.bytes ++ toBytes 2 code.toNat, t0 := if w.bytes = [] then s.now else w.t0 }
      let s := s.modSub x.1 fun b => { b with prog := { b.prog with work := w' } }
      let s := match w.seq with
        | some q => if w.bytes = [] then timeRec s w.ring q else s
        | none => s
      if w'.left = 0 then sampleDone s x.1 else s
    else s) s

/-- R84: a HALT has met a SAMPLE: the sample whose slot has begun is still taken; without one the captures end now. -/
def sampleStop (s : State) (n : Nat) : State :=
  let p := (s.sub n).prog
  let f := s.now.toNat / 5000
  let inSlot (k : Nat) : Bool :=
    scanSlot s (p.work.pin / 8) k == p.work.pin % 8 && decide (5000 * f + 625 * k ≤ s.now.toNat)
      && decide (s.now.toNat < 5000 * f + 625 * (k + 1))
  if p.phase ≠ .sampling ∨ !p.work.stopNow then s
  else if frameDue p f && (List.range 8).any inSlot then s
  else sampleDone s n

/-- R192, R197: an ADC reference fault makes the bank's guard band infinite and is reported once while it stands. The report
(kind 11) names some pin of the bank, a free value: the spec does not say which. -/
def refFault (s : State) (b : Nat) : State :=
  let new := !(s.bank b).refBad
  let s := s.modBank b fun x => { x with invalid := true, refBad := true, calBad := x.calRun }
  if new then
    let (s, v) := s.free
    s.modFd fun f => { f with reports := f.reports ++ [⟨8 * b + v.toNat % 8, 11, s.now, false⟩] }
  else s

/-- R184: slot k of the frame has ended, at most 100 ns ago, and its conversion has not come yet (log entry 65). -/
def slotEnds (s : State) (b k : Nat) : Bool :=
  decide ((s.now.toNat + 10000 - 625 * (k + 1)) % 5000 ≤ 100) && !notYet s (s.bank b).convAt 110

/-- ADC_SLOT_CONVERSION (R184, R185, R191, R192): the slot's source is converted; `bad` says that a HOUSE conversion of a
reference lies outside its ±0.2 %. -/
def adcSlotConversion (s : State) (b k : Nat) (code : Half) (bad : Bool) : State :=
  let src := scanSlot s b k
  if (s.bank b).failed || decide (8 < src) || !slotEnds s b k then s
  else
  let s := s.modBank b fun x => { x with convAt := s.now }
  if src < 8 then
    let n := 8 * b + src
    let m := pinMode s n
    let s := if m = modeFQ then s
      else s.modPin n fun p => { p with code := if m = modeCSU then 0 else code, calset := (s.bank b).calset }
    let v := (s.pin n).code
    sampleTake (proveTake s n k v) n k v
  else
    let s := s.modBank b fun x => { x with house := if x.calRun then satInc 800 x.house else x.house }
    if bad then refFault s b else s

/-- R181: the duty of the last consumed sample applies from this carrier boundary. -/
def dutyBoundary (s : State) (n : Nat) : State :=
  s.modPin n fun p => { p with duty := p.dutyNext.getD p.duty, dutyNext := none }

/-- PWM_PERIOD_BOUNDARY (R179 to R181): in the tick that reaches a boundary (log entry 65) a held non-zero VALUE takes effect, and its image may be complete. Playback that starts
has the duty of silence until its first sample. -/
def pwmPeriodBoundary (s : State) (n : Nat) : State :=
  if pinMode s n ≠ modePWM ∨ 10 < pwmPhase s n then s
  else
  let s := dutyBoundary s n
  match (s.pin n).pwmHold with
  | none => s
  | some v =>
    let s := if pinHeldSafe s n then safePin s n false
      else
        let s := s.modPin n fun p => { p with
          value := v, pwmHold := none, atSafe := false,
          duty := if !pinAudio s n then 0 else if p.value = 0 then 32768 else p.duty }
        s.setSluice (s.sluice.map fun x => (x.1, { x.2 with waiting := x.2.waiting.filter (· != n) }))
    sluiceSweep s

/-- R181: the duty a sample sets. -/
def audioDuty (x : Half) (value : Half) : Nat :=
  let d := 32768 + (sgn 16 x.toNat * (value.toNat : Int)).fdiv 65536
  if d < 0 then 0 else if 65535 < d then 65535 else d.toNat

/-- R181: the time between two samples, in ns, to the timebase's 10 ns below; 0 with RATE 0. -/
def audioPeriod (s : State) (n : Nat) : Nat := 100000 / fld (s.reg (Reg.pinAux n)) 26 21 * 10

/-- AUDIO_SAMPLE (R181), every 1 / RATE ms: the duty waits for the carrier's next period boundary. -/
def audioSample (s : State) (n : Nat) : State :=
  let p := s.pin n
  if pinMode s n ≠ modePWM ∨ !pinAudio s n ∨ p.value = 0 ∨ notYet s p.sampleAt (audioPeriod s n) then s
  else match p.fifo with
  | [] => s.modPin n fun p => { p with sampleAt := s.now, dutyNext := some 32768, fq := p.fq + 1 }
  | x :: rest => s.modPin n fun p => { p with sampleAt := s.now, fifo := rest, dutyNext := some (audioDuty x p.value) }

/-! ### Guard band and calibration (R191 to R193) -/

/-- R191: a calibration of the bank starts into the shadow set. -/
def startCal (s : State) (b : Nat) (bg : Bool) : State :=
  s.modBank b fun x => { x with calRun := true, calBg := bg, house := 0, calBad := false }

/-- R192: the guard band of a bank at a temperature and current: 8 + 1.5 |ΔT| + 0.04 |ΔI|, rounded up, at most 255.
TEMP counts quarter degrees and IBANK 2 mA, so the sum is over 200. -/
def guardBand (x : Bank) (temp iBank : BitVec 11) : Nat :=
  let dt := (sgn 11 temp.toNat - sgn 11 x.tCal.toNat).natAbs
  let di := ((iBank.toNat : Int) - x.iCal.toNat).natAbs
  Nat.min 255 ((1600 + 75 * dt + 16 * di + 199) / 200)

/-- GUARD_BAND_UPDATE (R192, R191), every 100 µs. -/
def guardBandUpdate (s : State) (b : Nat) (temp iBank : BitVec 11) (vfld : Nat) : State :=
  if notYet s (s.bank b).gbAt 100000 then s
  else
  let g := guardBand (s.bank b) temp iBank
  let s := s.modBank b fun x => { x with
    gbAt := s.now, g := g, temp := temp, iBank := iBank, vfld := vfld,
    otw := decide (sgn 11 temp.toNat > 560) }
  let trig := fld (s.reg (Reg.bankCtl b)) 23 16
  let x := s.bank b
  if trig ≠ 0 ∧ (trig < g ∨ x.invalid) ∧ !x.calRun ∧ !x.failed then startCal s b true else s

/-- R191: the background period in ns, 0 when disabled. -/
def bgPeriod (s : State) (b : Nat) : Nat :=
  let k := fld (s.reg (Reg.bankCtl b)) 27 24
  if k = 0 then 0 else 100000000 * 2 ^ (k - 1)

/-- BACKGROUND_CALIBRATION_PERIOD (R191). -/
def backgroundCalibrationPeriod (s : State) (b : Nat) : State :=
  let x := s.bank b
  let per := bgPeriod s b
  if per = 0 ∨ x.calRun ∨ x.failed ∨ s.now.toNat < x.calDone.toNat + per then s else startCal s b true

/-- CAL_GO (R191): an on-demand calibration; a failed bank answers RESULT 3. -/
def calGo (s : State) (b : Nat) : State :=
  let x := s.bank b
  if x.failed then s.modBank b fun x => { x with result := 3 }
  else if x.calRun && !x.calBg then s
  else startCal s b false

/-- CALIBRATION_COMPLETE (R191, R192): the shadow set becomes the active set; INVALID stays when the calibration met a
reference fault (`bad`, or one of its HOUSE conversions). -/
def calibrationComplete (s : State) (b : Nat) (temp iBank : BitVec 11) (bad : Bool) : State :=
  let x := s.bank b
  if !x.calRun ∨ x.house < 800 then s
  else
    let s := if bad then refFault s b else s
    let s := s.modBank b fun x => { x with
      calRun := false, house := 0, calset := !x.calset, tCal := temp, iCal := iBank, calTime := s.now, calDone := s.now,
      invalid := x.calBad, refBad := x.calBad, calBad := false, g := 8 }
    foldN 8 (fun s i => s.modPin (8 * b + i) fun p => { p with gInf := false }) s

/-- R193: GB_LIMIT, where 0 means 255. -/
def gbLimit (s : State) (n : Nat) : Nat :=
  let v := fld (s.reg (Reg.pinCfg2 n)) 23 16
  if v = 0 then 255 else v

/-! ### Common cause (R195, R196) -/

/-- COMMON_CAUSE_BEGIN (R195, R196, R198, R199); during a condition further causes only extend it. -/
def commonCauseBegin (s : State) (banks : Nat) (gndofs vinHi : Bool) : State :=
  if banks % 4096 = 0 ∧ !gndofs ∧ !vinHi then s
  else
    let all := gndofs || vinHi
    if s.fd.cc.active then
      s.modFd fun f => { f with cc := { f.cc with
        banks := f.cc.banks ||| banks % 4096, gndofs := f.cc.gndofs || gndofs, vinHi := f.cc.vinHi || vinHi,
        hit := f.cc.hit ||| banks % 4096, all := f.cc.all || all } }
    else
      let t := s.now
      let s := s.modFd fun f => { f with ccOld := ccKept s, cc := {
        active := true, banks := banks % 4096, gndofs := gndofs, vinHi := vinHi,
        seen := true, tcc := t, hit := banks % 4096, all := all, ended := none } }
      let s := raiseEvent s Config.srcSupply
      let s := stormRecord s t 0 8 false false (if all then 0xFFF else banks % 4096)
      sluiceSweep (foldN 12 (fun s b =>
        if all || (banks % 4096).testBit b then
          let s := if (s.bank b).firstValid then s else bankFirst s b 0 8 t
          if bitOf (s.reg (Reg.bankCtl b)) 28 then
            (bankOutputs s b).foldl (fun s n => (safePin s n true).modPin n fun p => { p with latchOff := true }) s
          else s
        else s) s)

/-- COMMON_CAUSE_END (R195). -/
def commonCauseEnd (s : State) : State :=
  if s.fd.cc.active then
    s.modFd fun f => { f with cc := { f.cc with
      active := false, banks := 0, gndofs := false, vinHi := false,
      ended := some s.now } }
  else s

/-! ### Reconfiguration (R200 to R202) -/

/-- A pin configuration: PIN_CFG, PIN_CFG2, PIN_OUTCFG, PIN_PWM, PIN_AUX, PIN_DIAG_CFG as shadows hold them. -/
def shadowPin (s : State) (n : Nat) : List Word :=
  [s.shadowReg (Reg.pinCfg n), s.shadowReg (Reg.pinCfg2 n), s.shadowReg (Reg.pinOutcfg n), s.shadowReg (Reg.pinPwm n),
   s.shadowReg (Reg.pinAux n), s.shadowReg (Reg.pinDiagCfg n)]

/-- R171, R173, R181, R183: one pin's configuration on its own. -/
def pinCfgOk (c : List Word) : Bool :=
  let m := fld (nth 0 c 0) 3 0
  let out := nth 0 c 2
  let pwm := nth 0 c 3
  let aux := nth 0 c 4
  let per := fld pwm 23 0 * (if bitOf pwm 24 then 1000 else 10)
  let rate := fld aux 26 21
  decide (m ≤ 8) && decide (fld (nth 0 c 1) 7 0 ≤ 224) && fld out 26 24 != 7
  && (!bitOf (nth 0 c 0) 4 || m == modeGD || m == modeLS)
  && (m != modePWM || (fld pwm 23 0 != 0 && decide ((if bitOf out 27 then 20000 else 4000) ≤ per) && decide (per ≤ Config.pwmPeriodMax)))
  && (m != modeCS || fld aux 15 0 != 0)
  && (!(m == modePWM && bitOf out 28) || (decide (4 ≤ rate) && decide (rate ≤ 48) && decide (per * 4 * rate ≤ 1000000)))

/-- R172: pairing of a pin under a configuration of all pins. -/
def pairOk (mode : Nat → Nat) (n : Nat) : Bool :=
  (mode n != modeCS || (n % 2 == 0 && mode (n + 1) == modeCSU))
  && (mode n != modeCSU || (n % 2 == 1 && mode (n - 1) == modeCS))

/-- R181: the DMA channel of an audio pin belongs to the world of the owner that the configuration names. -/
def audioWorldOk (s : State) (c : List Word) : Bool :=
  let cfg := nth 0 c 0
  let chWorld : World := if bitOf (s.reg (Reg.dmaChCfg (fld (nth 0 c 4) 20 16))) 1 then .service else .safety
  !(fld cfg 3 0 == modePWM && bitOf (nth 0 c 2) 28) || !bitOf cfg 6 || (s.sub (fld cfg 18 7)).attr.world == chWorld

/-- The owner a configuration names is in a state that R200 refuses. -/
def ownerBusy (s : State) (cfg : Word) : Bool :=
  bitOf cfg 6 && (let st := (s.sub (fld cfg 18 7)).st
    st != .idle && st != .suspended)

/-- R200: a running SAMPLE reads the pin. -/
def sampling (s : State) (n : Nat) : Bool :=
  s.subs.any fun x => x.2.prog.phase == .sampling && x.2.prog.work.pin == n

/-- R200: the pins that GO applies. -/
def recfgPins (n : Nat) (pair : Bool) : List Nat := if pair then [n, n + 1] else [n]

/-- R200: the first refusal, 0 for none. -/
def recfgRefusal (s : State) (n : Nat) (pair : Bool) : Nat :=
  let ps := recfgPins n pair
  let newMode (k : Nat) : Nat :=
    if ps.contains k then fld (s.shadowReg (Reg.pinCfg k)) 3 0 else pinMode s k
  let inPair (m : Nat) : Bool := m == modeCS || m == modeCSU
  if ps.any fun k => ownerBusy s (s.reg (Reg.pinCfg k)) || ownerBusy s (s.shadowReg (Reg.pinCfg k)) then 1
  else if ps.any fun k => isOutMode (pinMode s k) && (!(s.pin k).atSafe || pinPend s k) then 2
  else if ps.any (fun k => !pinCfgOk (shadowPin s k) || !audioWorldOk s (shadowPin s k) || !pairOk newMode k)
      || (!pair && (inPair (pinMode s n) || inPair (newMode n))) || (pair && n % 2 != 0) then 3
  else if ps.any fun k => sampling s k || (List.range 96).any (fun m =>
      isOutMode (pinMode s m) && pinLevel s m &&
        (fld (s.reg (Reg.pinOutcfg m)) 6 0 == k || fld (s.reg (Reg.pinOutcfg m)) 14 8 == k)) then 4
  else if ps.any fun k => match pinOwner s k with
      | some o => (s.reach (s.sub o).attr.reach).reqs != []
      | none => false then 5
  else 0

/-- PIN_RECFG (R200): the shadows are checked and taken, or RESULT says why not. -/
def pinRecfg (s : State) (n : Nat) (pair cal : Bool) : State :=
  let r := recfgRefusal s n pair
  if r ≠ 0 then s.modPin n fun p => { p with recResult := r }
  else s.modPin n fun p => { p with recBusy := true, recResult := 0, recPair := pair, recCal := cal }

/-- R177: the sample code of a pin that no slot names is 0 unless it is an AI, CS or FQ pin's; a CSU pin's is 0. -/
def settleCode (s : State) (n : Nat) : State :=
  let m := pinMode s n
  if m = modeAI ∨ m = modeCS ∨ m = modeFQ ∨ (m ≠ modeCSU ∧ scanned s n) then s
  else s.modPin n fun p => { p with code := 0 }

/-- R201: one pin takes its shadows; a count of another mode is dropped (PIN_FQ). -/
def applyPin (s : State) (n : Nat) : State :=
  let old := (pinMode s n, pinAudio s n)
  let offs := [Reg.pinCfg n, Reg.pinCfg2 n, Reg.pinOutcfg n, Reg.pinPwm n, Reg.pinAux n, Reg.pinDiagCfg n]
  let s := offs.foldl (fun s o => s.setReg o (s.shadowReg o)) s
  let m := pinMode s n
  let s := if old = (m, pinAudio s n) then s
    else s.modPin n fun p => { p with fq := 0, code := if m = modeFQ then 0 else p.code }
  settleCode (s.modPin n fun p => { p with
    active := 0, gInf := m == modeAI || m == modeCS, value := if isOutMode m then pinSafeValue s n else 0, atSafe := true }) n

/-- PIN_RECFG_COMPLETE (R201). -/
def pinRecfgComplete (s : State) (n : Nat) : State :=
  let p := s.pin n
  if !p.recBusy then s
  else
    let s := (recfgPins n p.recPair).foldl applyPin s
    let s := s.modPin n fun p => { p with recBusy := false, recPair := false, recCal := false }
    if p.recCal && !(s.bank (n / 8)).failed then startCal s (n / 8) false else s

/-- R184: a scan list is valid. -/
def scanOk (w : Word) : Bool :=
  let l := (List.range 8).map fun k => fld w (4 * k + 3) (4 * k)
  l.all (fun x => decide (x ≤ 8) || x == 15) && l.any (· == 8)
  && (List.range 8).all fun i => decide ((l.filter (· == i)).length ≤ 1)

/-- SCAN_GO (R202). -/
def scanGo (s : State) (b : Nat) : State :=
  let new := s.shadowReg (Reg.bankScan b)
  let old := s.reg (Reg.bankScan b)
  let slotOf (w : Word) (i : Nat) : Option Nat := (List.range 8).find? fun k => fld w (4 * k + 3) (4 * k) == i
  let r := if (s.bank b).failed then 3
    else if !scanOk new then 1
    else if (List.range 8).any fun i => sampling s (8 * b + i) && slotOf new i != slotOf old i then 2
    else 0
  s.modBank b fun x => { x with result := r, scanBusy := r == 0, scanAt := s.now }

/-- SCAN_LIST_APPLY (R202): at the first frame boundary, a multiple of 5 µs (R184). -/
def scanListApply (s : State) (b : Nat) : State :=
  if (s.bank b).scanBusy && decide ((s.bank b).scanAt.toNat / 5000 < s.now.toNat / 5000) then
    let s := s.setReg (Reg.bankScan b) (s.shadowReg (Reg.bankScan b))
    let s := foldN 8 (fun s i => settleCode s (8 * b + i)) s
    s.modBank b fun x => { x with scanBusy := false }
  else s

/-! ### Link and keep-alive (R12, R18) -/

/-- KEEPALIVE_LOSS (R18): the output stage moves its pin to the safe state by itself. -/
def keepaliveLoss (s : State) (n : Nat) : State :=
  if !isOutMode (pinMode s n) then s
  else
    let moves := !(s.pin n).atSafe
    let s := safePin s n false
    let s := s.modPin n fun p => { p with lost := true }
    sluiceSweep (s.modFd fun f => { f with reports := f.reports ++ [⟨n, 9, s.now, moves⟩] })

end Sys2Proof.Machine
end

