-- ==== Sys2Proof/Machine/Dma.lean ====
section
/-! DEFINITION. The DMA engine: descriptors, bursts, completions (chapter "Silt store and DMA engine"). -/

namespace Sys2Proof.Machine

/-! ### Descriptors (R293, R294) -/

/-- Where the slot of a channel's ring lies. -/
def dmaSlot (s : State) (c k : Nat) : Nat :=
  (s.reg (Reg.dmaChRingLo c)).toNat + 2 ^ 32 * fld (s.reg (Reg.dmaChRingHi c)) 3 0 + 32 * k

/-- The slots of a channel's ring. -/
def dmaSlots (s : State) (c : Nat) : Nat := 2 ^ fld (s.reg (Reg.dmaChRingHi c)) 11 8

/-- The channel as an initiator. -/
def dmaInit (c : Nat) : Initiator := .dma (Fin.ofNat 32 c)

def ddSrc (d : List Word) : Nat := (nth 0 d 0).toNat + 2 ^ 32 * fld (nth 0 d 1) 3 0
def ddPat (d : List Word) : Nat := fld (nth 0 d 1) 7 4
/-- Bytes of an element. -/
def ddE (d : List Word) : Nat := fld (nth 0 d 1) 13 8 + 1
def ddWays (d : List Word) : Nat := fld (nth 0 d 1) 17 14 + 1
def ddDiff (d : List Word) : Bool := bitOf (nth 0 d 1) 18
def ddDst (d : List Word) : Nat := (nth 0 d 2).toNat + 2 ^ 32 * fld (nth 0 d 3) 3 0
def ddOwner (d : List Word) : Nat := fld (nth 0 d 3) 15 4
def ddGen (d : List Word) : Nat := fld (nth 0 d 3) 19 16
def ddCount (d : List Word) : Nat := fld (nth 0 d 4) 23 0
def ddBurst (d : List Word) : Nat := fld (nth 0 d 4) 30 24
def ddAux (d : List Word) : Nat := (nth 0 d 5).toNat
def ddTable (d : List Word) : Nat := ddAux d + 2 ^ 32 * fld (nth 0 d 6) 3 0
def ddKind (d : List Word) : Nat := fld (nth 0 d 6) 5 4
def ddArg (d : List Word) : Nat := fld (nth 0 d 6) 16 6

/-- R294: a descriptor that names a transfer. -/
def ddOk (d : List Word) : Bool :=
  let p := ddPat d
  bitOf (nth 0 d 7) 0 && decide (p ≤ 6) && fld (nth 0 d 1) 31 19 == 0 && fld (nth 0 d 3) 31 20 == 0 && !bitOf (nth 0 d 4) 31
  && fld (nth 0 d 6) 31 17 == 0 && fld (nth 0 d 7) 15 8 == 0 && ddCount d != 0 && decide (1 ≤ ddBurst d) && decide (ddBurst d ≤ 64)
  && ((p != 3 && p != 4) || ddWays d != 1)
  && ((p != 5 && p != 6) || (ddE d == 2 && ddSrc d % 2 == 0 && ddDst d % 2 == 0))
  && (ddKind d != 1 || (decide (Config.softSrcLo ≤ ddArg d) && decide (ddArg d < 2048)))
  && (ddKind d != 2 || decide (ddArg d < 16)) && (ddKind d != 3 || decide (ddArg d < 12))

/-- R300: the descriptor belongs to a reach that a reset holds. -/
def ddFenced (s : State) (d : List Word) : Bool :=
  ddKind d == 1 && (s.reach (s.sub (ddOwner d)).attr.reach).reqs != []

/-- R295: the elements of a descriptor. -/
def ddTotal (d : List Word) : Nat := if ddPat d = 3 ∨ ddPat d = 4 then ddCount d * ddWays d else ddCount d

/-! ### The end of a descriptor (R298, R299) -/

/-- R299: the next slot. -/
def dmaNextHead (s : State) (c : Nat) : Nat := ((s.dch c).head + 1) % dmaSlots s c

/-- BAD_SEEN and BADCNT; the first setting raises the DMA source. -/
def dmaBad (s : State) (c : Nat) : State :=
  let first := !(s.dch c).badSeen
  let s := s.modDch c fun x => { x with badSeen := true, badCnt := satInc 0xFFFF x.badCnt }
  if first then raiseEvent s Config.srcDma else s

/-- R299: a failed status write halts the channel. -/
def dmaHalt (s : State) (c : Nat) : State :=
  s.modDch c fun x => { x with st := .halted, badSeen := true, desc := none, fence := false }

/-- The channel halts; the first setting of BAD_SEEN raises the DMA source. -/
def dmaHalts (s : State) (c : Nat) : State :=
  if (s.dch c).badSeen then dmaHalt s c else raiseEvent (dmaHalt s c) Config.srcDma

/-- The status word is written and HEAD advances; a failed write halts the channel. -/
def dmaStatus (s : State) (c : Nat) (done bad : Bool) (err : Nat) : State × Bool :=
  let x := s.dch c
  let w := pack [(1, 1, b2n done), (2, 1, b2n bad), (3, 1, b2n (x.pad != 0)), (4, 4, err), (16, 16, Nat.min 0xFFFF x.pad)]
  let sift := match x.desc with
    | some d => ddPat d == 5 || ddPat d == 6
    | none => false
  let at_ := dmaSlot s c x.head
  let s := if siftTurn x then s.modDch c fun x => { x with moved := true } else s
  let (s, _, e1) := if sift then devWrite s (dmaInit c) (at_ + 20) (toBytes 4 x.bytes) else (s, 0, none)
  let (s, _, e2) := if e1.isSome then (s, 0, e1) else devWrite s (dmaInit c) (at_ + 28) (toBytes 4 w.toNat)
  if e2.isSome then (dmaHalt s c, false)
  else
    let h := dmaNextHead s c
    (s.modDch c fun x => { x with
      head := h, desc := none, pos := 0, pad := 0, moved := false, bytes := 0, prev := 0, fence := false }, true)

/-- R299: the descriptor at HEAD is written BAD. -/
def dmaFail (s : State) (c err : Nat) : State × Bool :=
  let first := !(s.dch c).badSeen
  let (s, ok) := dmaStatus s c false true err
  if ok then (dmaBad s c, true)
  else (if first then raiseEvent s Config.srcDma else s, false)

/-- ERR of a failed access (R294, R299). -/
def dmaErr (e : MemErr) (a : Nat) (write : Bool) : Nat :=
  match e with
  | .refused => if Config.regBase ≤ a ∧ a < Config.regBase + Config.regSize then 1 + b2n write else 3
  | _ => 1 + b2n write

/-- R293, R294, R300: the channel takes the descriptor at HEAD, past those it marks BAD, or is IDLE at TAIL. -/
def dmaLoad : Nat → State → Nat → State
  | 0, s, _ => s
  | fuel + 1, s, c =>
    let x := s.dch c
    if x.st ≠ .running ∨ x.desc.isSome ∨ s.cu.pl ≠ .none then s
    else if x.head = x.tail then s.modDch c fun x => { x with st := .idle }
    else
      let a := dmaSlot s c x.head
      match devRead s (dmaInit c) a 32 with
      | (s, .error e) =>
        match dmaFail s c (dmaErr e a false) with
        | (s, true) => dmaLoad fuel s c
        | (s, false) => s
      | (s, .ok bs) =>
        let d := (List.range 8).map (wordAt bs)
        if !ddOk d ∨ ddFenced s d then
          match dmaFail s c (if ddOk d then 5 else 4) with
          | (s, true) => dmaLoad fuel s c
          | (s, false) => s
        else s.modDch c fun x => { x with desc := some d, pos := 0, pad := 0, moved := false, bytes := 0, prev := 0 }

/-- The descriptor at HEAD fails, and the channel goes on. -/
def dmaDrop (s : State) (c err : Nat) : State :=
  match dmaFail s c err with
  | (s, true) => dmaLoad 4097 s c
  | (s, false) => s

/-- R300: channels whose descriptor a reach reset marked write it BAD at their burst boundary. -/
def dmaFenceSweep (s : State) : State := foldN 32 (fun s c => if (s.dch c).fence then dmaDrop s c 5 else s) s

/-! ### Elements (R295, R296) -/

/-- Element k of a descriptor: index i and way, for patterns 3 and 4 in order of i, then way. -/
def ddSplit (d : List Word) (k : Nat) : Nat × Nat := if ddPat d = 3 ∨ ddPat d = 4 then (k / ddWays d, k % ddWays d) else (k, 0)

/-- R295: source and destination of element k; `idx` is its entry of the index table. -/
def ddAddrs (d : List Word) (k idx : Nat) : Nat × Nat :=
  let e := ddE d
  let (i, w) := ddSplit d k
  let lin := i * e
  let mix := (i * ddWays d + w) * e
  let str := w * ddAux d + i * e
  match ddPat d with
  | 1 => (ddSrc d + idx, ddDst d + lin)
  | 2 => (ddSrc d + lin, ddDst d + idx)
  | 3 => (ddSrc d + str, ddDst d + mix)
  | 4 => (ddSrc d + mix, ddDst d + str)
  | _ => (ddSrc d + lin, ddDst d + lin)

/-- R181: samples enter the FIFO of an audio pin, which holds 32. -/
def audioPush (s : State) (n : Nat) (bs : List Byte) : State :=
  let new := (List.range (bs.length / 2)).map fun i => BitVec.ofNat 16 (ofBytes ((bs.drop (2 * i)).take 2))
  s.modPin n fun p => { p with fifo := (p.fifo ++ new).take 32 }

/-- R296: bytes of a filled element. -/
def dmaFillBytes (s : State) (c len : Nat) : List Byte :=
  (List.range len).map fun j => nth 0 (toBytes 4 (s.reg (Reg.dmaChFill c)).toNat) (j % 4)

/-- The destination of an element takes its bytes. -/
def dmaPut (s : State) (c a : Nat) (bs : List Byte) : State × Option Nat :=
  let q := dmaReq s c
  if 1 ≤ q ∧ q ≤ 96 then (audioPush s (q - 1) bs, none)
  else
    let (s, _, e) := devWrite s (dmaInit c) a bs
    (s, e.map fun x => dmaErr x a true)

/-- One element: read unless it is filled, then written; the ERR code when an access fails. -/
def dmaElement (s : State) (c : Nat) (d : List Word) (k : Nat) (fill : Bool) : State × Option Nat :=
  let e := ddE d
  let (i, _) := ddSplit d k
  let (s, idx, bad) :=
    if ddPat d = 1 ∨ ddPat d = 2 then
      match devRead s (dmaInit c) (ddTable d + 4 * i) 4 with
      | (s, .ok bs) => (s, ofBytes bs, none)
      | (s, .error x) => (s, 0, some (dmaErr x (ddTable d) false))
    else (s, 0, none)
  match bad with
  | some x => (s, some x)
  | none =>
    let a := ddAddrs d k idx
    if fill then
      let s := s.modDch c fun x => { x with pad := x.pad + 1 }
      dmaPut s c a.2 (dmaFillBytes s c e)
    else
      match devRead s (dmaInit c) a.1 e with
      | (s, .error x) => (s, some (dmaErr x a.1 false))
      | (s, .ok bs) => dmaPut s c a.2 bs

/-- R296, R297: one burst of a channel; elements from `read` on are filled. -/
def dmaRun (s : State) (c : Nat) (read : Option Nat) : State :=
  match (s.dch c).desc with
  | none => s
  | some d =>
    let left := ddTotal d - (s.dch c).pos
    let n := Nat.min left (ddBurst d * (if ddPat d = 3 ∨ ddPat d = 4 then ddWays d else 1))
    let start := (s.dch c).pos
    let (s, err) := foldN n (fun (r : State × Option Nat) j =>
      match r with
      | (s, some x) => (s, some x)
      | (s, none) => dmaElement s c d (start + j) (match read with
        | some m => decide (m ≤ j)
        | none => false)) (s, none)
    match err with
    | some x => dmaDrop s c x
    | none => s.modDch c fun x => { x with pos := start + n, moved := decide (ddTotal d ≤ start + n) }

/-- R297, R263 step 1: a burst of the channel is ready, and no power loss stops it; Sift descriptors move with the Sift unit's blocks. -/
def dmaReady (s : State) (c : Nat) : Bool :=
  let x := s.dch c
  x.st == .running && !x.moved && !x.fence && dmaAsserted s c && s.cu.pl == .none && (match x.desc with
    | some d => decide (ddPat d ≤ 4)
    | none => false)

/-- DMA_CH_CFG.PRIO. -/
def dmaPrio (s : State) (c : Nat) : Nat := fld (s.reg (Reg.dmaChCfg c)) 3 2

/-- R297: the channel served next: the highest PRIO, then the first from its rotating pointer on. -/
def dmaPick (s : State) : Option Nat :=
  let ready := (List.range 32).filter (dmaReady s)
  let top := ready.foldl (fun a c => Nat.max a (dmaPrio s c)) 0
  let same := ready.filter fun c => dmaPrio s c == top
  let p := nth 0 s.dma.ptr top
  match same.find? fun c => decide (p ≤ c) with
  | some c => some c
  | none => same.head?

/-- The rotating pointer of a channel's PRIO moves past it. -/
def dmaTurn (s : State) (c : Nat) : State :=
  { s with dma := { s.dma with ptr := setNth s.dma.ptr (dmaPrio s c) ((c + 1) % 32) } }

/-- DMA_BURST (R296, R297). -/
def dmaBurst (s : State) : State :=
  match dmaPick s with
  | none => s
  | some c => dmaTurn (dmaRun s c none) c

/-- R298: the pulse of a completed descriptor. -/
def dmaPulse (s : State) (d : List Word) : State :=
  match ddKind d with
  | 1 =>
    match dropStale s (ddOwner d) (ddGen d) s.now 3 with
    | some s' => s'
    | none => raiseEvent s (ddArg d)
  | 2 => bkStageReady s (ddArg d)
  | 3 => scanGo s (ddArg d)
  | _ => s

/-- DMA_DESCRIPTOR_COMPLETE (R298). -/
def dmaDescriptorComplete (s : State) (c : Nat) : State :=
  let x := s.dch c
  match x.desc with
  | some d =>
    if x.moved ∧ x.st = .running ∧ !x.fence then
      match dmaStatus s c true false 0 with
      | (s, true) => dmaLoad 4097 (dmaPulse s d) c
      | (s, false) => if x.badSeen then s else raiseEvent s Config.srcDma
    else s
  | none => s

/-- DMA_CH_TAIL (R293): an IDLE channel starts. -/
def dmaChTail (s : State) (c tail : Nat) : State :=
  let s := s.modDch c fun x => { x with tail := tail }
  let x := s.dch c
  if x.st = .idle ∧ x.head ≠ x.tail then dmaLoad 4097 (s.modDch c fun x => { x with st := .running }) c else s

/-- DMA_CH_CFG.EN: the channel leaves or enters DISABLED. -/
def dmaEnable (s : State) (c : Nat) (en : Bool) : State :=
  let x := s.dch c
  if en ∧ x.st = .disabled then s.modDch c fun x => { x with st := .idle }
  else if !en then s.modDch c fun x => { x with st := .disabled, desc := none, pos := 0, pad := 0, moved := false, fence := false }
  else s

/-- DMA_RESUME (R299): HALTED is left, at HEAD + 1. -/
def dmaResume (s : State) (c : Nat) : State :=
  if (s.dch c).st ≠ .halted then s
  else
    let h := dmaNextHead s c
    dmaLoad 4097 (s.modDch c fun x => { x with st := .running, head := h, desc := none }) c

/-- DMA_ABORT (DMA_CH_CTL, R299): the current descriptor is written BAD with ERR 0; HEAD := TAIL; IDLE. -/
def dmaAbort (s : State) (c : Nat) : State :=
  let x := s.dch c
  if x.st = .disabled then s
  else
    let s := if x.st = .running ∧ x.desc.isSome then (dmaFail s c 0).1 else s
    if (s.dch c).st = .halted ∧ x.st = .running then s
    else s.modDch c fun x => { x with st := .idle, head := x.tail, desc := none, pos := 0, pad := 0, moved := false, fence := false }

/-! ### The Sift unit (R301, R302) -/

/-- R296: the bytes of a burst of samples, those from `read` on filled. -/
def siftFill (s : State) (c : Nat) (read : Option Nat) (bs : List Byte) : List Byte :=
  match read with
  | none => bs
  | some m => bs.take (2 * m) ++ (List.replicate (bs.length / 2 - m) (dmaFillBytes s c 2)).flatMap id

/-- R296: elements of a burst of n that are filled. -/
def filled (read : Option Nat) (n : Nat) : Nat :=
  match read with
  | none => 0
  | some m => n - m

/-- A Sift descriptor takes its next block, which is its burst (DESIGN CHOICE, log entry 64); samples from `read` on are not
read and are filled. -/
def dmaSiftRun (s : State) (c : Nat) (read : Option Nat) : State :=
  let x := s.dch c
  match x.desc with
  | none => s
  | some d =>
    if ddPat d = 5 then
      let n := Nat.min 256 (ddCount d - x.pos)
      let k := n - filled read n
      match devRead s (dmaInit c) (ddSrc d + 2 * x.pos) (2 * k) with
      | (s, .error e) => dmaDrop s c (dmaErr e (ddSrc d) false)
      | (s, .ok raw) =>
        let r := siftForward (ddDiff d) x.prev (siftFill s c read (padTo 0 (2 * n) raw))
        let (s, _, e) := devWrite s (dmaInit c) (ddDst d + x.bytes) r.1
        match e with
        | some e => dmaDrop s c (dmaErr e (ddDst d) true)
        | none => s.modDch c fun y => { y with
            pos := x.pos + n, pad := y.pad + (n - k), bytes := x.bytes + r.1.length, prev := r.2.2
            moved := decide (ddCount d ≤ x.pos + n) }
    else
      match devRead s (dmaInit c) (ddSrc d + x.bytes) 4 with
      | (s, .error e) => dmaDrop s c (dmaErr e (ddSrc d) false)
      | (s, .ok h) =>
        match siftBlockLen h with
        | none => dmaDrop s c 6
        | some len =>
          match devRead s (dmaInit c) (ddSrc d + x.bytes) len with
          | (s, .error e) => dmaDrop s c (dmaErr e (ddSrc d) false)
          | (s, .ok bs) =>
            match siftInverse (ddDiff d) x.prev (ddCount d - x.pos) bs with
            | none => dmaDrop s c 6
            | some r =>
              let n := r.1.length / 2
              let (s, _, e) := devWrite s (dmaInit c) (ddDst d + 2 * x.pos) (siftFill s c read r.1)
              match e with
              | some e => dmaDrop s c (dmaErr e (ddDst d) true)
              | none =>
                s.modDch c fun y => { y with
                  pos := x.pos + n, pad := y.pad + filled read n, bytes := x.bytes + len, prev := r.2.2
                  moved := decide (ddCount d ≤ x.pos + n) }

/-- R296, R263 step 1: a Sift descriptor's burst is ready. -/
def siftReady (s : State) (c : Nat) : Bool :=
  let x := s.dch c
  x.st == .running && siftTurn x && !x.fence && dmaAsserted s c && s.cu.pl == .none

/-- SIFT_BLOCK for a descriptor (R302). -/
def dmaSift (s : State) (c : Nat) : State := if siftReady s c then dmaSiftRun s c none else s

/-- DMA_REQUEST_WITHDRAW (R296): a burst whose request was withdrawn after `read` elements. The request is the level of its
FIFO or buffer (R181, R322), so it is withdrawn only where that level is gone after the burst, and the channel waits. -/
def dmaRequestWithdraw (s : State) (c read : Nat) : State :=
  if dmaReq s c = 0 then s
  else
    let t := if dmaReady s c then dmaTurn (dmaRun s c (some read)) c
      else if siftReady s c then dmaSiftRun s c (some read)
      else s
    if dmaAsserted t c then s else t

/-- An ARCHIVE or SAMPLE takes its next block through the transform. -/
def archiveSift (s : State) (n : Nat) : State :=
  let w := (s.sub n).prog.work
  if w.raw = [] then s
  else
    let r := siftForward (decide (w.kind / 2 % 2 = 1)) w.prev w.raw
    let s := s.modSub n fun b => { b with prog := { b.prog with work := { b.prog.work with
      bytes := w.bytes ++ r.1, raw := r.2.1, prev := r.2.2 } } }
    if r.2.1 = [] then siltArrive s n else s

end Sys2Proof.Machine
end

