-- ==== Sys2Proof/Machine/LeveeOps.lean ====
section
/-! DEFINITION. The Levee's table commits, revocation (chapter "Worlds, levels and capabilities"), and the Weir's credits and
grants (chapter "Weir arbiter and memory system"). -/

namespace Sys2Proof.Machine

/-! ### Checks of a region table (R387) -/

/-- One more than the last page of the DRAM that is mapped (R25). -/
def dramPages (s : State) : Nat := dramEnd s / 4096

/-- R387: the page range lies in Basin. -/
def inBasin (r : Rgn) : Bool := decide (0x800000 ≤ r.1) && decide (r.2.1 ≤ 0x800FFF)

/-- R387, R28: the page range lies in the Loam windows, which are contiguous. -/
def inLoams (r : Rgn) : Bool := decide (0x810000 ≤ r.1) && decide (r.2.1 < 0x810800 + 0x80)

/-- R387: the page range lies in tagged memory; Basin and the Loam windows do not adjoin. -/
def inTagged (r : Rgn) : Bool := inBasin r || inLoams r

/-- R387: an entry grants write to both worlds. -/
def writesBoth (a : Word) : Bool :=
  (bitOf a 2 || bitOf a 4 || bitOf a 6) && (bitOf a 8 || bitOf a 10 || bitOf a 12)

/-- R387: the first check that a valid entry fails, as LEVEE_COMMIT.RESULT; 0 when none. -/
def rgnFault (dram : Nat) (r : Rgn) : Nat :=
  if !bitOf r.2.2 0 then 0
  else if writesBoth r.2.2 then 1
  else if bitOf r.2.2 15 && !inTagged r then 2
  else if r.2.1 < r.1 then 3
  else if !(decide (r.2.1 < dram) || inTagged r) then 4
  else 0

/-- R387: the first entry of a table that fails, with its RESULT. -/
def tableFault (dram : Nat) (t : Nat → Rgn) : Option (Nat × Nat) :=
  ((List.range 64).find? fun i => rgnFault dram (t i) != 0).map fun i => (i, rgnFault dram (t i))

/-- R387: the first pair of valid entries that overlap, lower number first. -/
def firstOverlap (t : Nat → Rgn) : Option (Nat × Nat) :=
  ((List.range 64).flatMap fun i => ((List.range 64).filter (i < ·)).map fun j => (i, j)).find? fun p =>
    let a := t p.1
    let b := t p.2
    bitOf a.2.2 0 && bitOf b.2.2 0 && decide (a.1 ≤ b.2.1) && decide (b.1 ≤ a.2.1)

/-- LEVEE_STAT of the table in effect. -/
def setOverlap (s : State) : State :=
  match firstOverlap (rgnNow s) with
  | some p => s.modLevee fun l => { l with overlap := true, ova := p.1, ovb := p.2 }
  | none => s.modLevee fun l => { l with overlap := false, ova := 0, ovb := 0 }

/-! ### LEVEE_COMMIT (R391) -/

/-- The shadowed table. -/
def rgnShadow (s : State) (i : Nat) : Rgn :=
  (fld (s.shadowReg (Reg.rgnBase i)) 23 0, fld (s.shadowReg (Reg.rgnLimit i)) 23 0, s.shadowReg (Reg.rgnAttr i))

/-- A register takes its shadow. -/
def takeShadow (s : State) (o : Nat) : State := (s.setReg o (s.shadowReg o)).clearShadow o

/-- R391: LEVEE_COMMIT with GO = 1. -/
def leveeCommit (s : State) : State :=
  match tableFault (dramPages s) (rgnShadow s) with
  | some (i, r) => s.modLevee fun l => { l with result := r, entry := i }
  | none =>
    let old := (List.range 64).map fun i => (s.reg (Reg.rgnBase i), s.reg (Reg.rgnLimit i), s.reg (Reg.rgnAttr i))
    let s := foldN 64 (fun s i =>
      takeShadow (takeShadow (takeShadow s (Reg.rgnBase i)) (Reg.rgnLimit i)) (Reg.rgnAttr i)) s
    setOverlap (s.modLevee fun l => { l with busy := true, old := old, result := 0, entry := 0 })

/-- R391: every core has its new copy. -/
def leveeCopiesUpdated (s : State) : State :=
  if s.levee.busy then s.modLevee fun l => { l with busy := false, old := [] } else s

/-! ### Epochs (R402, R403) -/

/-- Where the epoch word of an object type lies in Basin. -/
def epochAddr (s : State) (otype : Nat) : Nat := Config.basinBase + fld (s.reg Reg.leveeEpochBase) 23 14 * 0x4000 + 4 * otype

/-- R403: LEVEE_REVOKE with GO = 1: EPOCH advances, or EXHAUSTED is set at 255. -/
def leveeRevoke (s : State) (otype : Nat) : State :=
  let a := epochAddr s otype
  let w := peekWord s a
  let e := fld w 7 0
  let w' := if e = 255 then setBit w 8 true else setFld w 7 0 (e + 1)
  (pokeMem s a (toBytes 4 w'.toNat)).modLevee fun l => { l with
    revBusy := true, exh := e == 255, epoch := fld w' 7 0, otype := otype }

/-- R403: every core has removed the type from its epoch cache. -/
def revokeInvalidationDone (s : State) : State :=
  if !s.levee.revBusy then s
  else
    let t := s.levee.otype
    let drop (c : CoreSt) : CoreSt := { c with ecache := c.ecache.filter fun e => e.1 != t }
    let s := { s with cores := s.cores.map fun (x : Nat × CoreSt) => (x.1, drop x.2) }
    s.modLevee fun l => { l with revBusy := false }

/-! ### The Weir (R436 to R441) -/

def State.modWeirReq (s : State) (r : Nat) (f : WeirReqSt → WeirReqSt) : State :=
  s.modWeir fun w => { w with req := tmod {} w.req r f }

/-- R437: the target of an access: banks 0 to 7 of Basin, 8 the DRAM, 9 none. An access of several blocks goes to the bank of
its first (DEDUCED, log entry 36). -/
def weirTarget (s : State) (a : Nat) : Nat :=
  match placeOf s a with
  | .basin => a / 64 % 8
  | .dram => 8
  | _ => 9

/-- The target that a request waits at. -/
def askTarget (s : State) (a : WeirAsk) : Nat := weirTarget s a.addr.toNat

/-- R437: what an access costs: the 64-byte blocks that it touches. -/
def askCost (a : WeirAsk) : Nat := (a.addr.toNat % 64 + a.len + 63) / 64

/-- R437: which memory a target belongs to: 0 Basin, 1 the DRAM. -/
def tgtMem (t : Nat) : Nat := if t < 8 then 0 else 1

/-- The memory that a request asks for. -/
def askMem (s : State) (a : WeirAsk) : Nat := tgtMem (askTarget s a)

/-- R438: a requester's credit at a memory. -/
def weirCredit (s : State) (r m : Nat) : Nat :=
  if m = 0 then fld (s.reg (Reg.weirCred r)) 15 0 else fld (s.reg (Reg.weirCred r)) 31 16

def weirCnt (s : State) (r m : Nat) : Nat := nth 0 (s.weirReq r).cnt m

/-- R439: the fullness of a counter. -/
def weirFull (s : State) (r m : Nat) : Nat :=
  if weirCredit s r m = 0 then 0 else weirCnt s r m * 256 / weirCredit s r m

/-- R439: a request is eligible. -/
def eligible (s : State) (a : WeirAsk) : Bool := decide (0 < weirCnt s a.req.val (askMem s a))

/-- R439 step 3: the distance of a requester from a pointer. -/
def ptrDist (p r : Nat) : Nat := (r + 76 - p % 76) % 76

/-- The request that a measure puts first; the earlier of equals. -/
def firstBy (f : WeirAsk → Nat) (l : List WeirAsk) : Option WeirAsk :=
  l.foldl (fun best a =>
    match best with
    | none => some a
    | some b => if f a < f b then some a else some b) none

/-- R439 steps 1 to 4: the request that a target grants, and whether it is a spare grant. -/
def weirPick (s : State) (asks : List WeirAsk) (t : Nat) : Option (WeirAsk × Bool) :=
  let here := asks.filter fun a => askTarget s a == t
  let p := nth 0 s.weir.ptrs t
  let m := tgtMem t
  let dist (a : WeirAsk) : Nat := ptrDist p a.req.val
  let el := here.filter (eligible s)
  let aged := el.filter fun a => decide (fld (s.reg Reg.weirCtl) 7 0 ≤ a.wait)
  let top := aged.foldl (fun x a => Nat.max x a.wait) 0
  match firstBy dist (aged.filter fun a => a.wait == top) with
  | some a => some (a, false)
  | none =>
    let full := el.foldl (fun x a => Nat.max x (weirFull s a.req.val m)) 0
    match firstBy dist (el.filter fun a => weirFull s a.req.val m == full) with
    | some a => some (a, false)
    | none => (firstBy dist here).map fun a => (a, true)

/-- R438, R439: a grant: the counter, the pointer and what the monitors count. -/
def weirTake (s : State) (g : WeirAsk × Bool) : State :=
  let a := g.1
  let m := askMem s a
  let t := askTarget s a
  let s := s.modWeir fun w => { w with ptrs := w.ptrs.set t ((a.req.val + 1) % 76) }
  s.modWeirReq a.req.val fun x => { x with
    cnt := if g.2 then x.cnt else x.cnt.modify m (· - askCost a)
    grantNow := x.grantNow.modify m fun n => satAdd 0xFFFF n (askCost a)
    spareNow := if g.2 then satInc 0xFFFF x.spareNow else x.spareNow }

/-- R442, R445: SECDED watches Basin always and the DRAM with inline ECC. -/
def watched (s : State) (a : Nat) : Bool :=
  match placeOf s a with
  | .basin => true
  | .dram => bitOf (s.reg Reg.devMemCfg) 0
  | _ => false

/-- R449: a correctable error counts; the first since its count was 0 raises source 1,228. -/
def noteCe (s : State) (dram : Bool) : State :=
  let ce := s.reg Reg.devMemCe
  let n := if dram then fld ce 31 16 else fld ce 15 0
  let n' := satInc 0xFFFF n
  let s := s.setReg Reg.devMemCe (if dram then setFld ce 31 16 n' else setFld ce 15 0 n')
  if n = 0 then raiseEvent s Config.srcMemory else s

/-- R449: what SECDED finds at an access. An uncorrectable unit stays in error until it is written in full. -/
def secded (s : State) (a : Nat) (found : Secded) : State :=
  if !watched s a then s
  else match found with
  | .clean => s
  | .corrected => noteCe s (weirTarget s a == 8)
  | .uncorrectable =>
    let g := a / errUnit s a * errUnit s a
    if s.ue.contains g then s else { s with ue := s.ue ++ [g] }

/-- R448: the scrubber's read of a unit: what it finds, and the end of its pass. -/
def scrubRead (s : State) (a : ScrubAsk) : State :=
  let t := weirTarget s a.addr.toNat
  let s := secded s a.addr.toNat a.found
  let s := match ueHit s a.addr.toNat 1 with
    | some g => noteUeBy s 127 true g
    | none => s
  if !a.last then s
  else s.modMemErrs fun e => if t = 8 then { e with dpass := e.dpass + 1 } else { e with bpass := e.bpass + 1 }

/-- R448: the scrubber is at work at a target: its period is not 0, and the DRAM has inline ECC. -/
def scrubs (s : State) (t : Nat) : Bool :=
  let c := s.reg Reg.devMemCfg
  if t = 8 then bitOf c 0 && fld c 31 16 != 0 else fld c 15 8 != 0

/-- R439 step 5, R448: the scrubber's request that a target serves: ahead of all others after 65,536 cycles, else only when
no other request waits. -/
def scrubPick (s : State) (asks : List WeirAsk) (scr : List ScrubAsk) (dramFree : Bool) (t : Nat) : Option ScrubAsk :=
  if !scrubs s t ∨ (t = 8 ∧ !dramFree) then none
  else scr.find? fun a => weirTarget s a.addr.toNat == t && (decide (65536 ≤ a.wait) || !(asks.any fun b => askTarget s b == t))

/-- R439, R448, R449: one Weir cycle; every target decides on the counters as the cycle finds them. -/
def weirGrant (s : State) (asks : List WeirAsk) (scr : List ScrubAsk) (dramFree : Bool) : State :=
  let asks := asks.filter fun a => decide (askTarget s a < 9)
  let scrubbed := (List.range 9).filterMap fun t => scrubPick s asks scr dramFree t
  let got := (List.range 9).filterMap fun t =>
    if (t = 8 ∧ !dramFree) ∨ (scrubbed.any fun a => weirTarget s a.addr.toNat == t) then none else weirPick s asks t
  let s := got.foldl weirTake s
  let s := got.foldl (fun s g => secded s g.1.addr.toNat g.1.found) s
  let s := scrubbed.foldl scrubRead s
  let left := asks.filter fun a => !(got.any fun g => g.1 == a)
  let s := asks.foldl (fun s a => s.modWeirReq a.req.val fun x => { x with
    waitNow := x.waitNow.modify (askMem s a) fun n => Nat.max n (Nat.min 0xFFFF a.wait) }) s
  left.foldl (fun s a =>
    if weirCnt s a.req.val (askMem s a) = 0 then s.modWeirReq a.req.val fun x => { x with emptyNow := true } else s) s

/-- R438, R441: at a window boundary the counters are set, and a pending commit takes effect. -/
def weirBoundary (s : State) : State :=
  let s := if s.weir.pend then
      foldN 76 (fun s r => takeShadow s (Reg.weirCred r)) (takeShadow (takeShadow s Reg.weirCtl) Reg.weirWin)
    else s
  let s := s.modWeir fun w => { w with pend := false, winAt := s.now }
  foldN 76 (fun s r =>
    let c := [weirCredit s r 0, weirCredit s r 1]
    s.modWeirReq r fun x => { x with
      cnt := c, grantLast := x.grantNow, waitLast := x.waitNow, grantNow := [0, 0], waitNow := [0, 0],
      empty := if x.emptyNow then satInc 0xFFFF x.empty else x.empty, emptyNow := false
      spareLast := x.spareNow, spareNow := 0 }) s

/-- WEIR_WINDOW_BOUNDARY (R438): WIN Weir cycles of 1 ns after the last boundary. -/
def weirWindowBoundary (s : State) : State :=
  if notYet s s.weir.winAt (fld (s.reg Reg.weirWin) 16 0) then s else weirBoundary s

/-- R441: the first check that Weir values fail: AGE, WIN, the credits of each requester, and inline ECC of the table's
window; 0 when none. -/
def weirFault (s : State) (age win : Nat) (cred : Nat → Word) : Nat :=
  let sum (f : Word → Nat) : Nat := (List.range 76).foldl (fun a r => a + f (cred r)) 0
  if win < 256 ∨ 65536 < win ∨ age = 0 then 1
  else if weirCap s false win < sum fun c => fld c 15 0 then 2
  else if weirCap s true win < sum fun c => fld c 31 16 then 3
  else 0

/-- R441: WEIR_COMMIT with GO = 1. -/
def weirCommit (s : State) : State :=
  let r := weirFault s (fld (s.shadowReg Reg.weirCtl) 7 0) (fld (s.shadowReg Reg.weirWin) 16 0) fun r => s.shadowReg (Reg.weirCred r)
  s.modWeir fun w => { w with result := r, pend := r == 0 }

/-- R444: refresh, ZQ calibration and DQS retraining hold a channel for a time and change nothing else. -/
def dramMaintenance (s : State) : State := s

end Sys2Proof.Machine
end

