-- ==== Sys2Proof/Machine/HostRows.lean ====
section
/-! DEFINITION. The host endpoint: link, configuration requests, completions, resets and power states, MSI-X masks (chapter
"Host port"). -/

namespace Sys2Proof.Machine

/-! ### Periods (R466, R469, R483) -/

/-- R464, R466, R469, R483: where the endpoint stands: 0 in reset or powered down, 1 the first period before READY, 2 the
second, 3 from READY. -/
def hostPeriod (s : State) : Nat :=
  match s.boot.st with
  | .off | .fieldTest | .resetWait => 0
  | .memory | .reading | .auth | .stopped => 1
  | .apply => 2
  | .forming => if bitOf (s.reg Reg.devHostCfg) 0 then 2 else 0
  | .ready => if bitOf (s.reg Reg.devHostCfg) 0 then 3 else 0

/-- R454: function 1 is absent unless the image enables it. -/
def fnPresent (s : State) (f : Nat) : Bool := f == 0 || bitOf (s.reg Reg.devHostCfg) 3

/-- R468: source 1,227. -/
def raiseHost (s : State) : State := raiseEvent s Config.srcHost

/-! ### MSI-X (R461) -/

/-- R461: each held message whose conditions have cleared is sent, or its PBA bit clears. -/
def msixRelease (s : State) (f : Nat) : State :=
  foldN 64 (fun s v =>
    if !bitOf (s.hostFn f).pba v || msiHeld s f v then s
    else
      let due := bitOf (nth 0 s.ev.vsent f) v && s.ev.src.any fun x => claimable s (2 + f) x.2 && x.2.vector == v
      if due then sendMsi s f v else s.modHostFn f fun h => { h with pba := setBit h.pba v false }) s

/-- MSIX_UNMASK (R461): the capability's control bits, which a configuration request writes, or one table entry, which a
memory write through BAR4 reaches from READY on, and not in D3hot (R456, R465, R466). -/
def msixWrite (s : State) (f : Nat) (w : MsixWr) : State :=
  if hostPeriod s < 2 || !fnPresent s f then s
  else match w with
  | .control en mask => msixRelease (s.modHostFn f fun h => { h with msixEn := en, funcMask := mask }) f
  | .entry v a d m =>
    if hostPeriod s = 2 then s.modHostFn f fun h => { h with dropped := satInc 0xFFFF h.dropped }
    else if (s.hostFn f).d3 then s
    else msixRelease (s.modHostFn f fun h => { h with table := tset h.table v.val (a.toNat, d, m) }) f

/-! ### Configuration space (R454, R466, R467) -/

/-- R467: the words of the vendor-specific capability. -/
def vsecWord (s : State) (i : Nat) : Word :=
  if i = 0 then 0x0001000B#32
  else if i = 1 then 0x01410001#32
  else if i = 2 then pack [(0, 1, b2n s.ready), (1, 4, bootStep s), (5, 2, s.cu.lastReset), (8, 3, mstCode s.vote.st)]
  else if i = 3 then (if s.boot.slot then s.boot.seqB else s.boot.seqA)
  else pack [(0, 1, b2n s.boot.slot), (1, 1, b2n s.boot.fallback)]

/-- A configuration read that completes normally; a word that the spec does not lay out is a free value. -/
def cfgRead (s : State) (f off : Nat) : State :=
  if off = 0 then s.answers [pack [(0, 16, 0x1F3A), (16, 16, 0x4896 + f)]]
  else if off = 8 then s.answers [0x118000B1#32]
  else if off = 0x2C then s.answers [s.boot.subsys]
  else if 0x300 ≤ off ∧ off ≤ 0x310 ∧ off % 4 = 0 then s.answers [vsecWord s ((off - 0x300) / 4)]
  else
    let (s, v) := s.free
    s.answers [v.setWidth 32]

/-- HOST_CONFIG_REQUEST (R466, R454): retry status or Unsupported Request answers no data. -/
def hostConfigRequest (s : State) (f : Nat) (r : CfgReq) : State :=
  if hostPeriod s < 2 || !fnPresent s f then s.answers []
  else match r with
  | .read off => cfgRead s f off.toNat
  | .busMaster => msixRelease (s.modHostFn f fun h => { h with bme := true }) f
  | .msix en mask => msixWrite s f (.control en mask)
  | .timeout v => s.modHostFn f fun h => { h with cto := v.toNat }
  | .other => s

/-- BUS_MASTER_DISABLE (R455, R468). -/
def busMasterDisable (s : State) (f : Nat) : State :=
  if (s.hostFn f).bme then raiseHost (s.modHostFn f fun h => { h with bme := false }) else s

/-- D_STATE_CHANGE (R465, R468). -/
def dStateChange (s : State) (f : Nat) (d3 : Bool) : State :=
  if hostPeriod s < 2 || !fnPresent s f || (s.hostFn f).d3 == d3 then s
  else raiseHost (msixRelease (s.modHostFn f fun h => { h with d3 := d3 }) f)

/-! ### Memory requests before READY (R466), poisoned writes (R462) -/

/-- HOST_MEMORY_REQUEST_BEFORE_READY (R466, R462): a read is logged as Unsupported Request; a write of the second period is
counted. -/
def hostMemoryRequestBeforeReady (s : State) (f : Nat) (write : Bool) : State :=
  if hostPeriod s = 0 ∨ hostPeriod s = 3 then s
  else if !write then raiseHost (s.answers [])
  else if hostPeriod s = 2 then s.modHostFn f fun h => { h with dropped := satInc 0xFFFF h.dropped }
  else s

/-- R462: a poisoned TLP is counted and logged. -/
def notePoison (s : State) : State := raiseHost (s.modHost fun h => { h with poison := satInc 255 h.poison })

/-- POISONED_WRITE_RECEIVE (R462): discarded whole. -/
def poisonedWriteReceive (s : State) : State := if hostPeriod s = 0 then s else notePoison s

/-! ### Completions of the device's own requests (R459, R460, R80, R81) -/

/-- The program waits for a CCW in host memory. -/
def hostFetch (b : Sub) : Option CcwPos :=
  let host (p : CcwPos) : Bool :=
    match p with
    | .mem a => a.asel == 0
    | .inl _ => false
  if !b.resident then none
  else if b.prog.phase = .fetch then (if host b.prog.pos then some b.prog.pos else none)
  else if b.prog.phase = .none ∨ b.prog.phase = .runaway then none
  else (prefetchPos b).filter host

/-- A request of that use is outstanding toward the host. -/
def hostOut (s : State) : HostUse → Bool
  | .ccw n => (hostFetch (s.sub n.val)).isSome
  | .data n => (s.sub n.val).resident && inTransfer (s.sub n.val).prog && (s.sub n.val).prog.cur.aselF == 0
  | .tail q => (s.sq q.val).st == .enabled && (s.sq q.val).reading && (s.sq q.val).desc.tailA.asel == 0
  | .head k => (s.ring k.val).st == .enabled && (s.ring k.val).reading && (s.ring k.val).desc.headA.asel == 0
  | .entry q => (s.sq q.val).issued != [] && (s.sq q.val).desc.base.asel == 0

/-- R81: an outstanding CCW fetch ends with an error; a prefetch keeps it. -/
def fetchFails (s : State) (n : Nat) (e : Ending) : State :=
  let b := s.sub n
  if b.prog.phase = .fetch then endProgram s n 0x01 e
  else match prefetchPos b with
  | none => s
  | some q => s.modSub n fun b => { b with prog := { b.prog with pre := b.prog.pre ++ [{ pos := q, err := some e }] } }

/-- What a request that fails does: R81 for a program, R126 for a queue or ring. -/
def hostFails (s : State) (u : HostUse) (e : Ending) : State :=
  match u with
  | .ccw n => fetchFails s n.val e
  | .data n => transferFails s n.val [] e
  | .tail q => queueError s q.val 0x5 (s.sq q.val).head
  | .head k => ringError s k.val 0x5
  | .entry q => queueError s q.val 0x5 (((s.sq q.val).issued.head?.map (·.1)).getD 0)

/-- HOST_COMPLETION_RECEIVE (R459, R81, R462): status 0 successful, 1 Unsupported Request, 2 Completer Abort, 3 poisoned. -/
def hostCompletionReceive (s : State) (u : HostUse) (addr : Nat) (data : List Byte) (status : Nat) : State :=
  if !hostOut s u then s
  else if status = 0 then pokeHost s addr data
  else if status = 3 then hostFails (notePoison s) u (memEnding .uncorrectable)
  else hostFails (s.modHost fun h => { h with urca := satInc 255 h.urca }) u (memEnding .urca)

/-- R460: the completion timeout of the request's function has not passed since it was issued (log entry 65). -/
def hostEarly (s : State) : HostUse → Bool
  | .ccw n => notYet s (s.sub n.val).prog.askAt (hostLimit s (s.sub n.val).attr.world)
  | .data n => notYet s (s.sub n.val).prog.cmdAt (hostLimit s (s.sub n.val).attr.world)
  | .tail q => notYet s (s.sq q.val).readAt (hostLimit s (s.sq q.val).desc.world)
  | .head k => notYet s (s.ring k.val).readAt (hostLimit s (s.ring k.val).desc.world)
  | .entry q => match (s.sq q.val).issued with
    | (_, _, t) :: _ => notYet s t (hostLimit s (s.sq q.val).desc.world)
    | [] => false

/-- HOST_COMPLETION_TIMEOUT (R460, R462, R80). -/
def hostCompletionTimeout (s : State) (u : HostUse) : State :=
  if !hostOut s u || hostEarly s u then s
  else
    let s := raiseHost (s.modHost fun h => { h with cto := satInc 255 h.cto })
    match u with
    | .ccw n => ccwFetchTimeout s n.val
    | .data n => dataAccessTimeout s n.val []
    | u => hostFails s u {}

/-! ### Resets (R463, R464) -/

/-- R463 step 4: outstanding non-posted requests of a function end as if they had received Unsupported Request. -/
def dropRequests (s : State) (f : Nat) : State :=
  let mine (w : World) : Bool := worldFn w == f
  let e := memEnding .urca
  let s := (s.subs.filter fun x => mine x.2.attr.world && (hostFetch x.2).isSome).foldl (fun s x => fetchFails s x.1 e) s
  let s := (s.subs.filter fun x =>
    mine x.2.attr.world && x.2.resident && x.2.prog.phase == .staging && x.2.prog.cur.aselF == 0).foldl (fun s x =>
      hostFails s (.data (Fin.ofNat 4096 x.1)) e) s
  let s := (s.q.sq.filter fun x => mine x.2.desc.world).foldl (fun s x =>
    let q := Fin.ofNat 1024 x.1
    if hostOut s (.entry q) then hostFails s (.entry q) e
    else if hostOut s (.tail q) then hostFails s (.tail q) e else s) s
  (s.q.cq.filter fun x => mine x.2.desc.world).foldl (fun s x =>
    let k := Fin.ofNat 1024 x.1
    if hostOut s (.head k) then hostFails s (.head k) e else s) s

/-- R426: the mailbox channels of a function. -/
def fnChannels (f : Nat) : List Nat := if f = 0 then List.range 8 else (List.range 7).map (· + 8)

/-- R463: what a Function Level Reset does to its function. -/
def resetFunction (s : State) (f : Nat) : State :=
  let s := s.modHostFn f fun h => { h with bme := false, msixEn := false, funcMask := false, d3 := false, cto := 0 }
  let s := (fnChannels f).foldl (fun s ch => mbxReset s ch false 3) s
  let s := s.modEv fun e => { e with
    src := e.src.map fun x => (x.1, { x.2 with active := if x.2.active == some (2 + f) then none else x.2.active })
    vsent := e.vsent.set f 0 }
  let s := s.modHostFn f fun h => { h with pba := 0 }
  let s := dropRequests s f
  s.modHost fun h => { h with flrs := satInc 255 h.flrs }

/-- FUNCTION_LEVEL_RESET (R463, R468). -/
def functionLevelReset (s : State) (f : Nat) : State :=
  if hostPeriod s < 2 || !fnPresent s f then s else raiseHost (resetFunction s f)

/-- HOST_LINK_RESET (R464, R468). -/
def hostLinkReset (s : State) : State :=
  if hostPeriod s = 0 then s
  else
    let down := s.host.linkUp
    let s := resetFunction (resetFunction s 0) 1
    let s := s.modHost fun h => { h with
      linkUp := false, speed := 0, width := 0, linkDowns := if down then satInc 255 h.linkDowns else h.linkDowns }
    raiseHost s

/-- HOST_LINK_UP (R468): a link of generation 1 to 4 and of 1, 2 or 4 lanes. -/
def hostLinkUp (s : State) (speed width : Nat) : State :=
  if hostPeriod s = 0 ∨ s.host.linkUp then s
  else raiseHost (s.modHost fun h => { h with linkUp := true, speed := speed, width := width })

end Sys2Proof.Machine
end

