-- ==== Sys2Proof/Machine/ClayImage.lean ====
section
/-! DEFINITION. The Clay image as bytes: header, section table, records, authentication, identity hash (chapter "Clay image
and start-up", R472 to R474, R478 to R480, R482). -/

namespace Sys2Proof.Machine

/-! ### Header (R472, R482) -/

def imgSeq (b : List Byte) : Word := wordAt b 3
def imgLen (b : List Byte) : Nat := (wordAt b 2).toNat
def imgSvn (b : List Byte) : Nat := fld (wordAt b 4) 5 0
def imgNsec (b : List Byte) : Nat := fld (wordAt b 1) 31 16

/-- R482: MAGIC, VERSION, DEVICE, STEPPING, LENGTH and SEQ are right. -/
def headerGood (b : List Byte) : Bool :=
  decide (256 ≤ b.length) && wordAt b 0 == 0x59414C43#32 && fld (wordAt b 1) 15 0 == 1
  && fld (wordAt b 5) 15 0 == 0x4896 && fld (wordAt b 5) 23 16 == 0xB1
  && imgLen b % 16 == 0 && decide (1024 ≤ imgLen b) && decide (imgLen b ≤ 33554432)
  && imgSeq b != 0 && imgSeq b != 0xFFFFFFFF#32

/-- R482: a candidate. -/
def candidate (s : State) (b : List Byte) : Bool := headerGood b && decide (s.fuses.floor ≤ imgSvn b)

/-- R484: the code of a header that fails a try; 0 when none. -/
def headerFault (s : State) (b : List Byte) : Nat :=
  if !headerGood b || imgNsec b = 0 || 15 < imgNsec b || b.length < imgLen b then 1
  else if imgSvn b < s.fuses.floor then 2 else 0

/-! ### Sections and records (R472 to R474) -/

/-- One entry of the section table, with its body. -/
structure ClaySec where
  ty : Nat
  off : Nat
  len : Nat
  body : List Byte
  deriving DecidableEq, Repr

/-- One record. -/
structure ClayRec where
  sec : Nat
  idx : Nat
  rty : Nat
  arg : Word
  data : List Byte
  deriving DecidableEq, Repr

/-- The section table's entry i. -/
def secAt (b : List Byte) (i : Nat) : ClaySec :=
  let w (k : Nat) : Word := wordAt ((b.drop (256 + 16 * i)).take 16) k
  ⟨(w 0).toNat, (w 1).toNat, (w 2).toNat, (b.drop (w 1).toNat).take (w 2).toNat⟩

/-- The sections in the order of the table. -/
def sectionsOf (b : List Byte) : List ClaySec := (List.range (imgNsec b)).map (secAt b)

/-- Types rise. -/
def rising : List Nat → Bool
  | a :: b :: t => decide (a < b) && rising (b :: t)
  | _ => true

/-- Of these ranges (first byte, length), no two overlap. -/
def apart : List (Nat × Nat) → Bool
  | [] => true
  | (a, n) :: t => t.all (fun x => decide (a + n ≤ x.1) || decide (x.1 + x.2 ≤ a)) && apart t

/-- R472, R473: the section table is well formed. -/
def sectionsOk (b : List Byte) : Bool :=
  let l := sectionsOf b
  let n := imgNsec b
  l.all (fun x => decide (1 ≤ x.ty) && decide (x.ty ≤ 15) && x.off % 16 == 0 && x.len % 8 == 0
    && decide (256 + 16 * n ≤ x.off) && decide (x.off + x.len ≤ imgLen b - 128))
  && (List.range n).all (fun i => wordAt ((b.drop (256 + 16 * i)).take 16) 3 == 0)
  && rising (l.map (·.ty)) && (l.head?.map (·.ty)) == some 1
  && apart (l.map fun x => (x.off, x.len))

/-- R474: the records of a body; false when the framing breaks, and then the index of the broken record. -/
def recordsFrom : Nat → Nat → Nat → List Byte → List ClayRec × Option Nat
  | 0, _, i, _ => ([], some i)
  | fuel + 1, sec, i, bs =>
    if bs = [] then ([], none)
    else
      let n := fld (wordAt bs 0) 31 8
      if bs.length < 8 ∨ n % 8 ≠ 0 ∨ bs.length < 8 + n then ([], some i)
      else
        let r : ClayRec := ⟨sec, i, fld (wordAt bs 0) 7 0, wordAt bs 1, (bs.drop 8).take n⟩
        let rest := recordsFrom fuel sec (i + 1) (bs.drop (8 + n))
        (r :: rest.1, rest.2)

/-- The records of a section. -/
def recordsOf (x : ClaySec) : List ClayRec × Option Nat := recordsFrom (x.len / 8 + 1) x.ty 0 x.body

/-- Every record of the image. -/
def allRecords (b : List Byte) : List ClayRec := (sectionsOf b).flatMap fun x => (recordsOf x).1

/-- R475: the record types a section may carry. -/
def typesOf (sec : Nat) : List Nat :=
  if sec = 1 then [0x01, 0x0A]
  else if sec = 4 then [0x01, 0x04]
  else if sec = 5 then [0x05, 0x06, 0x02, 0x03]
  else if sec = 6 then [0x01, 0x02, 0x03]
  else if sec = 7 then [0x02]
  else if sec = 8 then [0x01, 0x02, 0x0C, 0x0D]
  else if sec = 0xA then [0x01, 0x0B]
  else if sec = 0xB then [0x01, 0x02, 0x07, 0x09]
  else if sec = 0xC then [0x01, 0x02, 0x08]
  else if sec = 0xF then [0x01, 0x02, 0x03, 0x0E]
  else if sec ≤ 0xE then [0x01]
  else []

/-- R474: the length of a record's payload suits its type. -/
def lengthOk (r : ClayRec) : Bool :=
  let n := r.data.length
  if r.rty = 0x02 ∨ r.rty = 0x0C ∨ r.rty = 0x04 then n % 16 == 0
  else if r.rty = 0x03 then n == 8
  else if r.rty = 0x05 then n % 16 == 0 && decide (n ≤ 65536)
  else if r.rty = 0x06 then n == 64
  else if r.rty = 0x07 ∨ r.rty = 0x0B then n == 32
  else if r.rty = 0x08 then n == 256
  else if r.rty = 0x09 ∨ r.rty = 0x0A ∨ r.rty = 0x0E then n == 16
  else if r.rty = 0x0D then n == 192
  else true

/-- A rejection: code, section, record (DEV_CLAY_ERR). -/
abbrev ClayErr := Nat × Nat × Nat

/-- Code 0x07: framing, type and length of each record of a section, in order. -/
def framingErrs (x : ClaySec) : List ClayErr :=
  let p := recordsOf x
  (p.1.filter fun r => !(typesOf x.ty).contains r.rty || !lengthOk r).map (fun r => (7, x.ty, r.idx)) ++
    (match p.2 with
      | some i => [(7, x.ty, i)]
      | none => [])

/-! ### Authentication and identity (R478 to R480) -/

/-- R479: key k is usable. -/
def keyUsable (s : State) (k : Nat) : Bool := (nth none s.fuses.keys k).isSome && !nth false s.fuses.revoked k

/-- The signature block. -/
def sigBlock (b : List Byte) : List Byte := (b.drop (imgLen b - 128)).take 128

/-- R479: the usable key whose hash is that of the image's public key. -/
def matchingKey (s : State) (b : List Byte) : Option Nat :=
  let h := sha256 ((sigBlock b).take 64)
  (List.range 2).find? fun k => keyUsable s k && (nth none s.fuses.keys k).map wordsBytes == some h

/-- R479: the image's signature verifies with its own public key. -/
def signatureGood (b : List Byte) : Bool :=
  let g := sigBlock b
  let n (i : Nat) : Nat := ofBe ((g.drop (32 * i)).take 32)
  ecdsaVerify (n 0) (n 1) (n 2) (n 3) (sha256 (b.take (imgLen b - 64)))

/-- R479, R480: 0 authentic, 4 no usable key, 5 signature. -/
def authFault (s : State) (b : List Byte) : Nat :=
  if !s.unprov && (matchingKey s b).isNone then 4 else if signatureGood b then 0 else 5

/-- R478: the composite identity hash as eight words. -/
def identityHash (b : List Byte) : List Word :=
  let covered := (sectionsOf b).filter fun x => (decide (2 ≤ x.ty) && decide (x.ty ≤ 0xA)) || x.ty == 0xF
  let d := sha256 (covered.flatMap fun x => toBytes 4 x.ty ++ toBytes 4 x.len ++ x.body)
  (List.range 8).map (wordAt d)

end Sys2Proof.Machine
end

