-- ==== Sys2Proof/Machine/ClayRegs.lean ====
section
/-! DEFINITION. REGS records of the Clay image: which fields a section supplies, image defaults, ranges (R475). -/

namespace Sys2Proof.Machine

/-- R475: the fields that a section's REGS records supply of a register, as a mask; none when it may not name it. -/
def imgMask (sec : Nat) (id : RegId) : Option Word :=
  match sec, id with
  | 1, .glob o =>
    if o = 0x420 then some 0xFFFFFF01#32 else if o = 0x800 then some 0xF#32 else if o = 0x50C then some 3#32
    else if o = 0x414 then some 0x3FF#32 else if inWords o 0x600 66 then some 0x9F9F#32 else none
  | 1, .tb o => if o = 0x104 then some 0xFFFF#32 else none
  | 1, .dma _ o => if o = 0 then some 0xFFE#32 else none
  | 2, .levee o =>
    if o = 0x2400 then some 3#32
    else if 0x2400 ≤ o then none
    else if o % 16 = 8 then some 0xFFFF#32 else some 0xFFFFFF#32
  | 3, .pin _ o =>
    if o = 0 then some 0x3FFFFFFF#32 else if o = 4 then some 0xFFFF01FF#32 else if o = 8 then some 0x1FFFFF7F#32
    else if o = 0xC then some 0xFFFFFFFF#32 else if o = 0x10 then some 0x07FFFFFF#32
    else if o = 0x20 then some 0x00FF7F7F#32 else none
  | 3, .bank _ o => if o = 0 then some 0x1FFFFFFF#32 else if o = 4 then some 0xFFFFFFFF#32 else none
  | 3, .fdie o => if o = 0 then some 0x00FF00FF#32 else if o = 0x14 then some 0x00FFC001#32 else none
  | 4, .glob o => if o = 0x300 then some 0xF#32 else none
  | 6, .glob o => if o = 0x300 then some 0x1F00#32 else none
  | 8, .levee o => if o = 0x241C ∨ o = 0x2420 then some 0x00FFC000#32 else none
  | 9, .vote o =>
    if o = 0 then some 0x01FFF0F3#32 else if o = 4 then some 0x1FFFF#32
    else if inWords o 0x80 32 then some (if o % 8 = 0 then 0x00FFFFFF#32 else 0x800FFFFF#32) else none
  | 9, .cfl _ o => if o = 0 then some 1#32 else none
  | 10, .bk _ o => if o = 0 then some 0x3FFF#32 else if o = 4 then some 1#32 else none
  | 11, .silt o =>
    if inWords o 0x10 4 then some 0xF#32 else if o = 0x20 then some 0x00FE0000#32
    else if o = 0x24 then some 0x00FFC000#32 else none
  | 12, .dbell o =>
    if o = 0 then some 0xF0#32 else if o = 8 ∨ o = 0xC then some 0x00FF0000#32
    else if inWords o 0x200 32 then some 0x03FF03FF#32 else if inWords o 0x400 24 then some 0xFFFFFFFF#32 else none
  | 13, .weir o =>
    if o = 0x4000 then some 0xFF#32 else if o = 0x4004 then some 0x1FFFF#32
    else if 0x4100 ≤ o then some 0xFFFFFFFF#32 else none
  | 14, .mbx _ _ o => if o = 0x20 then some 0xFFEF#32 else none
  | 14, .evtSrc n => some (if Config.srcVote ≤ n then 0x3FFFF#32 else 0x1FFFF#32)
  | 14, .evt o => if inWords o 0x8020 4 then some 7#32 else none
  | 15, .sc _ o => if o = 0xC then some 0x1FFFF#32 else none
  | _, _ => none

/-- R441: the default credits: Basin and DRAM units. -/
def weirDefault (r : Nat) : Nat × Nat :=
  if r < 64 then (64, 1) else if r < 66 then (128, 4) else if r = 66 then (256, 8) else if r < 71 then (128, 96)
  else if r = 71 then (1024, 8) else if r = 72 then (64, 2) else if r = 75 then (1024, 2) else (256, 2)

/-- The image defaults that field tables state: SAFE_SHARE, GNDOFS, AGE, WIN, credits, WARN and THROT. -/
def imgDefaults : List (Nat × Word) :=
  [(Reg.dbellCtl, 0xC0#32), (Reg.pinCcCtl, 0xA0014#32), (Reg.voteWin, 1000#32), (Reg.weirCtl, 16#32), (Reg.weirWin, 1024#32),
    (Reg.devThermCfg, 0x736E#32)] ++
  (List.range 76).map fun r => (Reg.weirCred r, pack [(0, 16, (weirDefault r).1), (16, 16, (weirDefault r).2)])

/-- The pairs of a REGS record: offset word and value. -/
def regPairs (r : ClayRec) : List (Word × Word) :=
  (List.range (r.data.length / 8)).map fun i => (wordAt r.data (2 * i), wordAt r.data (2 * i + 1))

/-- R474: the offset of a pair. -/
def pairOff (p : Word × Word) : Nat := fld p.1 20 0

/-- R474, R475: a pair names a register its section may name, with nothing outside the fields it supplies. -/
def pairOkIn (sec : Nat) (p : Word × Word) : Bool :=
  fld p.1 31 21 == 0 &&
    match imgMask sec (regAt (pairOff p)) with
    | some m => p.2 &&& ~~~m == 0
    | none => false

/-- The REGS records of the image. -/
def regsRecs (rs : List ClayRec) : List ClayRec := rs.filter fun r => r.rty == 1

/-- Code 0x08: pairs that may not stand. -/
def pairErrs (rs : List ClayRec) : List ClayErr :=
  (regsRecs rs).filterMap fun r => if (regPairs r).all (pairOkIn r.sec) then none else some (8, r.sec, r.idx)

/-- Section, record and offset of every pair. -/
def namedOffs (rs : List ClayRec) : List (Nat × Nat × Nat) :=
  (regsRecs rs).flatMap fun r => (regPairs r).map fun p => (r.sec, r.idx, pairOff p)

/-- The entries of a list that repeat an earlier one's key. -/
def repeats {α β : Type} [BEq β] (key : α → β) : List α → List β → List α
  | [], _ => []
  | x :: t, seen => if seen.contains (key x) then x :: repeats key t seen else repeats key t (key x :: seen)

/-- Code 0x09: a field supplied twice (R475). -/
def twiceErrs (rs : List ClayRec) : List ClayErr :=
  (repeats (fun x : Nat × Nat × Nat => (x.1, x.2.2)) (namedOffs rs) []).map fun x => (9, x.1, x.2.1)

/-- One image value takes its place. -/
def applyImg (s : State) (sec off : Nat) (v : Word) : State :=
  match regAt off with
  | .evtSrc n =>
    s.modEvSrc n fun e => { e with
      prio := fld v 7 0, target := fld v 9 8, en := bitOf v 10, vector := fld v 16 11
      world := if Config.srcVote ≤ n then (if bitOf v 17 then .service else .safety) else e.world }
  | .evt o => s.modEv fun e => { e with split := e.split.set ((o - 0x8020) / 4) (fld v 2 0) }
  | .mbx ch c _ => s.modMb ch c fun e => { e with ie := fld v 3 0, hsrc := fld v 15 5 }
  | id =>
    let m := (imgMask sec id).getD 0
    s.setReg off ((s.reg off &&& ~~~m) ||| (v &&& m))

/-- Every image value takes its place, over the image defaults. -/
def applyRegs (s : State) (rs : List ClayRec) : State :=
  let s := imgDefaults.foldl (fun s d => s.setReg d.1 d.2) s
  (regsRecs rs).foldl (fun s r => (regPairs r).foldl (fun s p => applyImg s r.sec (pairOff p) p.2) s) s

/-- The image's record supplies a register. -/
def supplies (rs : List ClayRec) (off : Nat) : Bool := (namedOffs rs).any fun x => x.2.2 == off

/-! ### Ranges (R475) -/

/-- R171, R173: the ranges of one pin's fields in its mode. -/
def pinRange (s : State) (n : Nat) : Bool :=
  let m := pinMode s n
  let out := s.reg (Reg.pinOutcfg n)
  let pwm := s.reg (Reg.pinPwm n)
  let aux := s.reg (Reg.pinAux n)
  let per := fld pwm 23 0 * (if bitOf pwm 24 then 1000 else 10)
  decide (m ≤ 8) && decide (fld (s.reg (Reg.pinCfg2 n)) 7 0 ≤ 224) && fld out 26 24 != 7
  && (m != modePWM || (fld pwm 23 0 != 0 && decide ((if bitOf out 27 then 20000 else 4000) ≤ per) && decide (per ≤ Config.pwmPeriodMax)))
  && (m != modeCS || fld aux 15 0 != 0)
  && (!(m == modePWM && bitOf out 28) || (decide (4 ≤ fld aux 26 21) && decide (fld aux 26 21 ≤ 48)))

/-- R475: the value of a register lies in the range its field table states. -/
def rangeOk (s : State) (off : Nat) : Bool :=
  let v := s.reg off
  match regAt off with
  | .glob o => if inWords o 0x600 66 then decide (fld v 4 0 ≤ 28) && decide (fld v 12 8 ≤ 28) else true
  | .tb _ => decide (90 ≤ fld v 7 0) && decide (fld v 7 0 ≤ 120) && decide (100 ≤ fld v 15 8) && decide (fld v 15 8 ≤ 121)
  | .dma _ _ => decide (fld v 11 4 ≤ 128)
  | .pin n _ => pinRange s n
  | .bank _ o => if o = 4 then (List.range 8).all (fun k => decide (fld v (4 * k + 3) (4 * k) ≤ 8) || fld v (4 * k + 3) (4 * k) == 15)
      else true
  | .vote o => if o = 4 then decide (200 ≤ fld v 16 0) && decide (fld v 16 0 ≤ 100000) else true
  | .silt o => if inWords o 0x10 4 then fld v 1 0 != 3 else true
  | .weir o =>
    if o = 0x4000 then decide (1 ≤ fld v 7 0)
    else if o = 0x4004 then decide (256 ≤ fld v 16 0) && decide (fld v 16 0 ≤ 65536) else true
  | .dbell o => if o = 0 then decide (fld v 7 4 ≤ 16) else true
  | _ => true

/-- Code 0x08: image values outside their ranges. -/
def rangeErrs (s : State) (rs : List ClayRec) : List ClayErr :=
  (namedOffs rs).filterMap fun x => if rangeOk s x.2.2 then none else some (8, x.1, x.2.1)

end Sys2Proof.Machine
end

