-- ==== Sys2Proof/Machine/ClayLoad.lean ====
section
/-! DEFINITION. The loader of the Clay image: destinations, structure areas, the load-time rules of other chapters, and what
a load leaves (R474 to R478). -/

namespace Sys2Proof.Machine

/-! ### Destinations (R389, R475, R476) -/

/-- [a, a + n) lies in [lo, lo + size). -/
def within (a n lo size : Nat) : Bool := decide (lo ≤ a) && decide (a + n ≤ lo + size)

/-- Two ranges have no byte in common. -/
def disjoint (x y : Nat × Nat) : Bool := decide (x.1 + x.2 ≤ y.1) || decide (y.1 + y.2 ≤ x.1)

/-- The image has a record of the section. -/
def hasSec (rs : List ClayRec) (sec : Nat) : Bool := rs.any fun r => r.sec == sec

/-- The section names a register. -/
def suppliesIn (rs : List ClayRec) (sec off : Nat) : Bool := (namedOffs rs).any fun x => x.1 == sec && x.2.2 == off

def ctxArea (s : State) : Nat × Nat := (Config.basinBase + fld (s.reg Reg.devTeBase) 3 0 * 0x100000, 0x100000)
def dispArea (s : State) : Nat × Nat := (dispSlot s 0 0, 0x80000)
def classArea (s : State) : Nat × Nat := (authAddr s 0, 0x4000)
def epochArea (s : State) : Nat × Nat := (epochAddr s 0, 0x4000)
def extArea (s : State) : Nat × Nat := (Config.basinBase + fld (s.reg Reg.siltExtBase) 23 14 * 0x4000, 0x20000)
def ringArea (s : State) : Nat × Nat := (arRingAddr s 0, 0x4000)
def sqdArea (s : State) : Nat × Nat := (Config.basinBase + fld (s.reg Reg.dbellSqdBase) 23 16 * 0x10000, 0x10000)
def cqdArea (s : State) : Nat × Nat := (Config.basinBase + fld (s.reg Reg.dbellCqdBase) 23 16 * 0x10000, 0x10000)
def stormArea (s : State) : Nat × Nat := (Config.basinBase + fld (s.reg Reg.pinStormBase) 23 14 * 0x4000, 0x4000)

/-- R474: the two areas of a SILTMEM record. -/
def siltAreas (r : ClayRec) : List (Nat × Nat) :=
  let w (i : Nat) : Nat := (wordAt r.data i).toNat
  [(w 0 * 16, w 1 * 4096), (w 2 * 16, w 3 * 4096)]

/-- R389, R475: the structure areas that the image places. -/
def structAreas (s : State) (rs : List ClayRec) : List (Nat × Nat) :=
  let at_ (b : Bool) (x : Nat × Nat) : List (Nat × Nat) := if b then [x] else []
  at_ (suppliesIn rs 4 Reg.devTeBase) (ctxArea s) ++ at_ (suppliesIn rs 6 Reg.devTeBase) (dispArea s)
  ++ at_ (supplies rs Reg.leveeClassBase) (classArea s) ++ at_ (supplies rs Reg.leveeEpochBase) (epochArea s)
  ++ at_ (supplies rs Reg.siltExtBase) (extArea s) ++ at_ (supplies rs Reg.siltRingBase) (ringArea s)
  ++ at_ (supplies rs Reg.dbellSqdBase) (sqdArea s) ++ at_ (supplies rs Reg.dbellCqdBase) (cqdArea s)
  ++ at_ (supplies rs Reg.pinStormBase) (stormArea s)
  ++ (rs.filter fun r => r.rty == 9).flatMap siltAreas

/-- R476: the range reserved for start-up. -/
def reservedArea : Nat × Nat := (Config.retainedBase, 0x4000000)

/-- Where a BLOCK, ZERO or CAPBLOCK record writes. -/
def recDest (r : ClayRec) : Nat × Nat := (r.arg.toNat * 16, if r.rty = 3 then (wordAt r.data 0).toNat else r.data.length)

/-- The records that write memory at a given address. -/
def memRecs (rs : List ClayRec) : List ClayRec := rs.filter fun r => r.rty == 2 || r.rty == 3 || r.rty == 0xC

/-- Basin or usable DRAM. -/
def inBasinDram (s : State) (x : Nat × Nat) : Bool :=
  within x.1 x.2 Config.basinBase Config.basinSize || within x.1 x.2 0 (dramEnd s)

/-- R475: a record's destination is one its section may reach. -/
def destAllowed (s : State) (rs : List ClayRec) (r : ClayRec) : Bool :=
  let x := recDest r
  let free := (structAreas s rs).all (disjoint x) && disjoint x reservedArea
  let inA (a : Nat × Nat) : Bool := within x.1 x.2 a.1 a.2
  if r.sec = 5 then inBasinDram s x && free
  else if r.sec = 6 then inA (dispArea s)
  else if r.sec = 7 then
    (within x.1 x.2 Config.basinBase Config.basinSize && free) || (inA (classArea s) && x.2 == 16 && x.1 % 256 == 240)
  else if r.sec = 8 then
    if r.rty = 0xC then inA (classArea s) && decide (x.1 % 256 + x.2 ≤ 176) else inA (epochArea s)
  else if r.sec = 0xB then inA (extArea s) || (inA (ringArea s) && decide (x.1 % 64 + x.2 ≤ 32))
  else if r.sec = 0xC then inA (sqdArea s) || inA (cqdArea s)
  else if r.sec = 0xF then
    within x.1 x.2 Config.loamScBase 0x40000 || within x.1 x.2 (Config.loamScBase + 0x40000) 0x40000 || (inBasinDram s x && free)
  else false

/-- What identifies the place of a record that writes no given address. -/
def placeKey (r : ClayRec) : Nat × Nat :=
  if r.rty = 5 then (5, fld r.arg 8 0) else if r.rty = 7 ∨ r.rty = 0xB ∨ r.rty = 0xD ∨ r.rty = 0xE then (r.rty, r.arg.toNat)
  else (r.rty, 0)

/-- The records that overlap an earlier one. -/
def overlapping {α : Type} (range : α → Nat × Nat) : List α → List α → List α
  | [], _ => []
  | x :: t, seen =>
    if seen.any fun y => !disjoint (range x) (range y) then x :: overlapping range t (x :: seen)
    else overlapping range t (x :: seen)

/-- Subchannels of a SUBCH record. -/
def subRange (r : ClayRec) : Nat × Nat := (r.arg.toNat, r.data.length / 16)

def errAt (code : Nat) (r : ClayRec) : ClayErr := (code, r.sec, r.idx)

/-- Code 0x09: destinations (R475 to R477). -/
def destErrs (s : State) (rs : List ClayRec) : List ClayErr :=
  let m := memRecs rs
  ((m.filter fun r => !destAllowed s rs r) ++ overlapping recDest m []
    ++ overlapping subRange (rs.filter fun r => r.rty == 4) []
    ++ repeats placeKey (rs.filter fun r => r.rty != 1 && r.rty != 2 && r.rty != 3 && r.rty != 4 && r.rty != 0xC) []).map (errAt 9)
  ++ (if apart (reservedArea :: structAreas s rs) then [] else [(9, 0, 0)])

/-! ### Values in records (R474) -/

/-- R474: the argument and the reserved fields of a record. -/
def fieldsOk (r : ClayRec) : Bool :=
  let w (i : Nat) : Word := wordAt r.data i
  let a := r.arg.toNat
  if r.rty = 3 then (w 0).toNat % 16 == 0 && w 1 == 0
  else if r.rty = 4 then
    decide (a + r.data.length / 16 ≤ 4096) && (List.range (r.data.length / 16)).all fun i =>
      let e := (r.data.drop (16 * i)).take 16
      let b := wordAt e 1
      let arg := fld b 13 0
      fld (wordAt e 0) 31 23 == 0 && fld b 31 16 == 0 && fld (wordAt e 2) 31 20 == 0 && wordAt e 3 == 0
      && (match fld b 15 14 with
        | 0 => arg == 0
        | 1 => decide (arg < 128)
        | 2 => decide (arg < 256)
        | _ => false)
  else if r.rty = 5 then fld r.arg 7 0 != 255 && fld r.arg 31 19 == 0 && (!bitOf r.arg 8 || fld r.arg 18 9 == 0)
  else if r.rty = 7 then decide (a < 16) && fld (w 0) 31 1 == 0 && w 6 == 0 && w 7 == 0
  else if r.rty = 0xA then
    a == 0 && fld (w 1) 15 1 == 0 && w 2 == 0 && w 3 == 0 &&
      (fld (w 1) 31 16 == 0 || (decide (10 ≤ fld (w 1) 31 16) && decide (fld (w 1) 31 16 ≤ 800)))
  else if r.rty = 0xB then decide (a < 16)
  else if r.rty = 0xD then decide (a < 2)
  else if r.rty = 0xE then decide (a < 2) && w 1 == 0 && w 2 == 0 && w 3 == 0
  else if r.rty = 2 ∨ r.rty = 0xC then true
  else a == 0

/-- R476: an entry's rights against the reserved range. -/
def rgnReserved (r : Rgn) : Bool :=
  let hits (lo hi : Nat) : Bool := bitOf r.2.2 0 && decide (r.1 ≤ hi) && decide (lo ≤ r.2.1)
  let rights := fld r.2.2 12 1
  (hits 0x1DE000 0x1DFFFF && rights != 0) || (hits 0x1DC000 0x1DDFFF && rights &&& 0xFF3 != 0)

/-- R275: a valid extent's fields. -/
def extentOk (s : State) (e : Nat) : Bool :=
  !extValid s e || (decide (fld (extW s e 0) 8 5 ≤ 8) && fld (extW s e 0) 31 11 == 0 && fld (extW s e 2) 31 16 == 0)

/-- R279: a valid ring's fields. -/
def ringOk (s : State) (r : Nat) : Bool :=
  !arValid s r || (arBase s r % 4096 == 0 && decide (10 ≤ fld (arW s r 3) 4 0) && decide (fld (arW s r 3) 4 0 ≤ 24)
    && decide (1 ≤ arCkptRec s r) && decide (arCkptRec s r ≤ 1024) && arIdxBase s r % 4096 == 0)

/-- Code 0x08: values in records, and region entries over the reserved range. -/
def valueErrs (s : State) (rs : List ClayRec) : List ClayErr :=
  (rs.filter fun r => r.rty != 1 && !fieldsOk r).map (errAt 8)
  ++ (if (List.range 64).any fun i => rgnReserved (rgnNow s i) then [(8, 2, 0)] else [])

/-- Code 0x08: values in the extent map and the ring table as loaded. -/
def tableErrs (s : State) (rs : List ClayRec) : List ClayErr :=
  (if hasSec rs 0xB && (List.range 4096).any (fun e => !extentOk s e) then [(8, 0xB, 0)] else [])
  ++ (if hasSec rs 0xB && (List.range 256).any (fun r => !ringOk s r) then [(8, 0xB, 0)] else [])

/-! ### What a load leaves (R475, R477) -/

/-- R474, R165: where the Loam code of TE n lies. -/
def teLoam (n : Nat) : Nat := Config.loamBase + 0x20000 * n

/-- A whole 64 KiB image of bytes. -/
def loamFull (bs : List Byte) : List Byte := padTo 0 0x10000 bs

/-- R474: one subchannel of a SUBCH record. -/
def subEntry (e : List Byte) : SubAttr :=
  let w := wordAt e 0
  { valid := bitOf w 22, world := if bitOf w 0 then .service else .safety, reach := fld w 5 1, owner := fld w 11 6,
    cls := fld w 17 12, binding := fld (wordAt e 1) 15 0, chainLimit := fld (wordAt e 2) 19 0, chkEn := bitOf w 18,
    errSafe := bitOf w 19, sticky := bitOf w 20, movable := bitOf w 21 }

/-- R474: granule i of a record, loaded with its tag set when it is not zero. -/
def rootCap (bs : List Byte) (i : Nat) : Cap :=
  let v := ofBytes ((bs.drop (16 * i)).take 16)
  { body := BitVec.ofNat 128 v, tag := v != 0 }

/-- One record other than REGS takes effect. -/
def applyRec (s : State) (r : ClayRec) : State :=
  let w (i : Nat) : Word := wordAt r.data i
  let a := r.arg.toNat
  if r.rty = 2 then pokeMem s (a * 16) r.data
  else if r.rty = 3 then pokeMem s (a * 16) (List.replicate (w 0).toNat 0)
  else if r.rty = 0xC then
    foldN (r.data.length / 16) (fun s i => s.setTag (a * 16 + 16 * i) (rootCap r.data i).tag) (pokeMem s (a * 16) r.data)
  else if r.rty = 4 then
    foldN (r.data.length / 16) (fun s i =>
      s.modSub (a + i) fun b => { b with attr := subEntry ((r.data.drop (16 * i)).take 16) }) s
  else if r.rty = 5 then
    pokeMem s (Config.retainedBase + 0x20000 * fld r.arg 7 0 + (if bitOf r.arg 8 then 0x10000 else 0)) (loamFull r.data)
  else if r.rty = 6 then s.modBoot fun b => { b with temap := r.data }
  else if r.rty = 7 then s.modDrv a fun d => { d with any := bitOf (w 0) 0, serial := (r.data.drop 4).take 20 }
  else if r.rty = 8 then s.modBoot fun b => { b with qenable := r.data }
  else if r.rty = 9 then
    s.modSilt fun x => { x with
      queueBase := (w 0).toNat * 16, queuePages := (w 1).toNat, bounceBase := (w 2).toNat * 16, bouncePages := (w 3).toNat }
  else if r.rty = 0xA then
    s.modBoot fun b => { b with
      subsys := w 0, mon := bitOf (w 1) 0, formWait := if fld (w 1) 31 16 = 0 then 300 else fld (w 1) 31 16 }
  else if r.rty = 0xB then
    { s with brook := { s.brook with
      satType := (List.range 8).foldl (fun t p => tset t (8 * a + p) (w p)) s.brook.satType } }
  else if r.rty = 0xD then
    s.modCore (64 + a) fun x => { x with
      pcc := rootCap r.data 0, epcc := rootCap r.data 1, ec0 := rootCap r.data 2
      c := (List.range 8).map fun i => rootCap r.data (3 + i)
      gtbase := w 44, gtcount := fld (w 45) 10 0, gauth := w 46 }
  else if r.rty = 0xE then s.modCore (64 + a) fun x => { x with evbase := w 0 }
  else s

/-- R474: the code record of an image, if there is one. -/
def codeRec (rs : List ClayRec) (img : Nat) : Option ClayRec := rs.find? fun r => r.rty == 5 && fld r.arg 8 0 == img

/-- R474, R165: TE n takes its image, or stands by as a spare. -/
def loadTe (rs : List ClayRec) (s : State) (n : Nat) : State :=
  let img := (nth 0xFF s.boot.temap n).toNat
  if img = 0xFF then
    let w := 0x310 + 4 * (n / 32)
    (s.setReg w (setBit (s.reg w) (n % 32) true)).modTe n fun t => { t with
      loamImg := 0xFF, st := if t.st = .retired then .retired else .spare }
  else
    let s := pokeMem s (teLoam n) (peekMem s (Config.retainedBase + 0x20000 * img) 0x20000)
    let evb := (codeRec rs img).elim 0 fun r => fld r.arg 18 9
    (s.modTe n fun t => { t with loamImg := img }).modCore n fun x => { x with evbase := BitVec.ofNat 32 (evb * 64) }

/-- Everything the image's records place, but for the registers. -/
def applyRecs (s : State) (rs : List ClayRec) : State :=
  let s := (rs.filter fun r => r.rty != 1).foldl applyRec s
  let s := if supplies rs Reg.pinStormBase then pokeMem s (stormArea s).1 (List.replicate 0x4000 0) else s
  if rs.any (fun r => r.rty == 6) then foldN 64 (loadTe rs) s else s

/-! ### Load-time rules of other chapters (R477) -/

/-- R38: CHAIN_LIMIT of 1 to 15. -/
def chainErrs (rs : List ClayRec) : List ClayErr :=
  (rs.filter fun r => r.rty == 4 && (List.range (r.data.length / 16)).any fun i =>
    let k := (subEntry ((r.data.drop (16 * i)).take 16)).chainLimit
    decide (1 ≤ k) && decide (k ≤ 15)).map (errAt 10)

/-- Some byte of a range of memory is listed; an unlisted byte of Basin reads 0. -/
def listed (s : State) (a len : Nat) : Bool := s.mem.any fun c => decide (a ≤ c.1) && decide (c.1 < a + len)

/-- R148: a dispatch table: its slots and its header. -/
def classOk (s : State) (cls : Nat) : Bool :=
  !listed s (dispSlot s cls 0) 0x2000 || (List.range 256).all fun code =>
    let e (k : Nat) : List Word := (List.range 4).map fun i => peekWord s (dispSlot s cls code + 16 * k + 4 * i)
    if code = 0 then
      fld (peekWord s (dispSlot s cls 0 + 8)) 7 4 == 0 && fld (peekWord s (dispSlot s cls 0 + 8)) 31 16 == 0
        && (List.range 5).all fun i => peekWord s (dispSlot s cls 0 + 12 + 4 * i) == 0
    else if tableCode code then entryOk (e 0) && entryOk (e 1)
    else e 0 == [0, 0, 0, 0] && e 1 == [0, 0, 0, 0]

/-- R204, R203: the positions and the member count of a mode. -/
def voteOk (s : State) : Bool :=
  let v := s.reg Reg.voteCfg
  let ps := (List.range 4).filter fun p => bitOf v (4 + p)
  let n := ps.length
  let mode := fld v 1 0
  (if mode = 0 then n == 1 else if mode = 1 then n == 2 else if mode = 2 then n == 3 else n == 3 || n == 4)
  && (if mode = 3 then (ps.drop 2).foldl (fun a p => a + 2 ^ p) 0 == fld v 15 12 else fld v 15 12 == 0)

/-- R279: rings on invalid extents, of too few blocks, or overlapping another ring. -/
def ringsOk (s : State) : Bool :=
  let l := (List.range 256).filter (arValid s)
  l.all (fun r => decide (8192 ≤ arSize s r) && (extentsOf (arBase s r) (arSize s r)).all (extValid s))
  && apart (l.map fun r => (arBase s r, 4096 * arSize s r))

/-- R181: the carrier period and the DMA channel of an audio pin. -/
def audioOk (s : State) (n : Nat) : Bool :=
  let per := fld (s.reg (Reg.pinPwm n)) 23 0 * (if bitOf (s.reg (Reg.pinPwm n)) 24 then 1000 else 10)
  let aux := s.reg (Reg.pinAux n)
  let chWorld : World := if bitOf (s.reg (Reg.dmaChCfg (fld aux 20 16))) 1 then .service else .safety
  !(pinMode s n == modePWM && pinAudio s n) ||
    (decide (per * 4 * fld aux 26 21 ≤ 1000000) &&
      match pinOwner s n with
      | some o => (s.sub o).attr.world == chWorld
      | none => true)

/-- R432: the notifying source of an H end. -/
def hsrcOk (s : State) (ch : Nat) : Bool :=
  let w : World := if ch < 8 then .safety else .service
  let h := (s.mb ch false).hsrc
  decide (Config.softSrcLo ≤ h) && decide (h < 2048) && srcWorld s h == w

/-- R469: the queues and rings that QENABLE enables in host memory. -/
def qenableHost (s : State) : Bool :=
  (List.range 2048).any fun i =>
    let k := i % 1024
    let isRing := decide (1024 ≤ i)
    bitOf (nth 0 s.boot.qenable (i / 8)) (i % 8) &&
      (let d := parseDesc isRing (peekMem s (Config.basinBase +
          fld (s.reg (if isRing then Reg.dbellCqdBase else Reg.dbellSqdBase)) 23 16 * 0x10000 + 64 * k) 64)
       d.base.asel == 0 || d.tailA.asel == 0 || d.headA.asel == 0)

/-- Code 0x0A: the rules that R477 lists, each reported at its section. A register that no record supplies holds 0 (R475) and is
checked like any other; the tables of a section are checked when the image has that section (log entry 61). -/
def ruleErrs (s : State) (rs : List ClayRec) : List ClayErr :=
  let bad (b : Bool) (sec : Nat) : List ClayErr := if b then [(10, sec, 0)] else []
  let subs := s.subs.filter fun x => x.2.attr.valid
  let en := bitOf (s.reg Reg.devHostCfg) 0
  chainErrs rs
  ++ bad ((List.range 64).any fun t => decide (12 < stickyOf s t)) 4
  ++ bad ((hasSec rs 6 && (List.range 64).any fun k => !classOk s k) ||
      subs.any fun x => !inTeMask s x.2.attr.cls x.2.attr.owner) 6
  ++ bad (subs.any fun x => isSpare s x.2.attr.owner) 4
  ++ bad ((List.range 64).any fun t => isSpare s t && (List.range 64).any fun k => inTeMask s k t) 6
  ++ bad ((List.range 96).any fun n => !pairOk (pinMode s) n || !audioOk s n ||
      (bitOf (s.reg (Reg.pinCfg n)) 4 && pinMode s n != modeGD && pinMode s n != modeLS)) 3
  ++ bad ((List.range 12).any fun b => !scanOk (s.reg (Reg.bankScan b))) 3
  ++ bad (!voteOk s) 9
  ++ bad (supplies rs Reg.devPlossCfg && !arOverwrite s (fld (s.reg Reg.devPlossCfg) 8 1)) 1
  ++ bad (hasSec rs 0xB && !ringsOk s) 0xB
  ++ bad (tableFault (dramPages s) (rgnNow s)).isSome 2
  ++ bad ((List.range 16).any fun ch => supplies rs (0x20020 + 0x100 * ch) && !hsrcOk s ch) 0xE
  ++ bad (weirFault s (fld (s.reg Reg.weirCtl) 7 0) (fld (s.reg Reg.weirWin) 16 0) (fun r => s.reg (Reg.weirCred r)) != 0) 0xD
  ++ bad (!en && s.ev.src.any fun x => decide (2 ≤ x.2.target)) 0xE
  ++ bad (!en && qenableHost s) 0xC
  ++ (rs.filter fun r => r.rty == 6 && (r.data.any fun i => i != 0xFF && (codeRec rs i.toNat).isNone)).map (errAt 10)

/-! ### The load (R477, R484) -/

/-- Of some errors, the one of the lowest section and record, the earlier check first. -/
def firstErr (l : List ClayErr) : Option ClayErr :=
  l.foldl (fun best e =>
    match best with
    | none => some e
    | some b => if e.2.1 < b.2.1 ∨ (e.2.1 = b.2.1 ∧ e.2.2 < b.2.2) then some e else some b) none

/-- R475: GLOBAL, and TEMAP where section 0x05 is present, stand exactly once. -/
def missingErrs (b : List Byte) (rs : List ClayRec) : List ClayErr :=
  let need (sec rty : Nat) : List ClayErr :=
    if (sectionsOf b).any (fun x => x.ty == sec) && !(rs.any fun r => r.sec == sec && r.rty == rty) then
      [(7, sec, (rs.filter fun r => r.sec == sec).length)] else []
  need 1 0xA ++ need 5 6

/-- R475 to R478: the load of an image into a state whose registers hold their hardware reset values: an error, or the
state it leaves. -/
def loadImage (s : State) (b : List Byte) : Except ClayErr State :=
  let rs := allRecords b
  match firstErr ((sectionsOf b).flatMap framingErrs ++ missingErrs b rs) with
  | some e => .error e
  | none =>
    let s := applyRegs s rs
    match firstErr (pairErrs rs ++ twiceErrs rs ++ rangeErrs s rs ++ valueErrs s rs ++ destErrs s rs) with
    | some e => .error e
    | none =>
      let s := applyRecs s rs
      match firstErr (tableErrs s rs ++ ruleErrs s rs) with
      | some e => .error e
      | none =>
        let h := identityHash b
        .ok (setOverlap (foldN 8 (fun s k => s.setReg (Reg.voteHash k) (nth 0 h k)) s))

/-- R482, R485 step 7: what a failed load leaves in memory. The sections are applied in type order, so the records before
the rejected one stand there; Loams and retained images are written after the last section. -/
def failedWrites (s : State) (b : List Byte) (e : ClayErr) : State :=
  let rs := allRecords b
  let done (r : ClayRec) : Bool := decide (r.sec < e.2.1) || (decide (r.sec = e.2.1) && decide (r.idx < e.2.2))
  let t := applyRegs s rs
  let t := ((memRecs rs).filter fun r => done r && destAllowed t rs r).foldl applyRec t
  let t := if suppliesIn (rs.filter done) 3 Reg.pinStormBase then pokeMem t (stormArea t).1 (List.replicate 0x4000 0) else t
  { s with mem := t.mem, tags := t.tags, ue := t.ue }

end Sys2Proof.Machine
end

