-- ==== Sys2Proof/Machine/Reset.lean ====
section
/-! DEFINITION. Main-die resets and power loss (chapter "Commit points and recovery", R261 to R267), the supply and the thermal
monitor (chapter "Supply, module and board design"). -/

namespace Sys2Proof.Machine

/-! ### Main-die reset (R261, R262) -/

/-- R262: the part of a memory that a warm reset keeps: the DRAM and Basin. -/
def keptAddr (s : State) (a : Nat) : Bool :=
  match placeOf s a with
  | .dram | .basin => true
  | _ => false

/-- R262: the units in error that Basin and the DRAM keep. -/
def keptUe (s : State) : List Nat := s.ue.filter (keptAddr s)

/-- R262, R486: what a warm reset keeps of the field die: its self-test. -/
def keptBank (x : Bank) : Bank := { failed := x.failed }

/-- The part of the supply and thermal monitor that lies in the field die, and what a main-die reset clears. -/
def keptSupply (u : Supply) : Supply :=
  { u with tmax := 0, tsrc := 0, warn := false, throt := false, stopping := false, shut := false, teMhz := 600, stepAt := 0, stopAt := 0 }

/-- R259, R260: a warm reset abandons every running command that has not committed: the owned bytes it wrote are open. -/
def freeOwned (s : State) (warm : Bool) : State := if warm then s.subs.foldl (fun s x => freeDirect s x.1) s else s

/-- R261, R262: the state after a main-die reset; fuses, host memory and the supply log stay. -/
def mainReset (s : State) (warm : Bool) (last : Nat) (thermal : Bool) : State :=
  let s := freeOwned s warm
  let ecc := bitOf (s.reg Reg.devMemCfg) 0
  { pending := s.pending, ans := s.ans, freeCtr := s.freeCtr, hostMem := s.hostMem
    mem := if warm then s.mem.filter fun c => keptAddr s c.1 else []
    ue := if warm then keptUe s else []
    regs := if warm && ecc then [(Reg.devMemCfg, 1)] else []
    banks := if warm then s.banks.map fun x => (x.1, keptBank x.2) else []
    fd := if warm then { fdPass := s.fd.fdPass, fdDone := s.fd.fdDone } else {}
    cu := { lastReset := last, basinUnverified := warm, dramRetained := warm, thermal := thermal }
    fuses := { s.fuses with busy := false, op := (0, 0, 0), result := 0, used := 0 }
    supply := keptSupply s.supply
    boot := { st := if warm then .resetWait else .fieldTest, warm := warm, zeroed := warm } }

/-- R261: a request of a main-die reset; a cold one stands over a warm one. -/
def askReset (s : State) (a : ResetAsk) : State :=
  if s.cu.pl ≠ .none ∧ !a.thermal then s
  else s.modCu fun c => { c with resetAsk := match c.resetAsk with
    | some b => if b.kind = .cold then some b else some a
    | none => some a }

/-- DEV_RESET with GO = 1 (R261): KIND 1 warm, 2 cold, others reserved. -/
def devReset (s : State) (kind : Nat) : State :=
  if kind = 1 then askReset s { kind := .warm, last := 1 }
  else if kind = 2 then askReset s { kind := .cold, last := 2 }
  else s

/-- RESET_PIN_LOW (R261, R505): a pulse of some ns. -/
def resetPinLow (s : State) (ns : Nat) : State :=
  if s.boot.st = .off ∨ ns < 1000 then s else devReset s (if ns ≤ 1000000 then 1 else 2)

/-- R559: a reset during start-up begins again at step 3, so that the field die keeps its self-test; one in step 2 lets that
self-test end first. -/
def startsAgain (s t : State) : State :=
  match s.boot.st with
  | .fieldTest => t.modBoot fun b => { b with st := .fieldTest }
  | .resetWait | .memory | .reading | .auth | .apply | .forming =>
    { t with
      banks := s.banks.map fun x => (x.1, keptBank x.2), fd := { fdPass := s.fd.fdPass, fdDone := s.fd.fdDone }
      boot := { t.boot with st := .resetWait } }
  | .off | .ready | .stopped => t

/-- MAIN_DIE_RESET (R262): a requested reset takes place; a warm one once no accepted commit is before step 6. -/
def mainDieReset (s : State) : State :=
  match s.cu.resetAsk with
  | none => s
  | some a =>
    if s.boot.st = .off ∨ s.cu.pl ≠ .none then s
    else if a.thermal then
      let s := mainReset s false 2 true
      (s.modSupply fun u => { u with shut := true }).modBoot fun b => { b with st := .off }
    else if a.kind = .cold then startsAgain s (mainReset s false a.last false)
    else if s.cu.queue != [] then s
    else startsAgain s (mainReset s true a.last false)

/-! ### Power loss (R263 to R267, R505) -/

/-- R263 step 1: a program without a command at this moment. -/
def betweenCommands (b : Sub) : Bool := b.prog.phase == .fetch || b.prog.phase == .runaway || b.prog.phase == .held
    || b.prog.phase == .ending

/-- R263 step 1: a program whose command's commit request is not accepted; a wait that is swapped out is one too. -/
def unaccepted (b : Sub) : Bool :=
  b.prog.phase != .none && b.prog.phase != .accepted && b.prog.phase != .sluice && b.prog.phase != .deviceEnd
    && !(b.prog.phase == .archive && b.prog.committed)

/-- R263 step 1, R285: such a command is abandoned; its allocation becomes void. -/
def abandonCmd (s : State) (n : Nat) : State :=
  let w := (s.sub n).prog.work
  let s := match w.seq with
    | some q => modRec s w.ring q fun z => if z.mark then z else { z with dead := true }
    | none => s
  let s := leaveCore (freeDirect s n) n
  s.modSub n fun b => { b with prog := { b.prog with phase := .none, held := {} } }

/-- POWER_LOSS_DETECT (R263, R505): cause 1 the input, 2 PF_n, 3 both; PF_n counts only with PF_EN. -/
def powerLossDetect (s : State) (cause : Nat) : State :=
  let pf := bitOf (s.reg Reg.devPlossCfg) 9
  let cause := if pf then cause else cause % 2
  if s.boot.st = .off ∨ s.cu.pl ≠ .none ∨ cause = 0 then s
  else
    let early := !s.ready
    let gone := (s.subs.filter fun x => unaccepted x.2).map (·.1)
    let cmds := (gone.filter fun n => !betweenCommands (s.sub n)).length
    let s := gone.foldl abandonCmd s
    let s := s.modCu fun c => { c with
      pl := if early then .done else .commits, plCause := cause, plDet := s.now, plLast := 0, plCommits := 0,
      plAbandoned := BitVec.ofNat 32 cmds }
    let s := s.modSupply fun u => { u with plossSeen := true }
    let s := s.modBoot fun b => { b with ready := false }
    sluiceSweep (safeAll s false)

/-- R264: the journal payload. -/
def journalBytes (s : State) : List Byte :=
  let c := s.cu
  wordsBytes [pack [(0, 8, c.plCause), (8, 8, 1)], lo c.plDet, hi c.plDet, lo c.plLast, hi c.plLast, c.plCommits, c.plAbandoned, 0]
  ++ (List.range 1024).flatMap (fun i => toBytes 2 (s.ring i).tail)
  ++ (List.range 1024).flatMap (fun i => toBytes 2 (s.sq i).head)

/-- R263 step 5: a Flush to every present drive. -/
def flushDrives (s : State) : State :=
  let s := (s.silt.drv.filter fun x => x.2.st == .ready).foldl (fun s x =>
    issueNv s { id := 0, drive := x.1, lba := 0, blocks := 0, write := true, use := .flush }) s
  s.modCu fun c => { c with pl := .flush }

/-- R263 step 4, R264, R284: the journal record is allocated and its payload written; its header follows as that of any
record does. GEN and REACH of its header are free values. -/
def journalWrite (s : State) (r : Nat) : State :=
  let bs := journalBytes s
  let blocks := recBlocks bs.length
  let (blk, epoch) := placeRec s r blocks
  let (s, v) := s.free
  let q := arNext s r
  let s := dropOverlapped s r blk blocks
  let s := advanceRing s r blk blocks epoch 1
  let head := recHeader r q epoch 0 (v.toNat % 16) (v.toNat / 16 % 32) 0 (arWorld s r) s.cu.plDet bs.length blocks bs
  let rec_ : Rec := {
    ring := r, seq := q, epoch := epoch, blk := blk, blocks := blocks, sub := 4096, gen := 0, world := arWorld s r
    mark := true, head := padTo 0 4096 (head ++ bs.take 4032) }
  let s := s.modSilt fun y => { y with recs := y.recs ++ [rec_] }
  let s := writeBlocks s (arBase s r + 4096 * (blk + 1)) (bs.drop 4032) (.payload r q)
  s.modCu fun c => { c with pl := .journal }

/-- R285: an abandoned allocation whose void header is not written yet precedes a record whose commit was accepted. -/
def voidsDue (s : State) : Bool :=
  (List.range 256).any fun r => match recsOf s r with
    | x :: xs => x.dead && !x.issued && xs.any (·.mark)
    | [] => false

/-- POWER_LOSS_COMMITS_COMPLETE (R263 steps 3 and 4, R264, R285). -/
def powerLossCommitsComplete (s : State) : State :=
  if s.cu.pl ≠ .commits ∨ s.cu.queue != [] ∨ voidsDue s then s
  else
    let r := fld (s.reg Reg.devPlossCfg) 8 1
    if bitOf (s.reg Reg.devPlossCfg) 0 && arValid s r && arState s r == 2 then journalWrite s r else flushDrives s

/-- R263, R264: the journal's record while it is open. -/
def journalRec (s : State) (r : Nat) : Option Rec := (recsOf s r).find? fun x => x.sub == 4096

/-- JOURNAL_WRITE_COMPLETE (R263 step 5, R264): the journal's header write was issued, its payload writes have completed, and it
is the oldest open record of its ring: it is committed. A journal that was lost leaves only the Flush. -/
def journalWriteComplete (s : State) : State :=
  if s.cu.pl ≠ .journal then s
  else
    let r := fld (s.reg Reg.devPlossCfg) 8 1
    match journalRec s r with
    | none => flushDrives s
    | some x =>
      if !x.issued || payloadLeft s r x.seq || (recsOf s r).head? != some x then s
      else
        let s := s.modSilt fun y => { y with nv := y.nv.filter fun c => c.use != .header r x.seq }
        flushDrives ((settleRec s x false).modCu fun c => { c with plJournal := true })

/-- POWER_LOSS_RESET (R263 step 6): the main die is held in reset; a thermal shutdown met meanwhile holds it too (R505). -/
def powerLossReset (s : State) : State :=
  if s.cu.pl = .none ∨ s.cu.pl = .dead then s
  else
    let hot := match s.cu.resetAsk with
      | some a => a.thermal
      | none => false
    let s := mainReset s false 3 false
    let s := s.modCu fun c => { c with pl := .dead }
    (s.modSupply fun u => { u with shut := hot }).modBoot fun b => { b with st := .off }

/-- POWER_LOSS_RESTART (R267): a cold start, 10 ms after the reset, with the input recovered. -/
def powerLossRestart (s : State) : State :=
  if s.cu.pl ≠ .dead ∨ s.supply.shut then s else mainReset s false 3 false

/-! ### Supply (R495 to R499, R506) -/

/-- SUPPLY_GOOD (R485 step 1, R495): power-up; the supply log starts empty. -/
def supplyGood (s : State) : State :=
  if s.boot.st ≠ .off then s
  else
    let s := mainReset s false 0 false
    { s with supply := { diodeOn := s.supply.diodeOn, clamp := s.supply.clamp, railGood := 0xF } }

/-- SURGE_LIMIT_ENGAGE (R497). -/
def surgeLimitEngage (s : State) : State :=
  if s.supply.clamp then s
  else s.modSupply fun u => { u with clamp := true, clampSeen := true, clampCnt := satInc 255 u.clampCnt }

/-- SURGE_LIMIT_RELEASE (R497). -/
def surgeLimitRelease (s : State) : State := s.modSupply fun u => { u with clamp := false }

/-- SURGE_LIMITER_OPEN (R497): the series path opens. -/
def surgeLimiterOpen (s : State) : State :=
  if s.supply.clamp then s.modSupply fun u => { u with clamp := false, clampOpen := true, diodeOn := false } else s

/-- IDEAL_DIODE_ON (R498). -/
def idealDiodeOn (s : State) : State := s.modSupply fun u => { u with diodeOn := true }

/-- RAIL_START (R498): VIO, VDDR, VQ and VCORE have started. -/
def railStart (s : State) : State := s.modSupply fun u => { u with railGood := 0xF, low := false }

/-- VBULK_BELOW_3V (R506). -/
def vbulkBelow3v (s : State) : State := s.modSupply fun u => { u with low := true, railGood := 0 }

/-! ### Temperature (R510) -/

/-- A temperature of R510 in quarter degrees. -/
def degQ (t : BitVec 11) : Int := sgn 11 t.toNat

def warnAt (s : State) : Int := 4 * (fld (s.reg Reg.devThermCfg) 7 0 : Nat)
def throtAt (s : State) : Int := 4 * (fld (s.reg Reg.devThermCfg) 15 8 : Nat)

/-- A measurement of the hottest sensor; WARN and the 122 °C action end where R510 says. -/
def noteTemp (s : State) (t : BitVec 11) (src : Nat) : State :=
  let w := warnAt s
  s.modSupply fun u => { u with
    tmax := t, tsrc := src, warn := u.warn && !decide (degQ t < w - 20), stopping := u.stopping && decide (488 ≤ degQ t) }

/-- The main die runs. -/
def dieRuns (s : State) : Bool :=
  match s.boot.st with
  | .off | .fieldTest | .resetWait => false
  | _ => true

/-- THERMAL_WARN (R510). -/
def thermalWarn (s : State) (t : BitVec 11) (src : Nat) : State :=
  if !dieRuns s then s
  else
    let s := noteTemp s t src
    if warnAt s ≤ degQ t ∧ !s.supply.warn then raiseEvent (s.modSupply fun u => { u with warn := true }) Config.srcThermal else s

/-- THERMAL_THROTTLE_STEP (R510): one step, 1 ms after the last. -/
def thermalThrottleStep (s : State) (t : BitVec 11) (src : Nat) : State :=
  if !dieRuns s then s
  else
    let s := noteTemp s t src
    if notYet s s.supply.stepAt 1000000 then s
    else if throtAt s ≤ degQ t then
      let first := !s.supply.throt
      let s := s.modSupply fun u => { u with stepAt := s.now, throt := true, teMhz := Nat.max 480 (u.teMhz - 20) }
      if first then raiseEvent s Config.srcThermal else s
    else if degQ t < throtAt s - 20 ∧ s.supply.throt then
      s.modSupply fun u => { u with stepAt := s.now, teMhz := Nat.min 600 (u.teMhz + 20), throt := decide (u.teMhz + 20 < 600) }
    else s

/-- R16: an island is marked stalled and its watchdog event counted. -/
def islandStalls (s : State) (i : Nat) : State :=
  let s := s.modIsland i fun x => { x with
    clk := 3, wdog := true, cnt := satInc 255 x.cnt, stallAt := if x.clk = 3 then x.stallAt else s.now, stalledInWin := true }
  raiseEvent s Config.srcIslandWdog

/-- THERMAL_TE_STOP (R510): the hottest TE is stopped, 1 ms after the last; the handshake watchdog reports it (R16). -/
def thermalTeStop (s : State) (t : BitVec 11) (te : Nat) : State :=
  if !dieRuns s then s
  else
    let s := noteTemp s t te
    if degQ t < 488 ∨ 480 < s.supply.teMhz ∨ notYet s s.supply.stopAt 1000000 then s
    else islandStalls (s.modSupply fun u => { u with stopping := true, stopAt := s.now }) te

/-- THERMAL_SHUTDOWN (R510, R505): a sensor at 130 °C; a running power-loss sequence defers it. -/
def thermalShutdown (s : State) (t : BitVec 11) (src : Nat) : State :=
  if s.boot.st = .off ∨ degQ t < 520 then s
  else
    let s := (noteTemp s t src).modSupply fun u => { u with thermShut := true }
    let s := s.modCu fun c => { c with resetAsk := some { kind := .cold, last := 2, thermal := true } }
    mainDieReset s

/-- THERMAL_RESTART (R510): all sensors below 110 °C: a cold start. -/
def thermalRestart (s : State) : State :=
  if s.supply.shut then mainReset s false 2 true else s

end Sys2Proof.Machine
end

