-- ==== Sys2Proof/Machine/Boot.lean ====
section
/-! DEFINITION. Start-up, flash updates, fuses (chapter "Clay image and start-up"). -/

namespace Sys2Proof.Machine

/-! ### Tries (R482 to R484) -/

/-- R483: start-up stops; the monitor runs when its strap is high. -/
def stopBoot (s : State) (code : Nat) : State :=
  let s := s.modBoot fun b => { b with st := .stopped, stop := code }
  s.modMon fun m => { m with run := s.boot.monEn, noimg := true, banner := s.boot.monEn }

/-- R482, R484: a try fails: the other candidate is tried once, else start-up stops. -/
def tryFails (s : State) (e : ClayErr) : State :=
  let b := s.boot
  let s := s.modBoot fun b => { b with errCode := e.1, errSec := e.2.1, errRec := e.2.2, errSlot := b.slot }
  match b.other with
  | some x => s.modBoot fun b => { b with slot := x, other := none, fallback := true, st := .reading, readAt := s.now, len := 0 }
  | none => stopBoot s 1

/-- The image in the staging area. -/
def stagedImage (s : State) : List Byte := peekMem s Config.stagingBase s.boot.len

/-! ### Steps 2 to 6 (R485) -/

/-- FIELD_SELF_TEST_COMPLETE (R485 step 2): bit b of `failed` names a bank that failed. -/
def fieldSelfTestComplete (s : State) (failed : BitVec 12) : State :=
  if s.boot.st ≠ .fieldTest then s
  else
    let s := s.modFd fun f => { f with fdPass := ~~~failed, fdDone := true }
    let s := foldN 12 (fun s b => if bitOf failed b then s.modBank b fun x => { x with failed := true } else s) s
    s.modBoot fun b => { b with st := .resetWait }

/-- MAIN_DIE_RESET_RELEASE (R485 step 3, R512, R204, R480): the timebase starts at 0 and the straps are sampled. -/
def mainDieResetRelease (s : State) (monEn : Bool) (cpos : Nat) : State :=
  if s.boot.st ≠ .resetWait then s
  else
    let s := s.setNow 0
    let s := foldN 212 (fun s i => s.modIsland i fun x => { x with clk := 2 }) s
    let s := s.setReg Reg.voteCfg (setFld (s.reg Reg.voteCfg) 9 8 cpos)
    s.modBoot fun b => { b with
      st := .memory, monEn := monEn, cpos := cpos, unprov := s.fuses.keys.all (·.isNone) }

/-- MEMORY_INIT_COMPLETE (R485 step 4, R482 to R484, R486): tests, training, slot headers and the choice of a slot. -/
def memoryInitComplete (s : State) (r : MemInit) : State :=
  if s.boot.st ≠ .memory then s
  else if !r.memOk then stopBoot s 2
  else if !r.dramOk then stopBoot s 3
  else if !r.romOk then stopBoot s 4
  else
    let s := r.loamBad.foldl (fun s n => s.modTe n.val fun t => { t with st := .retired }) s
    let a := candidate s r.hdrA
    let b := candidate s r.hdrB
    let qa := if a then imgSeq r.hdrA else 0
    let qb := if b then imgSeq r.hdrB else 0
    let s := s.modBoot fun x => { x with seqA := qa, seqB := qb }
    if !a && !b then stopBoot s 1
    else
      let slot := b && (!a || decide (qa.toNat < qb.toNat))
      s.modBoot fun x => { x with slot := slot, other := if a && b then some (!slot) else none, st := .reading, readAt := s.now }

/-- IMAGE_READ_COMPLETE (R485 step 5, R472, R473): the image is in the staging area. -/
def imageReadComplete (s : State) (bytes : List Byte) : State :=
  if s.boot.st ≠ .reading then s
  else
    let s := (pokeMem s Config.stagingBase bytes).modBoot fun b => { b with len := bytes.length }
    let h := headerFault s bytes
    if h ≠ 0 then tryFails s (h, 0, 0)
    else if !sectionsOk bytes then tryFails s (6, 0, 0)
    else s.modBoot fun b => { b with st := .auth }

/-- FLASH_READ_TIMEOUT (R484): a flash read of the try has no response within 1 ms; the first began with the try. -/
def flashReadTimeout (s : State) : State :=
  if s.boot.st ≠ .reading ∨ notYet s s.boot.readAt 1000000 then s else tryFails s (3, 0, 0)

/-- AUTHENTICATION_COMPLETE (R485 step 6, R479, R480). -/
def authenticationComplete (s : State) : State :=
  if s.boot.st ≠ .auth then s
  else
    let img := stagedImage s
    let f := authFault s img
    if f ≠ 0 then tryFails s (f, 0, 0)
    else
      let key := if s.unprov then 2 else (matchingKey s img).getD 0
      (s.modFuses fun x => { x with used := key }).modBoot fun b => { b with st := .apply, svn := imgSvn img }

/-- DRAM_ZEROING_COMPLETE (R485): zeros in all usable DRAM outside the reserved range. -/
def dramZeroingComplete (s : State) : State :=
  if s.boot.zeroed || !(s.boot.st == .reading || s.boot.st == .auth || s.boot.st == .apply) then s
  else
    let keep (a : Nat) : Bool := decide (Config.retainedBase ≤ a)
    { s with mem := s.mem.filter fun c => keep c.1, ue := s.ue.filter keep, boot := { s.boot with zeroed := true } }

/-! ### Steps 7 and 8 -/

/-- R485 step 7, R191: the start-up calibration of a bank. -/
def startCalibrates (s : State) (c : CalRead) : State :=
  if (s.bank c.bank.val).failed then s
  else
    let s := s.modBank c.bank.val fun x => { x with calRun := true, house := 800, calBad := false }
    calibrationComplete s c.bank.val c.temp c.iBank c.refFault

/-- R191, R485: the start-up calibration of every bank that passed its self-test has ended. -/
def allCalibrated (s : State) (cal : List CalRead) : Bool :=
  (List.range 12).all fun b => (s.bank b).failed || cal.any fun c => c.bank.val == b

/-- R485 step 7, R191: the banks' calibrations complete. -/
def calibrateAll (s : State) (cal : List CalRead) : State :=
  foldN 12 (fun s b => match cal.find? fun c => c.bank.val == b with
    | some c => startCalibrates s c
    | none => s) s

/-- R485 step 7, R351: CXEMU clears on a core whose coprocessor self-test passes. -/
def clearCxemu (s : State) (k : Nat) : State :=
  let o := if k < 64 then Reg.devCxemu (k / 32) else Reg.devCxemuSc
  s.setReg o (setBit (s.reg o) (if k < 64 then k % 32 else k - 64) false)

/-- R485 step 8, R357, R405: a supervisor core starts at EVBASE with CAUSE.CODE = 0, at supervisor level. -/
def startSc (s : State) (k : Nat) : State :=
  let s := s.modCore (64 + k) fun x => { x with
    run := true, pc := x.evbase, cause := 0, lvl := true, world := if k = 0 then .safety else .service }
  s.modSc k fun x => { x with kick := s.now }

/-- R289: every valid ring recovers from the start of the device. -/
def startRings (s : State) : State :=
  foldN 256 (fun s r => if arValid s r then setArW s r 15 1 else s) s

/-- R484, R164, R165: a TE whose Loam failed its test gives its subchannels away. -/
def retireBad (s : State) (n : Nat) : State :=
  if (s.te n).st = .retired then takeSpare (raiseEvent s (Config.srcTeFault + n)) n true else s

/-- R485 step 8, R212: formation begins; a SIMPLEX member is in service. -/
def startVote (s : State) : State :=
  let s := s.modVote fun u => { u with st := if voteMode s = 0 then .inService else .forming }
  foldN 3 (fun s k => if cflEnabled s k then s.modCfl k fun c => { c with st := 1 } else s) s

/-- IMAGE_APPLY_COMPLETE (R485 steps 7 and 8, R445, R475 to R478, R486): the load, or the failure of the try. -/
def imageApplyComplete (s : State) (cxFail : List (Fin 66)) (cal : List CalRead) : State :=
  if s.boot.st ≠ .apply then s
  else
    let ecc := bitOf (s.reg Reg.devMemCfg) 0
    match loadImage s (stagedImage s) with
    | .error e => tryFails (failedWrites s (stagedImage s) e) e
    | .ok t =>
      if (bitOf (t.reg Reg.devMemCfg) 0 && !s.boot.zeroed) || !allCalibrated t cal then s
      else
        let t := if s.boot.warm then t.setReg Reg.devMemCfg (setBit (t.reg Reg.devMemCfg) 0 ecc) else t
        let t := foldN 66 (fun t k => if cxFail.any (·.val == k) then t else clearCxemu t k) t
        let t := calibrateAll t cal
        let t := if s.boot.warm then
            t.modCu fun c => { c with scrubUe := Nat.min 255 (t.ue.filter fun g => placeOf t g == .basin).length }
          else t
        let t := foldN 64 retireBad (startRings t)
        let t := t.setReg Reg.siltCtl (setBit (t.reg Reg.siltCtl) 0 true)
        let t := startVote (startSc (startSc t 0) 1)
        let t := t.modMon fun m => { m with run := t.boot.monEn && t.boot.mon, banner := t.boot.monEn && t.boot.mon }
        t.modBoot fun b => { b with st := .forming, formAt := t.now }

/-! ### Step 9 (R487) -/

/-- R485: step 8 has ended: SIMPLEX, or formation is complete. -/
def formed (s : State) : Bool := voteMode s == 0 || s.vote.st != .forming

/-- R487: READY. -/
def becomeReady (s : State) : State :=
  let bit (s : State) (i : Nat) : Bool := bitOf (nth 0 s.boot.qenable (i / 8)) (i % 8)
  let s := foldN 1024 (fun s k => if bit s (1024 + k) && (s.ring k).st == .disabled then enableRing s k else s) s
  let s := foldN 1024 (fun s k => if bit s k && (s.sq k).st == .disabled then enableQueue s k else s) s
  let s := s.setReg Reg.dbellCtl (setBit (s.reg Reg.dbellCtl) 0 true)
  let s := s.modEv fun e => { e with en := true }
  let s := s.modBoot fun b => { b with st := .ready, ready := true }
  raiseEvent s Config.srcBoot

/-- READY (R487), once formation is complete. -/
def readyStep (s : State) : State :=
  if s.boot.st = .forming ∧ s.cu.pl = .none ∧ formed s then becomeReady s else s

/-- FORM_WAIT_EXPIRY (R485 step 8, R214). -/
def formWaitExpiry (s : State) : State :=
  if s.boot.st = .forming ∧ s.cu.pl = .none ∧ s.boot.formAt.toNat + 1000000 * s.boot.formWait ≤ s.now.toNat then becomeReady s
  else s

/-! ### Updates of the inactive slot (R488, R489) -/

/-- R488: an update command ends. -/
def endUpdate (s : State) (result : Nat) : State :=
  raiseEvent (s.modBoot fun b => { b with updBusy := 0, updResult := result, updData := [] }) Config.srcBoot

/-- R488: an accepted update command begins. -/
def beginUpdate (s : State) (op : Nat) (data : List Byte) : State :=
  s.modBoot fun b => { b with updBusy := op, updResult := 0, vcode := 0, updData := data, updAt := s.now }

/-- DEV_CLAY_UPD_CMD with GO = 1 (R488): 1 ERASE, 2 PROGRAM, 3 VERIFY. -/
def clayCommand (s : State) (op : Nat) : State :=
  let ofs := fld (s.reg Reg.clayUpdOfs) 24 0
  let len := fld (s.reg Reg.clayUpdLen) 16 0
  let refuse (s : State) (r : Nat) : State := s.modBoot fun b => { b with updResult := r }
  if s.boot.updBusy ≠ 0 ∨ op = 0 ∨ 3 < op then s
  else if bitOf (s.reg Reg.clayCtl) 0 then refuse s 1
  else if op = 1 then (if ofs % 65536 = 0 then beginUpdate s 1 [] else refuse s 2)
  else if op = 3 then beginUpdate s 3 []
  else if ofs % 256 ≠ 0 ∨ len % 256 ≠ 0 ∨ len < 256 ∨ 65536 < len ∨ 0x2000000 < ofs + len then refuse s 2
  else
    let a := (s.reg Reg.clayUpdBufLo).toNat + 2 ^ 32 * fld (s.reg Reg.clayUpdBufHi) 3 0
    match devRead s .scV a len with
    | (s, .error _) => refuse s 3
    | (s, .ok bs) => beginUpdate s 2 bs

/-- R488: what VERIFY finds in a slot: 0, or the code a failed try would give. -/
def verifyFault (s : State) (b : List Byte) : Nat :=
  let h := headerFault s b
  if h ≠ 0 then h
  else if !sectionsOk b then 6
  else if authFault s b ≠ 0 then authFault s b
  else if (sectionsOf b).any fun x => framingErrs x != [] then 7 else 0

/-- CLAY_UPDATE_COMPLETE (R488): the flash answered; for VERIFY, `slot` holds what it read. -/
def clayUpdateComplete (s : State) (ok : Bool) (slot : List Byte) : State :=
  if s.boot.updBusy = 0 then s
  else if !ok then endUpdate s 4
  else if s.boot.updBusy ≠ 3 then endUpdate s 0
  else
    let f := verifyFault s slot
    if f ≠ 0 then endUpdate (s.modBoot fun b => { b with vcode := f }) 5
    else endUpdate (s.modBoot fun b => { b with vseq := imgSeq slot, vhash := identityHash slot }) 0

/-- CLAY_UPDATE_TIMEOUT (R488): 5 s without completion of an ERASE or PROGRAM. -/
def clayUpdateTimeout (s : State) : State :=
  if (s.boot.updBusy = 1 ∨ s.boot.updBusy = 2) ∧ s.boot.updAt.toNat + 5000000000 ≤ s.now.toNat then endUpdate s 4 else s

/-! ### Fuses (R481) -/

/-- R481: the RESULT of a refusal; 0 when the operation is accepted. -/
def fuseRefusal (s : State) (op key svn : Nat) : Nat :=
  let f := s.fuses
  if op = 1 then (if f.lock || (nth none f.keys key).isSome then 1 else 0)
  else if op = 2 then (if keyUsable s (1 - key) then 0 else 2)
  else if op = 3 then (if svn < f.floor ∨ s.boot.svn < svn then 3 else 0)
  else if op = 4 then (if f.keys.all (·.isNone) then 4 else 0)
  else 0

/-- DEV_FUSE_PROG with GO = 1 (R481): 1 KEY, 2 REVOKE, 3 SVN, 4 LOCK. -/
def fuseCommand (s : State) (op key svn : Nat) : State :=
  if s.fuses.busy ∨ op = 0 ∨ 4 < op then s
  else
    let r := fuseRefusal s op key svn
    if r ≠ 0 then s.modFuses fun f => { f with result := r }
    else s.modFuses fun f => { f with
      busy := true, result := 0, op := (op, key, svn), data := (List.range 8).map fun k => s.reg (Reg.fuseData k) }

/-- FUSE_OPERATION_COMPLETE (R481). -/
def fuseOperationComplete (s : State) : State :=
  if !s.fuses.busy then s
  else
    let op := s.fuses.op.1
    let key := s.fuses.op.2.1
    s.modFuses fun f => { f with
      busy := false
      keys := if op = 1 then f.keys.set key (some f.data) else f.keys
      revoked := if op = 2 then f.revoked.set key true else f.revoked
      floor := if op = 3 then f.op.2.2 else f.floor
      lock := f.lock || op == 4 }

end Sys2Proof.Machine
end

