-- ==== Sys2Proof/Machine/Exceptions.lean ====
section
/-! DEFINITION. Taking an exception and returning from one, escalation, lockup, interrupts and the watchdogs of the
supervisor cores (chapter "Core exceptions, interrupts and timing"). -/

namespace Sys2Proof.Machine

/-- R357: the CAUSE register. -/
def causeWord (code orig arg : Nat) : Word := pack [(0, 8, code), (8, 8, orig), (16, 8, arg)]

/-- R359 step 2: what STX receives. -/
def stxWord (x : CoreSt) (cap : Bool) : Word :=
  pack [(0, 1, b2n x.sm), (1, 1, b2n x.dc), (2, 1, if cap then 0 else b2n x.lvl), (8, 3, x.mlvl), (11, 1, b2n x.fesc),
    (12, 1, b2n x.hf), (13, 1, b2n x.loopinh)]

/-- R401: under the capability scheme an entry replaces the PCC and c0. -/
def entryAuth (x : CoreSt) : CoreSt :=
  { x with xpcc := x.pcc, pcc := x.epcc, xc0 := nth {} x.c 0, c := setNth x.c 0 x.ec0 }

/-- R359: an entry, in one indivisible sequence; R339: the reservation is lost. -/
def enter (x : CoreSt) (cap : Bool) (code orig arg : Nat) (rax faddr : Word) : CoreSt :=
  let x := { x with
    rax := rax, faddr := faddr, cause := causeWord code orig arg, stx := stxWord x cap, mlvl := 7, fesc := true,
    loopinh := true, hf := x.hf || code == 0x18, rsv := none }
  let x := if cap then entryAuth x else { x with lvl := true }
  { x with pc := x.evbase }

/-- R360: the return from an exception; R339: the reservation is lost. -/
def leave (x : CoreSt) (cap : Bool) : CoreSt :=
  let t := x.stx
  let x := { x with
    sm := bitOf t 0, dc := bitOf t 1, mlvl := fld t 10 8, fesc := bitOf t 11, hf := bitOf t 12, loopinh := bitOf t 13,
    pc := x.rax, rsv := none }
  if cap then { x with pcc := x.xpcc, c := setNth x.c 0 x.xc0 } else { x with lvl := bitOf t 2 }

/-- Supervisor core k (0 SC-S, 1 SC-V) is at work: it left reset and is not locked. -/
def scRuns (s : State) (k : Nat) : Bool := (s.core (64 + k)).run && !(s.sc k).locked

/-- R365: CORE_LOCK_n is low while a core is locked. -/
def coreLockLow (s : State) : Bool := s.scS.locked || s.scV.locked

/-- R365, R366: supervisor core k locks. -/
def lockCore (s : State) (k cause : Nat) (rax faddr : Word) : State :=
  let x := s.core (64 + k)
  let orig := if x.hf then fld x.cause 7 0 else 0
  let s := s.modSc k fun c => { c with locked := true, lcause := cause, lorig := orig, lockPc := rax, lockFaddr := faddr }
  let s := s.modCore (64 + k) fun x => { x with run := false }
  let s := s.modVote fun v => { v with lock := true }
  if k = 1 then s.modMon fun m => { m with run := false }
  else if voteMode s = 0 then sluiceSweep (safeAll (s.modCu fun c => { c with safeOnly := true }) true)
  else s

/-- R364, R365, R359: a fault raised on supervisor core k enters, escalates or locks. -/
def scFault (s : State) (k code arg : Nat) (rax faddr : Word) : State :=
  if !scRuns s k then s
  else
    let x := s.core (64 + k)
    if x.hf then lockCore s k code rax faddr
    else
      let cap := schemeCap s x.world
      let hard := x.fesc
      let s := s.modSc k fun c => { c with
        faults := satInc 0xFFFF c.faults, hard := if hard then satInc 255 c.hard else c.hard }
      s.modCore (64 + k) fun x => enter x cap (if hard then 0x18 else code) (if hard then code else 0) arg rax faddr

/-- INTERRUPT_TAKE (R363, R369): the presented request enters when its level is above MASK.LVL. -/
def interruptTake (s : State) (k : Nat) : State :=
  match presented s k with
  | none => s
  | some l =>
    let x := s.core (64 + k)
    if !scRuns s k || decide (l ≤ x.mlvl) then s
    else
      let cap := schemeCap s x.world
      s.modCore (64 + k) fun x => enter x cap (0x20 + l) 0 0 x.pc 0

/-- R367: an expiry of the supervisor watchdog of core k: cause 0x16 ARG 2, or a lock when EXPIRED is 1. -/
def wdogExpire (s : State) (k : Nat) : State :=
  if !scRuns s k then s
  else
    let pc := (s.core (64 + k)).pc
    if (s.sc k).expired then lockCore s k 0x16 pc 0
    else scFault (s.modSc k fun c => { c with expired := true, kick := s.now }) k 0x16 2 pc 0

/-- SUPERVISOR_WATCHDOG_EXPIRY (R367): the period has run out. -/
def supervisorWatchdogExpiry (s : State) (k : Nat) : State :=
  if wdogEn s k && decide ((s.sc k).kick.toNat + wdogPer s k ≤ s.now.toNat) then wdogExpire s k else s

/-- SC_WDOG_KICK (R367): the key restarts the period and clears EXPIRED; any other value is an expiry. -/
def scWdogKick (s : State) (k : Nat) (v : Word) : State :=
  if fld v 15 0 = 0xA5C3 then s.modSc k fun c => { c with kick := s.now, expired := false } else wdogExpire s k

end Sys2Proof.Machine
end

