-- ==== Sys2Proof/Machine/Registers.lean ====
section
/-! DEFINITION. What a register write does (the field tables of every chapter, R8, R10, R541). -/

namespace Sys2Proof.Machine

/-! ### Plain registers -/

/-- A field [hi:lo] with a reserved encoding keeps its old value (R10). -/
def keepIf (bad : Bool) (old v : Word) (hi lo : Nat) : Word := if bad then setFld v hi lo (fld old hi lo) else v

/-- The writable bits of a register that holds what is written. -/
def rwMask : RegId → Word
  | .glob o =>
    if o = 0x304 then 0x03FF00FF#32 else if o = 0x308 then 0xFFFFFF#32 else if inWords o 0x330 4 then 0xFFFFFFFF#32
    else if o = 0x400 then 0xFFFF#32 else if o = 0x414 then 0x3FF#32 else if o = 0x420 then 0xFFFFFF00#32
    else if o = 0x424 ∨ o = 0x500 ∨ o = 0x504 then 0xFFFFFFFF#32
    else if inWords o 0x600 66 then 0x9F9F#32 else 0
  | .boot o =>
    if o = 0x1010 then 1#32 else if o = 0x1024 then 0x1FFFFFF#32 else if o = 0x1028 then 0xFFFFFFFF#32
    else if o = 0x102C then 0xF#32 else if o = 0x1030 then 0x1FFFF#32 else if inWords o 0x1070 8 then 0xFFFFFFFF#32 else 0
  | .weir o => if o = 0x4014 then 0x7F#32 else 0
  | .evt o => if o = 0x8010 then 0x7FF#32 else 0
  | .te _ o => if o = 0 then 1#32 else 0
  | .bank _ o => if o = 0 then 0x1FFFFFFF#32 else 0
  | .fdie o => if o = 0 then 0xFF00FF#32 else if o = 0x14 then 0xFFC001#32 else 0
  | .bk _ o => if o = 0x1C then 0xFFFFFF#32 else if o = 0x44 then 0xFFF1FF7#32 else if o = 0x54 then 7#32 else 0
  | .silt o =>
    if o = 0 then 0xFFFF01#32 else if o = 0x34 ∨ o = 0x44 ∨ o = 0x70 then 0xFFFFFFFF#32
    else if o = 0x60 ∨ o = 0x68 then 0xFFFFF000#32 else if o = 0x64 ∨ o = 0x6C then 0xFFFF#32 else 0
  | .dma _ o => if o = 4 ∨ o = 0x14 then 0xFFFFFFFF#32 else if o = 8 then 0xF0F#32 else 0
  | .tb o => if o = 0x104 then 0xFFFF#32 else 0
  | .dbell o =>
    if o = 0 then 0xF1#32 else if o = 8 ∨ o = 0xC then 0xFF0000#32 else if o = 0x10 ∨ o = 0x50 then 0x103FF#32
    else if inWords o 0x200 32 then 0x3FF03FF#32 else if inWords o 0x400 24 then 0xFFFFFFFF#32 else 0
  | _ => 0

/-- R10: a register's fields that hold a reserved encoding keep what they held. -/
def keepReserved (id : RegId) (old v : Word) : Word :=
  match id with
  | .glob o =>
    if inWords o 0x600 66 then keepIf (decide (29 ≤ fld v 4 0)) old (keepIf (decide (29 ≤ fld v 12 8)) old v 12 8) 4 0 else v
  | .weir o => if o = 0x4014 then keepIf (decide (76 ≤ fld v 6 0)) old v 6 0 else v
  | .bk _ o => if o = 0x44 then keepIf (fld v 12 4 == 0 || decide (257 ≤ fld v 12 4)) old v 12 4 else v
  | .dma _ o => if o = 8 then keepIf (decide (fld v 11 8 < 2) || decide (12 < fld v 11 8)) old v 11 8 else v
  | .pin _ o =>
    if o = 0 then keepIf (decide (9 ≤ fld v 3 0)) old v 3 0
    else if o = 8 then keepIf (fld v 26 24 == 7) old v 26 24 else if o = 0xC then keepIf (fld v 23 0 == 0) old v 23 0 else v
  | .bank _ o =>
    if o = 4 then (List.range 8).foldl (fun v k =>
      let x := fld v (4 * k + 3) (4 * k)
      keepIf (decide (9 ≤ x) && decide (x ≤ 14)) old v (4 * k + 3) (4 * k)) v
    else v
  | _ => v

/-- A write to a register that holds what is written: its writable bits take the value. -/
def plainWrite (s : State) (id : RegId) (off : Nat) (v : Word) : State :=
  let m := rwMask id
  let old := s.reg off
  if m = 0 then s else s.setReg off ((old &&& ~~~m) ||| (keepReserved id old v &&& m))

/-- R8, R541: a write to a shadow. -/
def shadowWrite (s : State) (id : RegId) (off : Nat) (mask v : Word) : State :=
  s.setShadow off (keepReserved id (s.shadowReg off) v &&& mask)

/-- R20: WDOG of an island is cleared, and with it the island's bit in DEV_ISL_FAULT. -/
def clearWdog (s : State) (i : Nat) (v : Word) : State := s.modIsland i fun x => { x with wdog := x.wdog && !bitOf v 3 }

/-! ### Halts of a channel core (R521, R522) -/

/-- A device routine runs on TE n's channel core. -/
def teRuns (s : State) (n : Nat) : Bool :=
  (s.te n).running.isSome && !(s.te n).builtin && (s.core n).run

/-- R521: a halt request: at this instruction boundary, or before the first instruction of the next routine. -/
def dbgHalt (s : State) (n : Nat) : State :=
  if (s.dbg n).halted then s
  else if teRuns s n then haltCore s n 1
  else s.modDbg n fun d => { d with haltReq := true }

/-- R522: the halt is released. -/
def dbgResume (s : State) (n : Nat) : State :=
  if (s.dbg n).halted then s.modDbg n fun d => { d with halted := false, passed := true } else s

/-- R522: one instruction is to be executed, then the core halts again. -/
def dbgStep (s : State) (n : Nat) : State :=
  if (s.dbg n).halted then s.modDbg n fun d => { d with halted := false, passed := true, step := true } else s

/-- TE_DBG_CTL: BRK_EN and BKPT_EN take their values; RESUME, STEP and HALT act. -/
def dbgCtlWrite (s : State) (n : Nat) (v : Word) : State :=
  let s := s.modDbg n fun d => { d with brkEn := bitOf v 3, bkptEn := BitVec.ofNat 2 (fld v 5 4) }
  let s := if bitOf v 1 then dbgResume s n else s
  let s := if bitOf v 2 then dbgStep s n else s
  if bitOf v 0 then dbgHalt s n else s

/-! ### Block by block -/

def globWrite (s : State) (who : Initiator) (o : Nat) (v : Word) : State :=
  if inWords o 0x200 36 then clearWdog s (176 + (o - 0x200) / 4) v
  else if o = 0x320 then (if bitOf v 31 then devTeRetire s (fld v 5 0) else s)
  else if o = 0x324 then (if bitOf v 31 then devMigrate s (fld v 11 0) (fld v 17 12) else s)
  else if o = 0x340 then (if bitOf v 31 then devDispCmd s (fld v 13 8) (fld v 7 0) else s)
  else if o = 0x40C then (if bitOf v 31 then devReset s (fld v 1 0) else s)
  else if o = 0x410 then s.modCu fun c => { c with basinUnverified := c.basinUnverified && !bitOf v 2 }
  else if o = 0x428 then (if bitOf v 31 then s.modMemErrs fun e => { e with ueValid := false, ueCount := 0 } else s)
  else if o = 0x508 then
    let m := if initWorld s who = .safety then 3#32 else 2#32
    s.setReg o ((s.reg o &&& ~~~m) ||| (v &&& m))
  else if o = 0x808 then s.modHost fun h => { h with
    cto := fld v 7 0, urca := fld v 15 8, poison := fld v 23 16, caTx := fld v 31 24 }
  else if o = 0x80C ∨ o = 0x810 then s.modHostFn ((o - 0x80C) / 4) fun f => { f with
    filtered := fld v 15 0, dropped := fld v 31 16 }
  else plainWrite s (.glob o) o v

def bootWrite (s : State) (o : Nat) (v : Word) : State :=
  if o = 0x1020 then (if bitOf v 31 then clayCommand s (fld v 1 0) else s)
  else if o = 0x1064 then (if bitOf v 31 then fuseCommand s (fld v 2 0) (fld v 3 3) (fld v 9 4) else s)
  else plainWrite s (.boot o) o v

def leveeWrite (s : State) (o : Nat) (v : Word) : State :=
  if o < 0x2400 then shadowWrite s (.levee o) o (if o % 16 = 8 then 0xFFFF#32 else 0xFFFFFF#32) v
  else if o = 0x2404 then (if bitOf v 0 then leveeCommit s else s)
  else if o = 0x240C then s.modLevee fun l => { l with log := setBit l.log 31 (bitOf l.log 31 && !bitOf v 31) }
  else if o = 0x2418 then s.modLevee fun l => { l with refuseCnt := v }
  else if o = 0x2424 then (if bitOf v 31 then leveeRevoke s (fld v 11 0) else s)
  else s

def weirWrite (s : State) (o : Nat) (v : Word) : State :=
  if o = 0x4000 then shadowWrite s (.weir o) o 0xFF#32 v
  else if o = 0x4004 then shadowWrite s (.weir o) o 0x1FFFF#32 v
  else if 0x4100 ≤ o then shadowWrite s (.weir o) o 0xFFFFFFFF#32 v
  else if o = 0x4008 then (if bitOf v 0 then weirCommit s else s)
  else plainWrite s (.weir o) o v

def evtWrite (s : State) (who : Initiator) (o : Nat) (v : Word) : State :=
  if o = 0x8000 then evalTargets (s.modEv fun e => { e with en := bitOf v 0 })
  else if o = 0x8004 then s.modEv fun e => { e with ovfSeen := e.ovfSeen && !bitOf v 0, doneErr := e.doneErr && !bitOf v 1 }
  else if o = 0x8008 then raiseEvent s (fld v 10 0)
  else if o = 0x800C then s.modEv fun e => { e with refuse := v.toNat }
  else if inWords o 0x8020 4 then
    evalTargets (s.modEv fun e => { e with split := setNth e.split ((o - 0x8020) / 4) (fld v 2 0) })
  else if inWords o 0x8040 4 then complete s who ((o - 0x8040) / 4) (fld v 10 0)
  else plainWrite s (.evt o) o v

def mbxWrite (s : State) (ch : Nat) (e : Bool) (o : Nat) (v : Word) : State :=
  if o = 0 then (mbxTx s ch e v).1
  else if o = 8 then mbxStatWrite s ch e v
  else if o = 0xC then s.modMb ch e fun x => { x with db := x.db &&& ~~~v }
  else if o = 0x10 then mbxDbMask s ch e v
  else if o = 0x14 then mbxDbSet s ch e v
  else if o = 0x18 then mbxAckTx s ch e v
  else if o = 0x20 then s.modMb ch e fun x => { x with ie := fld v 3 0 }
  else if o = 0x24 then mbxReset s ch e v
  else s

def teWrite (s : State) (n o : Nat) (v : Word) : State :=
  if o = 0x10 then teDispInval s n (fld v 13 8) (fld v 7 0) (bitOf v 30) (bitOf v 31)
  else if o = 0x24 then (if bitOf v 31 then s.modTe n fun t => { t with hwm := 0 } else s)
  else if o = 0x34 then (if bitOf v 7 then s.modTe n fun t => { t with sbOvf := false, sbHwm := 0 } else s)
  else if o = 0x40 then dbgCtlWrite s n v
  else if o = 0x48 ∨ o = 0x4C then s.modDbg n fun d => { d with bkpt := setNth d.bkpt ((o - 0x48) / 4) (v &&& 0x7FFFFE#32) }
  else if o = 0x50 then s.modDbg n fun d => { d with traceEn := bitOf v 0, traceBranch := bitOf v 1, traceExc := bitOf v 2 }
  else if o = 0xFC then clearWdog s n v
  else plainWrite s (.te n o) (Reg.teCtl n + o) v

/-- The writable bits of a pin's shadows. -/
def pinMask (o : Nat) : Word :=
  if o = 0 then 0x3FFFFFFF#32 else if o = 4 then 0xFFFF01FF#32 else if o = 8 then 0x1FFFFF7F#32
  else if o = 0xC then 0xFFFFFFFF#32 else if o = 0x10 then 0x7FFFFFF#32 else 0xFF7F7F#32

def pinWrite (s : State) (n o : Nat) (v : Word) : State :=
  if o ≤ 0x10 ∨ o = 0x20 then shadowWrite s (.pin n o) (Reg.pinCfg n + o) (pinMask o) v
  else if o = 0x1C then s.modPin n fun p => { p with
    sticky := p.sticky &&& ~~~(BitVec.ofNat 7 (fld v 14 8)), supp := p.supp &&& ~~~(BitVec.ofNat 7 (fld v 22 16)),
    count := fld v 31 24 }
  else if o = 0x28 then (if bitOf v 0 then pinRecfg s n (bitOf v 1) (bitOf v 2) else s)
  else if o = 0x2C then clearWdog s (64 + n) v
  else s

def bankWrite (s : State) (b o : Nat) (v : Word) : State :=
  if o = 4 then shadowWrite s (.bank b o) (Reg.bankScan b) 0xFFFFFFFF#32 v
  else if o = 8 then
    let s := if bitOf v 0 then scanGo s b else if bitOf v 1 then s.modBank b fun x => { x with result := 0 } else s
    if bitOf v 1 then calGo s b else s
  else if o = 0x20 then
    if bitOf v 31 then s.modBank b fun x => { x with
      firstPin := 0, firstKind := 0, firstCount := 0, firstOvf := false, firstValid := false, firstTime := 0 }
    else s
  else plainWrite s (.bank b o) (Reg.bankCtl b + o) v

def fdieWrite (s : State) (o : Nat) (v : Word) : State :=
  if o = 4 then s.modFd fun f => { f with cc := { f.cc with seen := f.cc.seen && !bitOf v 31 } }
  else if o = 0x10 then s.modFd fun f => { f with ccSupp := v.toNat }
  else if o = 0x1C then s.modFd fun f => { f with stormDrop := v.toNat }
  else if o = 0x14 then
    let old := s.reg Reg.pinStormBase
    plainWrite s (.fdie o) Reg.pinStormBase (keepIf (bitOf old 0) old v 23 14)
  else plainWrite s (.fdie o) (Reg.pinCcCtl + o) v

def bkWrite (s : State) (k o : Nat) (v : Word) : State :=
  if o = 4 then
    let s := bkEnable s k (bitOf v 0)
    let s := if bitOf v 1 then bkRetrain s k else s
    let s := if bitOf v 2 then bkCntClr s k else s
    bkPosReset s k (fld v 15 8)
  else if o = 0x10 then s.modBk k fun b => { b with attn := b.attn &&& (0xFF - fld v 7 0) }
  else if o = 0x38 then s.modBk k fun b => { b with last := { b.last with valid := b.last.valid && !bitOf v 31 } }
  else if o = 0x4C then bkTxdata s k v
  else if o = 0x5C then clearWdog s (160 + k) v
  else plainWrite s (.bk k o) (Reg.bkCfg k + o) v

def voteWrite (s : State) (o : Nat) (v : Word) : State :=
  if o = 8 then
    let s := if bitOf v 0 then leaveEffect s else s
    if bitOf v 1 then startRejoin s else s
  else if o = 0x40 then s.modVote fun u => { u with exclLog := setBit u.exclLog 31 (bitOf u.exclLog 31 && !bitOf v 31) }
  else s

def siltWrite (s : State) (o : Nat) (v : Word) : State :=
  let ring (w : World) (arg : Nat) : State :=
    let r := fld v 7 0
    let op := fld v 9 8
    if !bitOf v 31 then s
    else if op = 1 then ringRelease s w r (s.reg arg)
    else if op = 2 then ringEnable s w r
    else if op = 3 then ringDisable s w r
    else s
  if o = 0x30 then ring .safety Reg.siltRingArgS
  else if o = 0x40 then ring .service Reg.siltRingArgV
  else if o = 0x74 then
    let s := s.modSilt fun x => { x with copy := { x.copy with done := x.copy.done && !bitOf v 2 } }
    if bitOf v 0 then siltCopyGo s else s
  else plainWrite s (.silt o) (Reg.siltCtl + o) v

def drvWrite (s : State) (d o : Nat) (v : Word) : State :=
  if o = 4 then
    if !bitOf v 31 then s
    else if fld v 1 0 = 1 then driveReset s d
    else if fld v 1 0 = 2 then driveAdopt s d
    else if fld v 1 0 = 3 then driveRemove s d
    else s
  else if o = 0x14 then s.modDrv d fun x => { x with
    errTmo := fld v 7 0, errStatus := fld v 15 8, aerCor := fld v 23 16, aerUnc := fld v 31 24 }
  else s

/-- DMA_CH_CFG: the other fields, and the ring registers, are written only while EN is 0. -/
def dmaWrite (s : State) (c o : Nat) (v : Word) : State :=
  let cfg := s.reg (Reg.dmaChCfg c)
  let en := bitOf cfg 0
  if o = 0 then
    let new := if en then cfg else setFld (setFld cfg 3 2 (fld v 3 2)) 11 4 (if 129 ≤ fld v 11 4 then fld cfg 11 4 else fld v 11 4)
    dmaEnable (s.setReg (Reg.dmaChCfg c) (setBit new 0 (bitOf v 0))) c (bitOf v 0)
  else if o = 4 ∨ o = 8 then (if en then s else plainWrite s (.dma c o) (Reg.dmaChCfg c + o) v)
  else if o = 0xC then dmaChTail s c (fld v 11 0)
  else if o = 0x10 then
    (if bitOf v 15 then s.modDch c fun x => { x with badSeen := false, badCnt := 0 } else s)
  else if o = 0x18 then
    let s := if bitOf v 0 then dmaResume s c else s
    if bitOf v 1 then dmaAbort s c else s
  else plainWrite s (.dma c o) (Reg.dmaChCfg c + o) v

def tbWrite (s : State) (o : Nat) (v : Word) : State :=
  if o = 0x104 then (if fld v 15 8 < fld v 7 0 then s else plainWrite s (.tb o) Reg.devThermCfg v)
  else if o = 0x114 then s.modSupply fun u => { u with
    clampSeen := u.clampSeen && !bitOf v 0, clampOpen := u.clampOpen && !bitOf v 1,
    thermShut := u.thermShut && !bitOf v 2, plossSeen := u.plossSeen && !bitOf v 3 }
  else s

def monWrite (s : State) (o : Nat) (v : Word) : State :=
  if o = 0 then s.modMon fun m => { m with sWrite := bitOf v 0 }
  else if o = 8 then s.modMon fun m => { m with sel := keepIf (decide (53 ≤ fld v 13 8)) m.sel v 13 8 &&& 0x3F3F#32 }
  else s

def dbellWrite (s : State) (who : Initiator) (o : Nat) (v : Word) : State :=
  let cmd (w : World) : State :=
    if fld v 1 0 = 1 then queueEnable s w else if fld v 1 0 = 2 then queueDisable s w
    else if fld v 1 0 = 3 then queueRestart s w else s
  if o = 8 ∨ o = 0xC then (if bitOf (s.reg Reg.dbellCtl) 0 then s else plainWrite s (.dbell o) (Reg.dbellCtl + o) v)
  else if o = 0x14 then cmd .safety
  else if o = 0x54 then cmd .service
  else if o = 0x20 then s.modQ fun q => { q with errLog := setBit q.errLog 11 (bitOf q.errLog 11 && !bitOf v 11) }
  else if o = 0x30 then (if bitOf v 31 then dbellReachReset s (initWorld s who) (fld v 20 16) (fld v 15 0) (bitOf v 21) else s)
  else if o = 0x100 then coreBell s (fld v 9 0) false
  else if o = 0x104 then coreBell s (fld v 9 0) true
  else if inWords o 0x300 32 then s.modReach ((o - 0x300) / 4) fun r => { r with staleCnt := fld v 23 0 }
  else plainWrite s (.dbell o) (Reg.dbellCtl + o) v

/-- R8: the effect of a register write that is not refused; an offset that names no register ignores it (R536). -/
def regEffect (s : State) (who : Initiator) (off : Nat) (v : Word) : State :=
  match regAt off with
  | .none => s
  | .glob o => globWrite s who o v
  | .boot o => bootWrite s o v
  | .levee o => leveeWrite s o v
  | .weir o => weirWrite s o v
  | .evt o => evtWrite s who o v
  | .evtSrc n => evSrcWrite s n v
  | .mbx ch e o => mbxWrite s ch e o v
  | .te n o => teWrite s n o v
  | .pin n o => pinWrite s n o v
  | .bank b o => bankWrite s b o v
  | .fdie o => fdieWrite s o v
  | .bk k o => bkWrite s k o v
  | .vote o => voteWrite s o v
  | .cfl k o => if o = 0 ∧ bitOf v 1 then cflRetrain s k else s
  | .silt o => siltWrite s o v
  | .drv d o => drvWrite s d o v
  | .dma c o => dmaWrite s c o v
  | .tb o => tbWrite s o v
  | .sc k o => if o = 0x10 then scWdogKick s k v else s
  | .mon o => monWrite s o v
  | .dbell o => dbellWrite s who o v

end Sys2Proof.Machine
end

