-- ==== Sys2Proof/Machine/Commit.lean ====
section
/-! DEFINITION. Commit requests, acceptance, the commit sequence, rollback, commit-unit faults (chapter "Commit points and
recovery"). -/

namespace Sys2Proof.Machine

/-! ### The checks of a commit request (R564) -/

/-- The subchannel that owns an output target. -/
def tgtOwner (s : State) (t : Nat) : Option Nat := if tgtBrook t then brookOwner s (tgtNum t) else pinOwner s (tgtNum t)

/-- R52: the target exists as an output and the value suits it. -/
def entryValidOut (s : State) (e : Nat × Nat) : Bool :=
  if tgtBrook e.1 then brookIsOutput s (tgtNum e.1) && decide (e.2 ≤ 1)
  else
    let n := tgtNum e.1
    decide (n < 96) && isOutMode (pinMode s n) && (pinMode s n == modePWM || decide (e.2 ≤ 1))

/-- No target appears twice. -/
def noRepeat : List (Nat × Nat) → Bool
  | [] => true
  | e :: es => !(es.any fun x => x.1 == e.1) && noRepeat es

/-- R54: the effects that move away from the safe state. -/
def awayOf (s : State) (outs : List (Nat × Nat)) : List (Nat × Nat) := outs.filter fun e => !towardSafe s e

/-- R214, R258, R366, R480: the ending of a member that may not release a move away from the safe state. -/
def moveFault (s : State) : Option Ending :=
  if s.cu.safeOnly || s.unprov then some { cstat := csVoteFault, detail := 0x0B03 }
  else if voteMode s = 0 then none
  else match s.vote.st with
  | .inService | .standby => none
  | .down | .forming => some { cstat := csVoteTimeout, detail := 0x0B02 }
  | .excluded | .rejoining => some { cstat := csVoteFault, detail := 0x0B03 }

/-- R111, R112: a held doorbell write fails its checks. -/
def bellFails (s : State) (n : Nat) (r : Nat × Word) : Bool :=
  let b := s.sub n
  let k := fld r.2 9 0
  if r.1 = Reg.dbellCoreSq then
    let q := s.sq k
    !(q.st == .enabled && q.desc.world == b.attr.world && q.desc.reach == b.attr.reach)
  else if r.1 = Reg.dbellCoreCq then
    let q := s.ring k
    !(q.st == .enabled && q.desc.world == b.attr.world && q.desc.reach == b.attr.reach)
  else false

/-- R564: the first check that the effects of a command fail; `ovf` tells that the output image overflowed (R355). -/
def commitFault (s : State) (n : Nat) (h : Held) (ovf : Bool) : State × Option Ending :=
  let b := s.sub n
  let away := awayOf s h.outs
  if ovf || decide (1024 < h.outs.length) then (s, some (progCheck 0x010D))
  else if !(h.outs.all (entryValidOut s)) || !noRepeat h.outs then (s, some (progCheck 0x010B))
  else if h.outs.any fun e => tgtOwner s e.1 != some n then (s, some (protCheck 0x0402))
  else if b.attr.world == .service && h.outs.any (fun e => !tgtBrook e.1 && pinSafety s (tgtNum e.1)) then
    (s, some (protCheck 0x0403))
  else if away != [] && !b.prog.first.vot then (s, some (progCheck 0x0109))
  else
    let (s, e) := brookStateFault s n h.outs
    if e.isSome then (s, e)
    else if h.regs.any (bellFails s n) then (s, some (protCheck 0x0401))
    else (s, if away != [] then moveFault s else none)

/-! ### Rollback (R253 to R256) -/

/-- R253 step 3: the data area is staged in again; a read that fails ends the program as it would have at first (R81). -/
def restage (s : State) (n : Nat) : State :=
  let b := s.sub n
  match b.prog.stage with
  | none => s
  | some (buf, _) =>
    if entryStageIn (lookupEntry s n b.prog.first.code) then
      match readSegs b.prog.work.segs s n with
      | (s, bs, none) => pokeMem s (loamDataAt b.attr.owner + buf) bs
      | (s, _, some e) => endProgram (freeDirect s n) n 0x01 e
    else s

/-- R253, R257: the held effects and the status of the discarded execution are dropped, and the command is dispatched again,
ahead of every waiting one, on the data area as it was read; a DRIVE keeps the channel end of its pattern (R55). -/
def rollback (s : State) (n : Nat) : State :=
  let te := (s.sub n).attr.owner
  let s := s.modTe te fun t => { t with rerun := n :: t.rerun }
  let s := if (s.te te).running = some n then coreFree s te else s
  let s := s.modSub n fun b =>
    let w := b.prog.work
    { b with mover := if b.prog.phase == .stageOut then b.mover.dropLast else b.mover, prog := { b.prog with
      phase := .waitCore, again := true, held := {}, after := none, detail := 0,
      dstat := if b.prog.first.code = 0x10 then b.prog.dstat &&& dsChannelEnd else 0,
      work := if b.prog.first.code = 0x13 then { left := w.olen / 2, olen := w.olen, segs := w.segs }
        else { bytes := w.bytes, segs := w.segs } } }
  restage s n

/-- R258: a member of a composite in service or standby. -/
def inComposite (s : State) : Bool := (s.vote.st == .inService && voteMode s != 0) || s.vote.st == .standby

/-- R258 in SIMPLEX or an excluded member: every output safe, only safe moves from now on; FAILED and its source. -/
def commitUnitFailed (s : State) (torn : Bool) : State :=
  let s := s.modCu fun c => { c with failed := true, torn := c.torn || torn }
  let s := raiseEvent s Config.srcCommit
  if inComposite s then excludeSelf s 3 0
  else safeAll (s.modCu fun c => { c with safeOnly := true }) true

/-- R254, R255: a fault that counts as a retry; `teFault` tells a TE fault from a commit-unit fault. -/
def retryFault (s : State) (n : Nat) (teFault : Bool) : State :=
  let te := (s.sub n).attr.owner
  let s := s.modSub n fun b => { b with prog := { b.prog with retries := b.prog.retries ++ [teFault] } }
  let tries := (s.sub n).prog.retries
  if (s.sub n).st = .fenced then
    endFenced (freeDirect (if (s.te te).running = some n then coreFree s te else s) n) n
  else if tries.length < 3 then
    rollback (s.modTe te fun t => { t with rollbacks := satInc 0xFFFF t.rollbacks }) n
  else
    let s := if (s.te te).running = some n then coreFree s te else s
    if tries.any id then
      let s := endProgram (freeDirect s n) n 0x01 (ctrlCheck 0x0507)
      retireTe s te
    else
      let s := commitUnitFailed s false
      endProgram (freeDirect s n) n 0x01 { cstat := csVoteFault, detail := 0x0B03 }

/-- R250: CONFLICT_MAX, where 0 means 1. -/
def conflictMax (s : State) : Nat :=
  let v := fld (s.reg Reg.devRecovCtl) 15 8
  if v = 0 then 1 else v

/-- R250: a lost reservation rolls the command back without counting as a retry, up to CONFLICT_MAX times. -/
def conflict (s : State) (n : Nat) : State :=
  let te := (s.sub n).attr.owner
  let k := (s.sub n).prog.conflicts
  if conflictMax s ≤ k then endProgram (freeDirect (coreFree s te) n) n 0x01 (unitCheck 0x0312)
  else
    let s := s.modTe te fun t => { t with conflicts := satInc 255 t.conflicts }
    let s := s.modSub n fun b => { b with prog := { b.prog with conflicts := k + 1 } }
    rollback s n

/-- R253, R255: the command completed: the recovered flag, and the recovered rollbacks of the window. -/
def markRecovered (s : State) (n : Nat) : State :=
  let p := (s.sub n).prog
  if p.retries = [] ∧ p.conflicts = 0 then s
  else
    let s := s.modSub n fun b => { b with prog := { b.prog with cstat := b.prog.cstat ||| csRecovered } }
    s.modTe (s.sub n).attr.owner fun t => { t with recovWin := satAdd 255 t.recovWin p.retries.length }

/-! ### Request and acceptance (R251) -/

/-- A held store writes bytes of the granule. -/
def storesTo (e : SbEntry) (g : Nat) : Bool :=
  e.blk == g / 32 * 32 && (List.range 16).any fun i => bitOf e.mask (g % 32 + i)

/-- R250, R252: a reservation is also lost when a commit accepted before and not yet applied writes its granule. -/
def queuedWrites (s : State) (g : Nat) : Bool := s.cu.queue.any fun m => (s.sub m).prog.held.stores.any fun e => storesTo e g

/-- R250: another command has its SC of the granule validated and not yet applied: the granule is locked for it. -/
def lockedBy (s : State) (n g : Nat) : Bool :=
  s.subs.any fun x => x.1 != n && (x.2.prog.phase == .stageOut || x.2.prog.phase == .commitReq || x.2.prog.phase == .accepted)
    && x.2.prog.held.rsv.any fun r => r.scDone && r.granule == g

/-- R251 steps 1 and 2: the commit request of the command that runs on the core. -/
def commitRequest (s : State) (n : Nat) : State :=
  let te := (s.sub n).attr.owner
  let h := (s.te te).held
  let out := (s.te te).stageOut
  let ovf := (s.te te).fiOvf
  let s := s.modTe te fun t => { t with sbHwm := Nat.max t.sbHwm (heldUsed h) }
  let s := s.modSub n fun b => { b with prog := { b.prog with lastReq := some (posAddr b.prog.op b.prog.pos) } }
  if (s.sub n).st = .fenced then endFenced (coreFree (freeDirect s n) te) n
  else
    let (s, bad) := commitFault s n h ovf
    match bad with
    | some e => endProgram (freeDirect (coreFree s te) n) n 0x01 e
    | none =>
      if h.rsv.any fun r => r.scDone && (r.lost || queuedWrites s r.granule || lockedBy s n r.granule) then conflict s n
      else
        let s := coreFree s te
        let s := if out && (s.sub n).prog.stage.isSome then moverBegins s n else s
        s.modSub n fun b => { b with prog := { b.prog with
          held := h, phase := if out && b.prog.stage.isSome then .stageOut else .commitReq } }

/-- The digest key of the command that commits (R218). -/
def voteKey (s : State) (n : Nat) : VKey :=
  let b := s.sub n
  { sub := n, gen := b.gen.toNat, world := b.attr.world, aslot := b.aslot.toNat }

/-- COMMIT_ACCEPT (R251 step 4, R53, R215 to R219, R228, R229, R237). -/
def commitAccept (s : State) (n : Nat) : State :=
  let b := s.sub n
  let outs := b.prog.held.outs
  let away := awayOf s outs
  let heldNow := match s.vote.hold with
    | some c => decide (cycNow s < c)
    | none => false
  let voted := away != [] && voteMode s != 0
  if b.prog.phase ≠ .commitReq || s.cu.pl != .none || heldNow || (voted && decide (256 ≤ openVotes s)) then s
  else match (if away = [] then none else moveFault s) with
  | some e => endProgram (freeDirect s n) n 0x01 e
  | none =>
    let s := s.modCu fun c => { c with queue := c.queue ++ [n] }
    let s := s.modSub n fun b => { b with prog := { b.prog with phase := .accepted, committed := true, direct := [] } }
    let s := (outs.filter (towardSafe s)).foldl (fun s e => driveSafe s e.1) s
    if away = [] then s
    else
      let key := voteKey s n
      let s := s.modSub n fun b => { b with aslot := b.aslot + 1 }
      let s := s.setSluice (tset s.sluice n { entries := away, targets := away.map (·.1) })
      if voteMode s = 0 then releaseImage s n
      else openVote s key (digestValue key b.prog.op.tag outs)

/-! ### Stores, signals, status (R251 steps 5 to 7) -/

/-- The store writes every byte of unit g. -/
def coversUnit (s : State) (e : SbEntry) (g : Nat) : Bool :=
  decide (e.blk ≤ g) && decide (g < e.blk + 32) && (List.range (errUnit s g)).all fun i => bitOf e.mask (g - e.blk + i)

/-- R254, R449: byte i of a held block lies in a unit in error that the store does not cover in full: it is not written. -/
def byteRefused (s : State) (e : SbEntry) (i : Nat) : Bool :=
  s.ue.any fun g => decide (g ≤ e.blk + i) && decide (e.blk + i < g + errUnit s g) && !coversUnit s e g

/-- R254: some of the held store is refused. -/
def storeRefused (s : State) (e : SbEntry) : Bool := (List.range 32).any fun i => bitOf e.mask i && byteRefused s e i

/-- R250: other commits' validated granules are locked: the store lands there after them. -/
def yieldStore (s : State) (e : SbEntry) : State :=
  foldN 32 (fun s i => if bitOf e.mask i then yieldLocked s (e.blk + i) 1 else s) s

/-- R248, R251 step 5: one held block is written, with its tags, but for what R254 refuses. -/
def applyStore (s : State) (e : SbEntry) : State :=
  let ok (i : Nat) : Bool := bitOf e.mask i && !byteRefused s e i
  let healed := s.ue.filter fun g => !coversUnit s e g
  let s := yieldStore s e
  let s := foldN 32 (fun s i => if ok i then pokeRaw s none (e.blk + i) [nth 0 e.data i] else s) s
  let s := foldN 2 (fun s g => if bitOf e.tags g && ok (16 * g) then s.setTag (e.blk + 16 * g) true else s) s
  { s with ue := healed }

/-- R258: a torn step 5: each byte of the held stores holds its new or its old value. -/
def tearStore (s : State) (e : SbEntry) : State :=
  foldN 32 (fun s i =>
    if bitOf e.mask i then
      let (s, v) := s.free
      if bitOf v 0 then pokeRaw s none (e.blk + i) [nth 0 e.data i] else s
    else s) s

/-- R251 step 6: one held register store takes effect; doorbells were checked at the request. -/
def releaseReg (s : State) (n : Nat) (r : Nat × Word) : State :=
  if r.1 = Reg.dbellCoreSq then wantTail s (fld r.2 9 0)
  else if r.1 = Reg.dbellCoreCq then wantHead s (fld r.2 9 0)
  else regEffect s (.seq (Fin.ofNat 4096 n)) r.1 r.2

/-- R251 steps 5 and 6, R252: the stores and signals of the oldest accepted commit, which leaves the queue. -/
def applyCommit (s : State) (n : Nat) : State :=
  let h := (s.sub n).prog.held
  let s := h.stores.foldl applyStore s
  let s := h.regs.foldl (fun s r => releaseReg s n r) s
  let s := h.events.foldl raiseEvent s
  let s := match h.mark with
    | some (ring, seq) => releaseMark s ring seq
    | none => s
  s.modCu fun c => { c with
    queue := c.queue.drop 1, cnt := c.cnt + 1,
    plLast := if c.pl = .none then c.plLast else s.now, plCommits := if c.pl = .none then c.plCommits else c.plCommits + 1 }

/-- COMMIT_STORES_COMPLETE (R251 steps 5 to 7, R252): the oldest accepted commit. -/
def commitStoresComplete (s : State) (n : Nat) : State :=
  if s.cu.queue.head? ≠ some n then s
  else
    let bad := (s.sub n).prog.held.stores.any (storeRefused s)
    let s := markRecovered (applyCommit s n) n
    let b := s.sub n
    let d := b.prog.detail
    if bad then endCommitted s n csData 0 0x0601
    else if !b.resident then endNow s n 0x01 (ctrlCheck 0x0507)
    else if b.st = .fenced then endFenced (s.modSub n fun b => { b with prog := { b.prog with ctime := s.now } }) n
    else match b.prog.after with
    | some (c, ds, x) => endCommitted s n c ds (if x = 0 then d else x)
    | none =>
      if (imageOf s n).isSome then
        (atCommit s n 0 0).modSub n fun b => { b with prog := { b.prog with phase := .sluice } }
      else if b.prog.work.seq.isSome then
        (atCommit s n 0 0).modSub n fun b => { b with prog := { b.prog with phase := .archive } }
      else endCommitted s n 0 0 d

/-- RETRY_WINDOW (R255): the window of 1 s closes. -/
def retryWindow (s : State) : State :=
  if s.now.toNat < s.cu.retryAt.toNat + 1000000000 then s
  else (foldN 64 (fun s te => s.modTe te fun t => { t with recovWin := 0 }) s).modCu fun c => { c with retryAt := s.now }

/-- R255: RETRY_WIN_MAX is reached at a command boundary. -/
def retryWinCheck (s : State) (te : Nat) : State :=
  let m := fld (s.reg Reg.devRecovCtl) 7 0
  if m ≠ 0 ∧ m ≤ (s.te te).recovWin then retireTe s te else s

/-- COMMAND_END with R159 and R255: a command of the channel core counts as completed, and the TE may be retired at the
boundary. -/
def commandEndRow (s : State) (n : Nat) : State :=
  let b := s.sub n
  let te := b.attr.owner
  if b.prog.phase ≠ .deviceEnd then commandEnd s n
  else
    let code := b.prog.first.code
    let s := if fieldCode code || routineCode code then
        s.modTe te fun t => { t with cmdCnt := t.cmdCnt + 1, winCnt := satInc 0xFFFFFF t.winCnt }
      else s
    retryWinCheck (commandEnd s n) te

/-- R254: the command's stage-out has been done, so its data area is rewritten. -/
def stagedOut (s : State) (n : Nat) : Bool :=
  let p := (s.sub n).prog
  p.phase == .commitReq && p.stage.isSome && entryStageOut (lookupEntry s n p.first.code)

/-- R258: the command of a commit that a commit-unit fault meets, or whose stores a torn one before it keeps out. -/
def commitLost (s : State) (n : Nat) : State :=
  let s := (dropImage s n).modSub n fun b => { b with prog := { b.prog with held := {} } }
  let b := s.sub n
  if !b.resident then endNow s n 0x01 (ctrlCheck 0x0507)
  else if b.st = .fenced then endFenced s n
  else deviceEnd s n csVoteFault 0 0x0B03

/-- R254, R255, R258: a check of the commit unit that fails before the point of no return: a rollback, but no rollback once
the data area is rewritten (log entry 35). -/
def commitCheckFails (s : State) (n : Nat) : State :=
  let p := (s.sub n).prog
  if p.phase ≠ .stageOut ∧ p.phase ≠ .commitReq then s
  else
    let s := s.modCu fun c => { c with chk := satInc 255 c.chk }
    if stagedOut s n then endProgram (freeDirect s n) n 0x01 (ctrlCheck 0x0507) else retryFault s n false

/-- R258: step 5 of the oldest commit is torn: its stores are partly applied, and no later commit's stores are (the later
ones end with it, log entry 63). -/
def commitTorn (s : State) (n : Nat) : State :=
  let later := s.cu.queue.drop 1
  let s := (s.sub n).prog.held.stores.foldl tearStore s
  let s := commitUnitFailed (s.modCu fun c => { c with queue := [] }) true
  (n :: later).foldl commitLost s

/-- R258: a fault outside step 5 after the point of no return: a composite's member is excluded and its commits go on; else
the command ends. -/
def commitFails (s : State) (n : Nat) : State :=
  if inComposite s then commitUnitFailed s false
  else commitLost (commitUnitFailed (s.modCu fun c => { c with queue := c.queue.filter (· != n) }) false) n

/-- COMMIT_UNIT_FAULT (R254, R255, R258). Stage 0: a check before the point of no return; 1: before step 5; 2: within
step 5; 3: after it, when the stores and signals of the oldest commit stand. -/
def commitUnitFault (s : State) (n stage : Nat) : State :=
  let head := s.cu.queue.head? == some n
  if stage = 0 then commitCheckFails s n
  else if (s.sub n).prog.phase = .sluice then commitFails s n
  else if stage = 1 then (if s.cu.queue.contains n then commitFails s n else s)
  else if !head then s
  else if stage = 2 then commitTorn s n
  else commitFails (if inComposite s then s else applyCommit s n) n

end Sys2Proof.Machine
end

