-- ==== Sys2Proof/Machine/Transfer.lean ====
section
/-! DEFINITION. The built-in routines of DRIVE, PROVE and SAMPLE, and the commands ARCHIVE and FETCHSTORE (chapters
"Channel programs", "Silt store and DMA engine"). -/

namespace Sys2Proof.Machine

/-! ### Built-in routines (R67, R566) -/

/-- The built-in routine of a field command of subchannel n holds the core of its TE. -/
def builtinRuns (s : State) (n code : Nat) : Bool :=
  let b := s.sub n
  let t := s.te b.attr.owner
  b.prog.phase == .onCore && b.prog.first.code == code && t.builtin && t.running == some n

/-- R153: the dispatch request of a built-in routine. -/
def coreQueue (s : State) (n : Nat) : State :=
  let s := s.modSub n fun b => { b with prog := { b.prog with phase := .waitCore } }
  s.modTe (s.sub n).attr.owner fun t => { t with waitq := t.waitq ++ [n] }

/-- R566: the sequencer and the mover read the data area before the dispatch of a built-in DRIVE or PROVE; `dst` is the device
status that the end of the reading gives. -/
def readThenQueue (s : State) (n : Nat) (rule : Nat → Option Ending) (dst : Nat) : State :=
  let (s, bs, a) := sourceArea s n rule
  match a.err with
  | some e => endProgram s n 0x01 e
  | none =>
    coreQueue (s.modSub n fun b => { b with prog := { b.prog with
      dstat := b.prog.dstat ||| dst, work := { bytes := bs, segs := a.segs } } }) n

/-- The routine that a valid field entry names replaces the built-in one (R67). -/
def ownRoutine (s : State) (n code : Nat) : Bool := entryValid (lookupEntry s n code)

/-- The routine on the core ends before its commit request. -/
def endBuiltin (s : State) (n : Nat) (e : Ending) : State :=
  endProgram (freeDirect (coreFree s (s.sub n).attr.owner) n) n 0x01 e

/-- R52: the entries of a pattern. -/
def driveEntries (bs : List Byte) : List (Nat × Nat) :=
  (List.range (bs.length / 4)).map fun i => (fld (wordAt bs i) 15 0, fld (wordAt bs i) 31 16)

/-- R52: COUNT of a DRIVE. -/
def driveRule (k : Nat) : Option Ending := if k % 4 ≠ 0 ∨ 4096 < k then some (progCheck 0x010D) else none

/-- DRIVE (R52 to R55, R67, R566): the request for the core; then, on the core, the built-in routine's output writes and
its commit request, where R564 checks them. -/
def driveEffect (s : State) (n : Nat) : State :=
  if readyFor s n 0x10 then (if ownRoutine s n 0x10 then requestDispatch s n else readThenQueue s n driveRule dsChannelEnd)
  else if builtinRuns s n 0x10 then
    let bs := (s.sub n).prog.work.bytes
    commitRequest (s.modTe (s.sub n).attr.owner fun t => { t with held := { t.held with outs := driveEntries bs } }) n
  else s

/-! ### PROVE (R56, R57, R177, R193) -/

/-- R177: PIN_AUX.SHUNT of a CS pair. -/
def shuntOf (s : State) (pin : Nat) : Nat := fld (s.reg (Reg.pinAux pin)) 15 0

/-- R177: the factor of a quantity, as numerator and denominator. -/
def qtyFactor (s : State) (pin qty : Nat) : Nat × Nat :=
  if qty = 0 then (5, 4) else if qty = 1 then (50, shuntOf s pin) else (500, shuntOf s pin)

/-- R177: codes converted, rounded to the nearest unit. The spec gives no result for a SHUNT of 0 and no direction for a
tie: a free value, and a free choice of the two neighbours (log entry 27). -/
def toQty (s : State) (pin qty : Nat) (sum : Int) (n : Nat) : State × Int :=
  let f := qtyFactor s pin qty
  let num := sum * f.1
  let den : Int := (f.2 * n : Nat)
  if den = 0 then
    let (s, v) := s.free
    (s, v.toInt)
  else
    let q := num.fdiv den
    let r := num - q * den
    if 2 * r < den then (s, q)
    else if den < 2 * r then (s, q + 1)
    else
      let (s, v) := s.free
      (s, if bitOf v 0 then q + 1 else q)

/-- R193: a guard band converted and rounded up. -/
def guardQty (s : State) (pin qty g : Nat) : State × Int :=
  let f := qtyFactor s pin qty
  if f.2 = 0 then
    let (s, v) := s.free
    (s, v.toInt)
  else (s, ((g * f.1 + f.2 - 1) / f.2 : Nat))

/-- R57 step 3, R177: the first rule a window entry breaks. -/
def proveFault (s : State) (w0 : Word) : Option Ending :=
  let pin := fld w0 6 0
  let qty := fld w0 9 8
  let m := pinMode s pin
  if fld w0 15 10 ≠ 0 ∨ qty = 3 then some (progCheck 0x0108)
  else if 96 ≤ pin ∨ !(m = modeAI ∨ m = modeCS) then some (progCheck 0x010B)
  else if (m = modeAI) ≠ (qty = 0) then some (progCheck 0x010B)
  else if !scanned s pin then some (progCheck 0x010B)
  else none

/-- R193: the pin of a window entry is stale at the command's snapshot. -/
def proveStale (s : State) (n : Nat) (w0 : Word) : Bool :=
  match nth none (s.sub n).prog.snap.guard (fld w0 6 0) with
  | none => true
  | some g => decide (gbLimit s (fld w0 6 0) < g)

/-- R56: one window, widened by its pin's guard band. -/
def proveItem (s : State) (n : Nat) (w0 w1 : Word) : State × ProveItem :=
  let pin := fld w0 6 0
  let qty := fld w0 9 8
  let (s, g) := guardQty s pin qty ((nth none (s.sub n).prog.snap.guard pin).getD 0)
  (s, { pin := pin, qty := qty, low := sgn 16 (fld w1 15 0) - g, high := sgn 16 (fld w1 31 16) + g })

/-- R57 steps 1 and 2, R56: COUNT and PARAM of a PROVE. -/
def proveRule (param k : Nat) : Option Ending :=
  if k % 8 ≠ 0 then some (progCheck 0x0106)
  else if 768 < k then some (progCheck 0x010D)
  else if 1024 < param then some (progCheck 0x0108)
  else none

/-- R56, R57 steps 3 and 4: the checks of the table before any measurement; the windows to measure. -/
def proveBegin (s : State) (n : Nat) : State :=
  let p := (s.sub n).prog
  let bs := p.work.bytes
  let w0s := (List.range (bs.length / 8)).map fun i => wordAt bs (2 * i)
  match w0s.findSome? (proveFault s) with
  | some e => endBuiltin s n e
  | none =>
    match w0s.find? (proveStale s n) with
    | some w => endBuiltin s n { cstat := csCalStale, detail := 0x0E00 + fld w 6 0 }
    | none =>
      let (s, items) := foldN (bs.length / 8) (fun (x : State × List ProveItem) i =>
        let (s, it) := proveItem x.1 n (wordAt bs (2 * i)) (wordAt bs (2 * i + 1))
        (s, x.2 ++ [it])) (s, [])
      s.modSub n fun b => { b with prog := { b.prog with work := { b.prog.work with
        begun := true, prove := items, interval := Nat.max 1 p.first.param } } }

/-- Bytes [off, off + len) of a data area. -/
def segSlice : List Seg → Nat → Nat → List Seg
  | [], _, _ => []
  | g :: gs, off, len =>
    if len = 0 then []
    else if g.len ≤ off then segSlice gs (off - g.len) len
    else
      let k := Nat.min (g.len - off) len
      { g with addr := g.addr + off, len := k } :: segSlice gs 0 (len - k)

/-- R56: the saturated RESULT. -/
def sat16 (v : Int) : Nat := (if v < -32768 then 0x8000 else if 32767 < v then 0x7FFF else (v % 65536).toNat)

/-- R56: one window's outcome: RESULT and OUT are written into its entry; whether the reading lies outside. -/
def proveOut (s : State) (n i : Nat) (it : ProveItem) : State × Bool × Option Ending :=
  let w := (s.sub n).prog.work
  let (s, v) := toQty s it.pin it.qty it.sum it.n
  let out := decide (v < it.low) || decide (it.high < v)
  let w0 := setFld (setBit (wordAt w.bytes (2 * i)) 7 out) 31 16 (sat16 v)
  let (s, _, e) := writeSegs (segSlice w.segs (8 * i) 4) s n (toBytes 4 w0.toNat)
  (s, out, e)

/-- R56, R57: every window is measured: results, status, and the commit request. -/
def proveFinish (s : State) (n : Nat) : State :=
  let p := (s.sub n).prog
  let (s, any, err, _) := p.work.prove.foldl (fun (x : State × Bool × Option Ending × Nat) it =>
    let (s, any, err, i) := x
    if err.isSome then x
    else
      let (s, out, e) := proveOut s n i it
      (s, any || out, e, i + 1)) (s, false, none, 0)
  match err with
  | some e => endBuiltin s n e
  | none =>
    let mode := p.first.arg % 2
    let dst := if mode = 1 then (if any then dsUnitException else 0) else (if any then 0 else dsModifier)
    let s := s.modSub n fun b => { b with prog := { b.prog with
      dstat := b.prog.dstat ||| dst, detail := if mode = 1 ∧ any then 0x0801 else 0 } }
    commitRequest s n

/-- PROVE (R56, R57, R67, R566): the request for the core; on the core the checks, the wait for the conversions, the
results. While conversions are missing the command has no effect. -/
def proveEffect (s : State) (n : Nat) : State :=
  if readyFor s n 0x11 then (if ownRoutine s n 0x11 then requestDispatch s n else readThenQueue s n (proveRule (s.sub n).prog.first.param) 0)
  else if builtinRuns s n 0x11 then
    let w := (s.sub n).prog.work
    if !w.begun then proveBegin s n
    else if w.prove.all fun it => it.n == w.interval then proveFinish s n
    else s
  else s

/-! ### SAMPLE and ARCHIVE (R61, R62, R290) -/

/-- The ring of an ARCHIVE or of a SAMPLE with ASEL 2. -/
def ringOfCmd (c : Ccw) : Nat := if c.code = 0x14 then c.arg % 256 else c.dataAddr / 2 ^ 40 % 256

/-- R280, R301: SIFT and DIFF of a command, as the header carries them. -/
def siftKind (c : Ccw) : Nat := if c.arg / 256 % 2 = 1 then 1 + 2 * (c.arg / 512 % 2) else 0

/-- R61: COUNT of a SAMPLE. -/
def sampleRule (toRing : Bool) (k : Nat) : Option Ending :=
  if k % 2 ≠ 0 ∨ k < (if toRing then 2 else 10) then some (progCheck 0x0106) else none

/-- R563 item 10: the total of the COUNTs of a command before its data moves, or how the program ends without one. -/
def countOf (s : State) (n : Nat) (rule : Nat → Option Ending) : Nat ⊕ State :=
  let (s', a) := areaOf s n false none
  match a.total, a.err with
  | some k, _ =>
    match rule k with
    | some e => .inr (endProgram (setArea s' n { a with resid := a.cur.count }) n 0x01 e)
    | none => .inl k
  | none, some e => .inr (endProgram (setArea s' n a) n 0x01 e)
  | none, none => .inr s

/-- SAMPLE before its dispatch: COUNT (R61), then R290 for its ring. -/
def sampleReady (s : State) (n : Nat) : State :=
  let c := (s.sub n).prog.cur
  let toRing := c.aselF = 2
  match countOf s n (sampleRule toRing) with
  | .inr t => t
  | .inl total =>
    if toRing ∧ arState s (ringOfCmd c) = 3 then siltAway s n (ringOfCmd c) 0
    else if toRing ∧ arState s (ringOfCmd c) = 1 then s
    else
      let k := (if toRing then total else total - 8) / 2
      coreQueue (s.modSub n fun b => { b with prog := { b.prog with work := { left := k, olen := 2 * k } } }) n

/-- SAMPLE on the core (R185, R282): the captures start, or the allocation comes first when the stored length is known. -/
def sampleBegin (s : State) (n : Nat) : State :=
  let p := (s.sub n).prog
  let c := p.first
  let pin := c.arg % 128
  if 96 ≤ pin ∨ !scanned s pin then endBuiltin s n (progCheck 0x010B)
  else
    let toRing := c.aselF = 2
    let s := coreFree s (s.sub n).attr.owner
    siltArrive (s.modSub n fun b => { b with prog := { b.prog with
      phase := if toRing ∧ siftKind c = 0 ∧ !c.skp then .archive else .sampling,
      work := { p.work with
        pin := pin, interval := c.param, ring := ringOfCmd c, kind := if toRing then siftKind c else 0 } } }) n

/-- SAMPLE (R61, R67, R185, R566). -/
def sampleEffect (s : State) (n : Nat) : State :=
  if readyFor s n 0x13 then (if ownRoutine s n 0x13 then requestDispatch s n else sampleReady s n)
  else if builtinRuns s n 0x13 then sampleBegin s n
  else s

/-- R62: COUNT of an ARCHIVE. -/
def archiveRule (k : Nat) : Option Ending := if 16777216 < k then some (progCheck 0x010D) else none

/-- ARCHIVE (R62, R280, R282, R290): without SIFT the allocation comes first, for the length that COUNT gives; with SIFT the
payload is read and goes through the Sift unit. -/
def archiveEffect (s : State) (n : Nat) : State :=
  let c := (s.sub n).prog.cur
  let r := ringOfCmd c
  if !readyFor s n 0x14 || arState s r == 1 then s
  else if arState s r = 3 then siltAway s n r 0
  else
    let s := startSnap s n
    let go (s : State) (len : Nat) (raw : List Byte) (dst : Nat) (unread : Bool) : State :=
      siltArrive (s.modSub n fun b => { b with prog := { b.prog with
        phase := .archive, dstat := b.prog.dstat ||| dst,
        work := { ring := r, kind := siftKind c, t0 := b.prog.snap.time, olen := len, raw := raw, unread := unread } } }) n
    if siftKind c % 2 = 1 then
      let (s, bs, a) := sourceArea s n archiveRule
      match a.err with
      | some e => endProgram s n 0x01 e
      | none => go s bs.length bs dsChannelEnd false
    else match countOf s n archiveRule with
    | .inr t => t
    | .inl total => go s total [] 0 true

/-! ### FETCHSTORE (R63, R64, R276, R290, R291) -/

/-- The words of the descriptor in progress. -/
def fetchWords (s : State) (n : Nat) : List Word :=
  let w := (s.sub n).prog.work
  (List.range 8).map fun i => wordAt w.bytes (8 * w.desc + i)

/-- The program ends in the descriptor in progress; the residual counts the descriptors not executed. -/
def fetchEnd (s : State) (n : Nat) (e : Ending) : State :=
  let s := s.modSub n fun b => { b with prog := { b.prog with resid := b.prog.work.bytes.length - 32 * b.prog.work.desc } }
  endProgram (freeDirect s n) n 0x01 e

/-- R63: the fields of a descriptor that may not hold what they hold (log entry 28). -/
def fetchFault (d : List Word) : Option Ending :=
  let w1 := nth 0 d 1
  let w3 := nth 0 d 3
  let raw := bitOf w1 16
  if fld w1 31 18 ≠ 0 ∨ fld w3 31 20 ≠ 0 ∨ nth 0 d 7 ≠ 0 ∨ (!raw ∧ fld w1 15 8 ≠ 0) then some (progCheck 0x0108)
  else if 4 ≤ fld w3 19 16 then some (progCheck 0x0101)
  else if 2 ≤ fld w3 19 16 then some (progCheck 0x010C)
  else if raw ∧ ((nth 0 d 0).toNat % 4096 ≠ 0 ∨ (nth 0 d 4).toNat % 4096 ≠ 0) then some (progCheck 0x0108)
  else none

/-- R286: the sequence lies in OLDSEQ to COMMITTED of its ring. -/
def inRing (s : State) (r q : Nat) : Bool :=
  (arDone s r + 1) % 2 ^ 32 != arOld s r && decide (seqDist (arOld s r) q ≤ seqDist (arOld s r) (arDone s r))

/-- The reads of a descriptor are issued when the bounce buffer has room (R271). -/
def fetchReads (s : State) (n a blocks : Nat) : State :=
  if !bounceFits s blocks then s
  else
    let s := readBlocks s a blocks (.fetch n (s.sub n).gen.toNat)
    s.modSub n fun b => { b with prog := { b.prog with work := { b.prog.work with begun := true } } }

/-- R272, R273: the reads of a descriptor, unless a drive that holds its blocks is not READY (KIND 3). -/
def readsOrAway (s : State) (n a blocks ring seq : Nat) : State :=
  match (cutRuns blocks s a 0 blocks).find? fun x => (s.drv x.1).st != .ready with
  | some x => siltEnd (siltSense (freeDirect s n) n 0x0903 x.1 0 0 3 x.2.1 ring seq) n
  | none => fetchReads s n a blocks

/-- R281, R290, R291: the descriptor in progress begins: its checks, then its reads. -/
def fetchBegin (s : State) (n : Nat) : State :=
  let d := fetchWords s n
  let w := (s.sub n).attr.world
  match fetchFault d with
  | some e => fetchEnd s n e
  | none =>
    if bitOf (nth 0 d 1) 16 then
      let a := (nth 0 d 0).toNat + 2 ^ 32 * fld (nth 0 d 1) 15 0
      let blocks := (nth 0 d 4).toNat / 4096
      match extFault s w false true a blocks with
      | some e => fetchEnd s n e
      | none => readsOrAway s n a blocks 0 0
    else
      let r := fld (nth 0 d 1) 7 0
      let q := (nth 0 d 0).toNat
      if !arValid s r then fetchEnd s n (progCheck 0x0108)
      else if arWorld s r ≠ w ∧ !arShare s r then fetchEnd s n (protCheck 0x0401)
      else if arState s r = 0 then fetchEnd s n (progCheck 0x0108)
      else if arState s r = 3 then siltAway (freeDirect s n) n r q
      else if arState s r = 1 then s
      else if !inRing s r q then fetchEnd s n { dstat := dsUnitException, detail := 0x0802 }
      else if !idxStands s r q then s
      else if (idxW s r q 0).toNat ≠ q ∨ bitOf (idxW s r q 3) 13 then
        fetchEnd s n { dstat := dsUnitException, detail := 0x0802 }
      else
        let a := arBase s r + 4096 * (idxW s r q 2).toNat
        let blocks := fld (idxW s r q 3) 12 0
        match extFault s w false false a blocks with
        | some e => fetchEnd s n e
        | none => readsOrAway s n a blocks r q

/-- What follows a descriptor: the next one, the end of the command, or a stop at this point (R84). -/
def fetchNext (s : State) (n : Nat) : State :=
  let b := s.sub n
  let w := b.prog.work
  let s := s.modSub n fun b => { b with prog := { b.prog with resid := w.bytes.length - 32 * w.desc } }
  if b.st = .fenced then endFenced s n
  else if w.bytes.length ≤ 32 * w.desc then endCommitted s n 0 0 0
  else if w.stopNow then endHalted s n
  else fetchBegin s n

/-- R63, R64: a descriptor has delivered `w.frames` of `total` bytes: DONE, and EPOCH of a record, are written. -/
def fetchDone (s : State) (n total : Nat) : State :=
  let p := (s.sub n).prog
  let w := p.work
  let d := fetchWords s n
  let raw := bitOf (nth 0 d 1) 16
  let epoch := idxW s (fld (nth 0 d 1) 7 0) (nth 0 d 0).toNat 1
  let out := toBytes 4 w.frames ++ (if raw then [] else toBytes 4 epoch.toNat)
  let (s, _, e) := writeSegs (segSlice w.segs (32 * w.desc + 20) out.length) s n out
  match e with
  | some e => fetchEnd s n e
  | none =>
    let s := s.modSub n fun b => { b with prog := { b.prog with work := { w with
      desc := w.desc + 1, begun := false, raw := [], prev := 0, olen := 0, left := 0, frames := 0 } } }
    if total ≠ (nth 0 d 4).toNat ∧ !p.cur.sli then
      let s := s.modSub n fun b => { b with prog := { b.prog with resid := w.bytes.length - 32 * (w.desc + 1) } }
      if (s.sub n).st = .fenced then endFenced s n else endCommitted s n csLength 0 0
    else fetchNext s n

/-- Bytes go to the destination of the descriptor in progress, behind those delivered before. -/
def fetchPut (s : State) (n : Nat) (bs : List Byte) : State × Option Ending :=
  let w := (s.sub n).prog.work
  let d := fetchWords s n
  let asel := fld (nth 0 d 3) 19 16
  let a := (nth 0 d 2).toNat + 2 ^ 32 * fld (nth 0 d 3) 15 0 + w.frames
  let (s, k, e) := writeSegs [{ asel := asel, addr := a, len := bs.length }] s n bs
  (s.modSub n fun b => { b with prog := { b.prog with work := { b.prog.work with frames := w.frames + k } } }, e)

/-- R64, R291: every block of the descriptor has been read. -/
def fetchDeliver (s : State) (n : Nat) (data : List Byte) : State :=
  let d := fetchWords s n
  let len := (nth 0 d 4).toNat
  let put (s : State) (bs : List Byte) (total : Nat) : State :=
    let (s, e) := fetchPut s n bs
    match e with
    | some e => fetchEnd s n e
    | none => fetchDone s n total
  if bitOf (nth 0 d 1) 16 then put s (data.take len) len
  else
    let r := fld (nth 0 d 1) 7 0
    let q := (nth 0 d 0).toNat
    if (wordAt data 2).toNat ≠ q ∨ wordAt data 2 ≠ idxW s r q 0 ∨ wordAt data 3 ≠ idxW s r q 1 then
      fetchEnd s n { dstat := dsUnitException, detail := 0x0802 }
    else if !headerOk data then
      let m := mapBlock s (arBase s r + 4096 * (idxW s r q 2).toNat)
      fetchEnd (siltSense s n 0x0602 m.1 0 0 4 m.2.1 r q) n { cstat := csData, detail := 0x0602 }
    else
      let payload := (data.drop 64).take (wordAt data 6).toNat
      let sift := bitOf (wordAt data 1) 8
      if sift ∧ bitOf (nth 0 d 1) 17 ∧ payload ≠ [] then
        s.modSub n fun b => { b with prog := { b.prog with work := { b.prog.work with
          raw := payload, prev := 0, olen := (wordAt data 7).toNat, left := len, frames := 0,
          kind := if bitOf (wordAt data 1) 9 then 3 else 1 } } }
      else put s (payload.take len) payload.length

/-- R273, R301: a malformed Sift stream ends the descriptor; no KIND is stated for it. -/
def fetchMalformed (s : State) (n : Nat) : State :=
  let d := fetchWords s n
  let r := fld (nth 0 d 1) 7 0
  let q := (nth 0 d 0).toNat
  let m := mapBlock s (arBase s r + 4096 * (idxW s r q 2).toNat)
  let (s, v) := s.free
  fetchEnd (siltSense s n 0x0602 m.1 0 0 (v.toNat % 256) m.2.1 r q) n { cstat := csData, detail := 0x0602 }

/-- SIFT_BLOCK for a FETCHSTORE (R301, R302, R291): one block of the stream is inverted and delivered. -/
def fetchSift (s : State) (n : Nat) : State :=
  let w := (s.sub n).prog.work
  let total := w.frames + w.olen
  match siftInverse (w.kind = 3) w.prev ((w.olen + 1) / 2) w.raw with
  | none => fetchMalformed s n
  | some (out, rest, prev) =>
    let out := out.take w.olen
    let give := out.take w.left
    let (s, e) := fetchPut s n give
    match e with
    | some e => fetchEnd s n e
    | none =>
      let left := w.left - give.length
      let olen := w.olen - out.length
      if olen = 0 ∨ left = 0 then fetchDone s n total
      else if rest = [] then fetchMalformed s n
      else s.modSub n fun b => { b with prog := { b.prog with work := { b.prog.work with
        raw := rest, prev := prev, olen := olen, left := left } } }

/-- The NVMe reads of the FETCHSTORE of subchannel n, in order of issue. -/
def fetchReadsOf (s : State) (n : Nat) : List NvCmd :=
  s.silt.nv.filter fun c => !c.dead && (match c.use with
    | .fetch m _ => m == n
    | _ => false)

/-- R63: COUNT of a FETCHSTORE. -/
def fetchRule (k : Nat) : Option Ending :=
  if k % 32 ≠ 0 then some (progCheck 0x0106) else if 2048 < k then some (progCheck 0x010D) else none

/-- R63: the descriptors of a FETCHSTORE are counted and read. -/
def fetchStart (s : State) (n : Nat) : State :=
  let (s, bs, a) := sourceArea s n fetchRule
  match a.err with
  | some e => endProgram s n 0x01 e
  | none =>
    fetchNext (s.modSub n fun b => { b with prog := { b.prog with
      phase := .fetching, work := { bytes := bs, segs := a.segs } } }) n

/-- FETCHSTORE (R63, R64, R84, R290, R291): its descriptors are read, begun one after another, and delivered once their
reads are complete. While it waits the command has no effect. -/
def fetchstoreEffect (s : State) (n : Nat) : State :=
  let w := (s.sub n).prog.work
  if readyFor s n 0x15 then fetchStart s n
  else if (s.sub n).prog.phase ≠ .fetching ∨ w.raw ≠ [] then s
  else if !w.begun then fetchNext s n
  else
    let cs := fetchReadsOf s n
    if cs.all (·.done) then
      let s := s.modSilt fun y => { y with nv := y.nv.filter fun c => !cs.contains c }
      fetchDeliver s n (cs.flatMap (·.data))
    else s

/-- SIFT_BLOCK for a command (R302): ARCHIVE, SAMPLE or FETCHSTORE takes its next block through the transform. -/
def commandSift (s : State) (n : Nat) : State :=
  let p := (s.sub n).prog
  if p.work.raw = [] then s
  else if p.phase = .archive then archiveSift s n
  else if p.phase = .fetching then fetchSift s n
  else s

/-- R80: PROVE's results moved so far, 4 bytes into each entry, stay in place; the command ends without the others. -/
def proveTimeout (s : State) (n : Nat) (moved : List Byte) : State :=
  let w := (s.sub n).prog.work
  let s := foldN (moved.length / 4) (fun s i =>
    (writeSegs (segSlice w.segs (8 * i) 4) s n ((moved.drop (4 * i)).take 4)).1) s
  let s := coreFree s (s.sub n).attr.owner
  let s := s.modSub n fun b => { b with prog := { b.prog with resid := w.bytes.length - moved.length } }
  endProgram s n 0x01 (dataTimeoutEnding (s.sub n).prog.cur.aselF)

/-- R80: the delivery of a FETCHSTORE descriptor meets no response; the bytes moved stay in place, and the residual counts the
descriptors not executed. -/
def fetchTimeout (s : State) (n : Nat) (moved : List Byte) : State :=
  let w := (s.sub n).prog.work
  let asel := fld (nth 0 (fetchWords s n) 3) 19 16
  let (s, _) := fetchPut s n moved
  let s := s.modSub n fun b => { b with prog := { b.prog with resid := w.bytes.length - 32 * w.desc } }
  endProgram s n 0x01 (dataTimeoutEnding asel)

/-- DATA_ACCESS_TIMEOUT (R80) of any command. -/
def dataTimeout (s : State) (n : Nat) (moved : List Byte) : State :=
  let b := s.sub n
  let asel := if b.prog.phase = .fetching then fld (nth 0 (fetchWords s n) 3) 19 16 else b.prog.cur.aselF
  if !b.resident || accessEarly s b asel then s
  else if b.prog.phase = .fetching then fetchTimeout s n moved
  else if builtinRuns s n 0x11 ∧ b.prog.work.begun then proveTimeout s n moved
  else dataAccessTimeout s n moved

/-! ### Stops in a SAMPLE (R84, R131) -/

/-- R84: a SAMPLE that a HALT or a fence has met ends now unless its next conversion has begun. -/
def stopSamples (s : State) : State := s.subs.foldl (fun s x => sampleStop s x.1) s

/-- R131: what a fence stops at the end of the unit of work in progress: samples, and the bursts of DMA descriptors (R300). -/
def stopFenced (s : State) : State := stopSamples (dmaFenceSweep s)

/-! ### Register writes on their way (R8, R14) -/

/-- Posted register writes reach their registers in the order in which they were made. -/
def deliver : Nat → State → State
  | 0, s => s
  | fuel + 1, s =>
    match s.posted with
    | [] => s
    | (who, off, v) :: rest => deliver fuel (regEffect { s with posted := rest } who off v)

/-- The register writes that a command has made take effect; a register write can itself make others. -/
def drain (s : State) : State := if s.posted = [] then s else stopFenced (deliver (s.posted.length + 1024) s)

end Sys2Proof.Machine
end

