-- ==== Sys2Proof/Machine/CoreFault.lean ====
section
/-! DEFINITION. Faults of the cores: the end, the rollback or the emulation trap of a routine, the entry of a supervisor core,
the progress watchdog, breakpoints, and the return of a routine (chapters "Core exceptions, interrupts and timing", "Commit
points and recovery", "Tributary engines and device routines", "Daster monitor"). -/

namespace Sys2Proof.Machine

/-- R254: the faults that count as retries. -/
def retries (code arg : Nat) : Bool := code == 0x15 || code == 0x16 || ((code == 0x06 || code == 0x07) && arg == 3)

/-- R254, R165: a Loam code line in uncorrectable error is loaded again from the retained image. -/
def reloadLine (s : State) (k : Nat) (line : Word) : State :=
  let o := line.toNat / 16 * 16
  if o < 0x10000 then pokeMem s (loamAt k + o) (peekMem s (Config.retainedBase + 0x20000 * (s.te k).loamImg + o) 16) else s

/-- R362, R254, R67: a fault of a channel core. Cause 0x02 enters EVBASE; every other one stops the routine, which is rolled
back or ends. -/
def coreFault (s : State) (k code arg : Nat) (rax faddr : Word) : State :=
  let x := s.core k
  if code = 0x02 ∧ !x.fesc then
    let cap := schemeCap s x.world
    let s := s.modCore k fun x => enter x cap 0x02 0 0 rax faddr
    if (s.dbg k).step then haltCore s k 2 else s
  else match (s.te k).running with
  | none => s
  | some n =>
    let rep := if x.fesc then 0x18 else code
    let s := traceRecord s k 4 rep rax
    let s := s.modDbg k fun d => { d with step := false, passed := false }
    let s := s.modTe k fun t => { t with faultCause := rep, faultSub := n, faultAddr := faddr }
    let s := if code = 0x15 ∧ arg = 7 then reloadLine s k faddr else s
    if retries code arg then retryFault s n true
    else
      let s := coreFree (freeDirect s n) k
      if (s.sub n).st = .fenced then endFenced s n else endProgram s n 0x01 (unitCheck (0x0300 + rep))

/-- A fault of core k: a channel core below 64, else a supervisor core. -/
def trap (s : State) (k code arg : Nat) (rax faddr : Word) : State :=
  if k < 64 then coreFault s k code arg rax faddr else scFault s (k - 64) code arg rax faddr

/-- R521, R141: the core can execute an instruction. -/
def coreGoes (s : State) (k : Nat) : Bool := if k < 64 then teRuns s k && !(s.dbg k).halted else scRuns s (k - 64)

/-- PROGRESS_WATCHDOG (R368): no instruction has completed for 8,192 cycles; a halted core does not count. -/
def progressWatchdog (s : State) (k : Nat) : State := if coreGoes s k then trap s k 0x16 1 (s.core k).pc 0 else s

/-! ### Breakpoints (R521) -/

/-- R521: the breakpoint that the instruction at PC meets: an enabled one whose Loam code offset matches, and whose class
matches when CLASS_MATCH is 1. -/
def bkptAt (s : State) (k : Nat) : Option Nat :=
  let d := s.dbg k
  let pc := (s.core k).pc.toNat
  (List.range 2).find? fun i =>
    let b := nth 0 d.bkpt i
    bitOf d.bkptEn i && !d.passed && fld b 15 1 * 2 == pc && (!bitOf b 22 || fld b 21 16 == (s.te k).curCls)

/-- BREAKPOINT_HALT (R521): the core stops before the matching instruction. -/
def breakpointHalt (s : State) (k : Nat) : State :=
  if !coreGoes s k then s
  else match bkptAt s k with
  | some i => haltCore s k (4 + i)
  | none => s

/-! ### The routine's return (R155) -/

/-- R157, TE_BUDGET_HWM: the cycles of a routine that completes are a free value below its budget (log entry 47). -/
def countCycles (s : State) (k : Nat) : State :=
  let (s, v) := s.free
  let c := 1 + v.toNat % Nat.max 1 ((s.te k).budget - 1)
  s.modTe k fun t => { t with hwm := Nat.max t.hwm c }

/-- R155, R345: the routine returns: its results become status, and the commit request follows. -/
def routineReturn (s : State) (k : Nat) (pc : Word) : State :=
  match (s.te k).running with
  | none => s
  | some n =>
    let x := s.core k
    let g2 := nth 0 x.g 2
    let g3 := nth 0 x.g 3
    let dst := (g2.toNat &&& 0x93) ||| (if x.sm then dsModifier else 0)
    let err := dst &&& (dsUnitCheck ||| dsUnitException) != 0
    let s := traceRecord s k 2 0 pc
    let s := s.modDbg k fun d => { d with haltReq := d.haltReq || d.step, step := false, passed := false }
    let s := s.modSub n fun b => { b with prog := { b.prog with
      dstat := b.prog.dstat ||| dst, detail := if err then fld g3 15 0 else 0, resid := fld g3 31 16 } }
    commitRequest (countCycles s k) n

end Sys2Proof.Machine
end

