-- ==== Sys2Proof/Machine/Operands.lean ====
section
/-! DEFINITION. Operands of the core instructions: general registers, predicates, capability registers, extensions, and the
instruction words that faults report (chapter "Channel core instruction set"). -/

namespace Sys2Proof.Machine

/-! ### Registers (R329) -/

/-- R329: g0 reads 0. -/
def gRead (x : CoreSt) (i : Nat) : Word := if i = 0 then 0 else nth 0 x.g i

/-- R329: a write to g0 is discarded. -/
def gWrite (x : CoreSt) (i : Nat) (v : Word) : CoreSt := if i = 0 then x else { x with g := setNth x.g i v }

/-- R329: p0 reads true. -/
def pRead (x : CoreSt) (i : Nat) : Bool := i == 0 || bitOf x.p i

/-- R329: a write to p0 is discarded. -/
def pWrite (x : CoreSt) (i : Nat) (b : Bool) : CoreSt := if i = 0 then x else { x with p := setBit x.p i b }

/-- A capability register. -/
def cRead (x : CoreSt) (i : Nat) : Cap := nth {} x.c i
def cWrite (x : CoreSt) (i : Nat) (v : Cap) : CoreSt := { x with c := setNth x.c i v }

/-- A general register of core k is written. -/
def setG (s : State) (k i : Nat) (v : Word) : State := s.modCore k fun x => gWrite x i v

/-- A predicate of core k is written. -/
def setP (s : State) (k i : Nat) (b : Bool) : State := s.modCore k fun x => pWrite x i b

/-- R334: the guard of a 32-bit instruction. -/
def guardTrue (h : Hdr) (x : CoreSt) : Bool := pRead x h.pg.val != h.inv

/-! ### Immediates -/

/-- Sign extension to a word. -/
def sext {n : Nat} (v : BitVec n) : Word := v.signExtend 32

/-- Zero extension to a word. -/
def zext {n : Nat} (v : BitVec n) : Word := v.setWidth 32

/-- A branch offset in half-words (R343). -/
def halfOff {n : Nat} (v : BitVec n) : Word := sext v <<< 1

/-! ### Instruction words (R333, R334) -/

/-- The header of a 32-bit instruction with MAJOR and the bits below it. -/
def insWord (h : Hdr) (major low : Nat) : Word :=
  BitVec.ofNat 32 (3 * 2 ^ 30 + b2n h.inv * 2 ^ 29 + h.pg.val * 2 ^ 26 + major * 2 ^ 20 + low)

/-- Form M: MOP lies across MAJOR [4:2] and RD [4:3] across MAJOR [1:0]. -/
def formM (h : Hdr) (mop rd rs disp : Nat) : Word := insWord h 0 (mop * 2 ^ 22 + rd * 2 ^ 17 + rs * 2 ^ 12 + disp)
def formR (h : Hdr) (major rd rs1 rs2 fn : Nat) : Word := insWord h major (rd * 2 ^ 15 + rs1 * 2 ^ 10 + rs2 * 2 ^ 5 + fn)
def formI (h : Hdr) (major rd rs1 imm : Nat) : Word := insWord h major (rd * 2 ^ 15 + rs1 * 2 ^ 10 + imm)
def formC (h : Hdr) (pd cond rs1 rs2 pcomb : Nat) : Word :=
  insWord h 0x26 (pd * 2 ^ 17 + cond * 2 ^ 14 + rs1 * 2 ^ 9 + rs2 * 2 ^ 4 + pcomb * 2 ^ 2)
def formCI (h : Hdr) (pd cond rs1 imm : Nat) : Word := insWord h 0x27 (pd * 2 ^ 17 + cond * 2 ^ 14 + rs1 * 2 ^ 9 + imm)
def formP (h : Hdr) (pd pa pb gr fn : Nat) : Word :=
  insWord h 0x28 (pd * 2 ^ 17 + pa * 2 ^ 14 + pb * 2 ^ 11 + gr * 2 ^ 6 + fn)
def formB (h : Hdr) (major off : Nat) : Word := insWord h major off
def formK (h : Hdr) (major rd imm : Nat) : Word := insWord h (major + imm / 2 ^ 15) (rd * 2 ^ 15 + imm % 2 ^ 15)
def formL (h : Hdr) (lvl ci cnt rs endoff : Nat) : Word :=
  insWord h 0x30 (lvl * 2 ^ 18 + ci * 2 ^ 17 + (if ci = 1 then cnt else rs) * 2 ^ 10 + endoff)
def formCM (h : Hdr) (major cd rs cs disp : Nat) : Word :=
  insWord h major (cd * 2 ^ 17 + rs * 2 ^ 12 + cs * 2 ^ 9 + disp)
def formCA (h : Hdr) (cd ca rs1 rs2 fn : Nat) : Word :=
  insWord h 0x34 (cd * 2 ^ 17 + ca * 2 ^ 14 + rs1 * 2 ^ 9 + rs2 * 2 ^ 4 + fn)
/-- MFC, MTC and GATE: a 10-bit number in [14:5]. -/
def formN (h : Hdr) (r n fn : Nat) : Word := insWord h 0x2B (r * 2 ^ 15 + n * 2 ^ 5 + fn)

/-! ### Capability fields (R395) -/

def capBase (c : Cap) : Nat := fld c.body 31 0
def capLen (c : Cap) : Nat := fld c.body 63 32
def capPerms (c : Cap) : Nat := fld c.body 79 64
def capOtype (c : Cap) : Nat := fld c.body 91 80
def capWorld (c : Cap) : World := if bitOf c.body 92 then .service else .safety
def capSealed (c : Cap) : Bool := bitOf c.body 93
def capEpoch (c : Cap) : Nat := fld c.body 103 96

/-- R396: no reserved bit set, and the range ends at or below 2^32: only such a capability is ever tagged. -/
def capSound (c : Cap) : Bool :=
  fld c.body 95 94 == 0 && fld c.body 127 104 == 0 && decide (capBase c + capLen c ≤ 2 ^ 32)

end Sys2Proof.Machine
end

