-- ==== Sys2Proof/Machine/Flags.lean ====
section
/-! DEFINITION. What the arithmetic, compare and packed-decimal instructions compute: results, conditions and the decimal
carry ST.DC (chapter "Channel core instruction set"). -/

namespace Sys2Proof.Machine

/-! ### Register ALU (R340, R341) -/

/-- A truth value as a register result. -/
def boolWord (b : Bool) : Word := if b then 1 else 0

def shl (a b : Word) : Word := a <<< (b.toNat % 32)
def shr (a b : Word) : Word := a >>> (b.toNat % 32)
def sar (a b : Word) : Word := a.sshiftRight (b.toNat % 32)
def ror (a b : Word) : Word := a.rotateRight (b.toNat % 32)
def sltW (a b : Word) : Word := boolWord (a.slt b)
def sltuW (a b : Word) : Word := boolWord (a.ult b)
def minS (a b : Word) : Word := if a.slt b then a else b
def maxS (a b : Word) : Word := if a.slt b then b else a
def minU (a b : Word) : Word := if a.ult b then a else b
def maxU (a b : Word) : Word := if a.ult b then b else a
/-- Bits [63:32] of the signed product. -/
def mulhS (a b : Word) : Word := BitVec.ofInt 32 ((a.toInt * b.toInt).fdiv (2 ^ 32))
/-- Bits [63:32] of the unsigned product. -/
def mulhU (a b : Word) : Word := BitVec.ofNat 32 (a.toNat * b.toNat / 2 ^ 32)

/-- R341: signed division truncates toward zero; by 0 it gives all ones; −2^31 by −1 gives −2^31. -/
def divS (a b : Word) : Word := if b = 0 then 0xFFFFFFFF#32 else BitVec.ofInt 32 (a.toInt.tdiv b.toInt)
def divU (a b : Word) : Word := if b = 0 then 0xFFFFFFFF#32 else BitVec.ofNat 32 (a.toNat / b.toNat)
def remS (a b : Word) : Word := if b = 0 then a else BitVec.ofInt 32 (a.toInt.tmod b.toInt)
def remU (a b : Word) : Word := if b = 0 then a else BitVec.ofNat 32 (a.toNat % b.toNat)

/-- Leading zeros, 32 for 0. -/
def clzW (a : Word) : Word :=
  BitVec.ofNat 32 (((List.range 32).find? fun i => bitOf a (31 - i)).getD 32)
/-- The number of 1 bits. -/
def popcW (a : Word) : Word := BitVec.ofNat 32 ((List.range 32).filter (bitOf a ·)).length
/-- The bytes in reverse order. -/
def bswapW (a : Word) : Word := BitVec.ofNat 32 (ofBytes (toBytes 4 a.toNat).reverse)

/-! ### Conditions (R342) -/

/-- R342: COND. -/
def condHolds (cond : Nat) (a b : Word) : Bool :=
  match cond with
  | 0 => a == b
  | 1 => a != b
  | 2 => a.slt b
  | 3 => !a.slt b
  | 4 => a.ult b
  | 5 => !a.ult b
  | 6 => a &&& b != 0
  | _ => a &&& b == 0

/-- R342: PCOMB combines the condition into the predicate. -/
def combine (pcomb : Nat) (old c : Bool) : Bool :=
  match pcomb with
  | 1 => old && c
  | 2 => old || c
  | _ => c

/-! ### Packed decimal (R349) -/

/-- Nibble i. -/
def nib (x : Word) (i : Nat) : Nat := fld x (4 * i + 3) (4 * i)

/-- The word that 8 nibbles spell. -/
def ofNibs (l : List Nat) : Word := BitVec.ofNat 32 (l.foldr (fun d a => d % 16 + 16 * a) 0)

/-- R349: DADD and DADDC: the sum and the carry. -/
def decAdd (a b : Word) (c : Bool) : Word × Bool :=
  let r := foldN 8 (fun (x : List Nat × Nat) i =>
    let d := nib a i + nib b i + x.2
    if 10 ≤ d then (x.1 ++ [(d - 10) % 16], 1) else (x.1 ++ [d], 0)) ([], b2n c)
  (ofNibs r.1, r.2 == 1)

/-- R349: DSUB and DSUBC: the difference and the borrow. -/
def decSub (a b : Word) (c : Bool) : Word × Bool :=
  let r := foldN 8 (fun (x : List Nat × Nat) i =>
    let t := nib b i + x.2
    if nib a i < t then (x.1 ++ [(nib a i + 10 + 16 - t) % 16], 1) else (x.1 ++ [(nib a i - t) % 16], 0)) ([], b2n c)
  (ofNibs r.1, r.2 == 1)

/-- R349: DADJ keeps n digits and replaces non-decimal ones by 0. -/
def decAdj (a : Word) (n : Nat) : Word × Bool :=
  (ofNibs ((List.range 8).map fun i => if n ≤ i ∨ 9 < nib a i then 0 else nib a i),
    (List.range 8).any fun i => decide (i < n) && decide (9 < nib a i))

/-- R349: DCVT.BD, binary to packed. -/
def decPack (a : Word) : Word × Bool :=
  let v := a.toNat % 100000000
  (ofNibs ((List.range 8).map fun i => v / 10 ^ i % 10), decide (100000000 ≤ a.toNat))

/-- R349: DCVT.DB, packed to binary. -/
def decUnpack (a : Word) : Word × Bool :=
  (BitVec.ofNat 32 (foldN 8 (fun t i => t + nib a i * 10 ^ i) 0), (List.range 8).any fun i => decide (9 < nib a i))

end Sys2Proof.Machine
end

