-- ==== Sys2Proof/Machine/CoreMem.lean ====
section
/-! DEFINITION. The core space, the capability check, fetches, loads and stores of the cores, the store buffer (chapters
"Channel core instruction set", "Worlds, levels and capabilities", "Commit points and recovery"). -/

namespace Sys2Proof.Machine

/-- What an instruction does once its turn has come. -/
inductive Out where
  /-- it completes without a taken transfer -/
  | done
  /-- it completes with a transfer to t -/
  | jump (t : Word)
  /-- it does not complete: cause, argument, FADDR -/
  | fault (code arg : Nat) (faddr : Word)
  /-- BRK completes (R343) -/
  | brk
  /-- the routine returns (R345) -/
  | exit
  deriving DecidableEq, Repr

/-- A fault that an access meets: cause, argument, FADDR. -/
abbrev Flt := Nat × Nat × Word

def outFault (f : Flt) : Out := .fault f.1 f.2.1 f.2.2

/-! ### The core space (R27, R390, R446) -/

/-- What a core address names. -/
inductive CMap where
  /-- memory at a device address; `own` for the core's own Loam -/
  | mem (a : Nat) (own : Bool)
  | reg (off : Nat)
  | nothing
  deriving DecidableEq, Repr

/-- R446: the window that holds a core address. -/
def winOf (a : Nat) : Option Nat :=
  if 0x40000000 ≤ a ∧ a < 0x80000000 then some 0 else if 0x80000000 ≤ a ∧ a < 0xC0000000 then some 1 else none

/-- R27, R446: where an address of core k lies. -/
def coreMap (s : State) (k a : Nat) : CMap :=
  if a < (if k < 64 then 0x20000 else 0x40000) then .mem (loamAt k + a) true
  else if 0x10000000 ≤ a ∧ a < 0x11000000 then .mem (Config.basinBase + (a - 0x10000000)) false
  else if 0x20000000 ≤ a ∧ a < 0x20200000 then .reg (a - 0x20000000)
  else match winOf a with
  | some w =>
    let r := s.reg (Reg.devWin k)
    let d := fld r (8 * w + 4) (8 * w) * 0x10000000 + (a - 0x40000000 * (w + 1))
    if bitOf r (8 * w + 7) && placeOf s d == .dram then .mem d false else .nothing
  | none => .nothing

/-- The initiator that core k is. -/
def coreWho (k : Nat) : Initiator := coreInit (Fin.ofNat 66 k)

/-- R394: the column against which core k's accesses are checked. -/
def coreCol (s : State) (k : Nat) : Col :=
  let x := s.core k
  if schemeCap s x.world || x.lvl then .p else .u

/-- R391: the region table that an access of a core meets. -/
def coreTable (s : State) (own : Bool) : Nat → Rgn := if own then rgnOwn s else rgnNow s

/-- SHARED and TAG of the entry that decides a device address. -/
def attrOf (s : State) (own : Bool) (a : Nat) : Word :=
  match deciding (coreTable s own) (a / 4096) with
  | some (_, w) => w
  | none => 0

/-! ### Capability check (R397, R402) -/

/-- R402: the epoch-table word of an object type, through the core's epoch cache. -/
def epochWord (s : State) (k otype : Nat) : State × Word :=
  let x := s.core k
  match x.ecache.find? fun e => e.1 == otype with
  | some e => (s.modCore k fun x => { x with ecache := e :: x.ecache.filter (·.1 != otype) }, e.2)
  | none =>
    let w := peekWord s (Config.basinBase + fld (s.reg Reg.leveeEpochBase) 23 14 * 0x4000 + 4 * otype)
    (s.modCore k fun x => { x with ecache := ((otype, w) :: x.ecache).take 32, ecMiss := satInc 0xFFFF x.ecMiss }, w)

/-- R397: a capability used as authority over a range (none: no range), with the permissions it needs; the cause of the
first failing check. -/
def capUse (s : State) (k : Nat) (c : Cap) (range : Option (Nat × Nat)) (need : List Nat) : State × Option Nat :=
  let inside := match range with
    | some (a, n) => decide (capBase c ≤ a) && decide (a + n ≤ capBase c + capLen c)
    | none => true
  if !c.tag then (s, some 0x09)
  else if !inside then (s, some 0x0A)
  else if capSealed c || capWorld c != (s.core k).world || !(need.all (capPerm c)) then (s, some 0x0B)
  else
    let (s, w) := epochWord s k (capOtype c)
    (s, if bitOf w 8 || fld w 7 0 != capEpoch c then some 0x0C else none)

/-- R337, R397: the check of a data access against capability register i under the capability scheme. -/
def capData (s : State) (k i : Nat) (ea : Word) (size : Nat) (need : List Nat) : State × Option Flt :=
  if !schemeCap s (s.core k).world then (s, none)
  else
    let (s, e) := capUse s k (cRead (s.core k) i) (some (ea.toNat, size)) need
    (s, e.map fun code => (code, i, ea))

/-! ### Fetch (R336 step 1, R338, R390) -/

/-- The fetch of one half-word. -/
def fetchHalf (s : State) (k : Nat) (a : Word) : State × Option Flt :=
  match coreMap s k a.toNat with
  | .reg _ => (s, some (0x03, 0, a))
  | .nothing => (s, some (if (winOf a.toNat).isSome then (0x03, 0, a) else (0x06, 1, a)))
  | .mem d own =>
    if (winOf a.toNat).isSome then (s, some (0x03, 0, a))
    else if bitOf (attrOf s own d) 14 then (s, some (0x03, 0, a))
    else
      let x := s.core k
      let (s, ok) := leveeCheck s (coreWho k) x.world (coreCol s k) .fetch (coreTable s own) d
      if !ok then (s, some (0x08, 2, a))
      else match ueHit s d 2 with
        | some g =>
          let s := noteUe s (coreWho k) g
          (s, some (if own then (0x15, 7, a &&& ~~~15#32) else (0x06, 2, a)))
        | none =>
          let line := d / 16 * 16
          (s.modCore k fun x => { x with fbuf := (line :: x.fbuf.filter (· != line)).take 4 }, none)

/-- R336 step 1: the fetch of an instruction of len bytes at PC. -/
def fetchCheck (s : State) (k len : Nat) : State × Option Flt :=
  let x := s.core k
  if bitOf x.pc 0 then (s, some (0x04, 0, x.pc))
  else
    let (s, e) := if schemeCap s x.world then capUse s k x.pcc (some (x.pc.toNat, len)) [2] else (s, none)
    match e with
    | some code => (s, some (code, 8, x.pc))
    | none =>
      let (s, f) := fetchHalf s k x.pc
      if f.isSome || len == 2 then (s, f) else fetchHalf s k (x.pc + 2)

/-! ### The store buffer (R246 to R249) -/

/-- The entry of a block in a buffer. -/
def sbFind (h : Held) (blk : Nat) : Option SbEntry := h.stores.find? fun e => e.blk == blk

/-- R248: a held store of bytes within one block; `tag` sets the granule's tag (a capability store), none clears it. None
when it would need a 65th entry. -/
def sbPut (h : Held) (a : Nat) (bs : List Byte) (tag : Option Bool) : Option Held :=
  let blk := a / 32 * 32
  let off := a - blk
  let put (e : SbEntry) : SbEntry :=
    { e with
      mask := (List.range bs.length).foldl (fun m i => setBit m (off + i) true) e.mask
      data := (List.range bs.length).foldl (fun l i => setNth l (off + i) (nth 0 bs i)) e.data
      tags := setBit e.tags (off / 16) (tag.getD false) }
  match sbFind h blk with
  | some _ => some { h with stores := h.stores.map fun e => if e.blk = blk then put e else e }
  | none =>
    if 64 ≤ heldUsed h then none
    else
      let new := put { blk := blk, data := List.replicate 32 0 }
      some { h with stores := h.stores ++ [new] }

/-- R246, R248: a held register store; it takes the entry of its 32-byte block (log entry 29), and a later store to the same
register replaces the earlier one. -/
def sbReg (h : Held) (off : Nat) (v : Word) : Option Held :=
  if h.regs.any (fun r => r.1 / 32 == off / 32) || decide (heldUsed h < 64) then
    some { h with regs := (h.regs.filter fun r => r.1 != off) ++ [(off, v)] }
  else none

/-- R249: memory bytes at a with the buffered bytes over them. -/
def sbMerge (h : Held) (a : Nat) (bs : List Byte) : List Byte :=
  match sbFind h (a / 32 * 32) with
  | none => bs
  | some e => (List.range bs.length).map fun i => if bitOf e.mask (a % 32 + i) then nth 0 e.data (a % 32 + i) else nth 0 bs i

/-- R249: every byte of the load is buffered. -/
def sbFull (h : Held) (a len : Nat) : Bool :=
  match sbFind h (a / 32 * 32) with
  | none => false
  | some e => (List.range len).all fun i => bitOf e.mask (a % 32 + i)

/-- R248: the buffered tag of the granule at a, when a byte of it is buffered. -/
def sbTag (h : Held) (a : Nat) : Option Bool :=
  match sbFind h (a / 32 * 32) with
  | none => none
  | some e => if (List.range 16).any fun i => bitOf e.mask (a % 32 / 16 * 16 + i) then some (bitOf e.tags (a % 32 / 16)) else none

/-- R248: an overflow: OVF is set and the store takes cause 0x07, ARG 4. -/
def sbOverflow (s : State) (k : Nat) (ea : Word) : State × Option Flt :=
  (s.modTe k fun t => { t with sbOvf := true }, some (0x07, 4, ea))

/-! ### Loads and stores (R336 step 6, R338, R537, R539) -/

/-- R246: core k holds its store to this region. -/
def holds (s : State) (k : Nat) (own : Bool) (d : Nat) : Bool := decide (k < 64) && bitOf (attrOf s own d) 13

/-- A load of size bytes at ea, its alignment and its capability checked before, in the given column. -/
def loadIn (s : State) (k : Nat) (col : Col) (ea : Word) (size : Nat) : State × Except Flt (List Byte) :=
  match coreMap s k ea.toNat with
  | .nothing => (s, .error (0x07, 1, ea))
  | .reg off =>
    if size ≠ 4 then (s, .error (0x07, 1, ea))
    else if readRefused s (coreWho k) (regAt off) then (s, .error (0x07, 5, ea))
    else
      let (s, v) := readReg s (coreWho k) off
      (s, .ok (toBytes 4 v.toNat))
  | .mem d own =>
    let (s, ok) := leveeCheck s (coreWho k) (s.core k).world col .read (coreTable s own) d
    if !ok then (s, .error (0x08, 0, ea))
    else
      let h := if holds s k own d then (s.te k).held else {}
      if sbFull h d size then (s, .ok (sbMerge h d (List.replicate size 0)))
      else match ueHit s d size with
        | some g => (noteUe s (coreWho k) g, .error (0x07, 2, ea))
        | none => (s, .ok (sbMerge h d (peekMem s d size)))

/-- A direct store of core k (R246, R260, R339, R449). -/
def storeDirect (s : State) (k : Nat) (ea : Word) (d : Nat) (bs : List Byte) (tag : Option Bool) : State × Option Flt :=
  match uePart s d bs.length with
  | some g => (noteUe s (coreWho k) g, some (0x07, 2, ea))
  | none =>
    let s := pokeMemBy s (some k) d bs
    let s := match tag with
      | some b => s.setTag (d / 16 * 16) b
      | none => s
    let s := match (s.te k).running with
      | some n => if k < 64 then s.modSub n fun b => { b with prog := { b.prog with direct := b.prog.direct ++ [(d, bs.length)] } } else s
      | none => s
    (s, none)

/-- A store of bytes at ea, its alignment and its capability checked before, in the given column; `tag` for a capability
store. -/
def storeIn (s : State) (k : Nat) (col : Col) (ea : Word) (bs : List Byte) (tag : Option Bool) : State × Option Flt :=
  match coreMap s k ea.toNat with
  | .nothing => (s, some (0x07, 1, ea))
  | .reg off =>
    let who := coreWho k
    let v := wordAt bs 0
    if bs.length ≠ 4 then (s, some (0x07, 1, ea))
    else if regRefuses s who off v then (refuseCount s who off v, some (0x07, 5, ea))
    else if k < 64 then
      match sbReg (s.te k).held off v with
      | some h => (s.modTe k fun t => { t with held := h }, none)
      | none => sbOverflow s k ea
    else ({ s with posted := s.posted ++ [(who, off, v)] }, none)
  | .mem d own =>
    let (s, ok) := leveeCheck s (coreWho k) (s.core k).world col .write (coreTable s own) d
    if !ok then (s, some (0x08, 1, ea))
    else if tag.isSome && (!tagged s d || !bitOf (attrOf s own d) 15) then (s, some (0x08, 1, ea))
    else if holds s k own d then
      match sbPut (s.te k).held d bs tag with
      | some h => (s.modTe k fun t => { t with held := h }, none)
      | none => sbOverflow s k ea
    else storeDirect s k ea d bs tag

/-- R338: a misaligned access. -/
def misaligned (ea : Word) (size : Nat) : Bool := ea.toNat % size != 0

/-- R336 step 6: a load of core k, checked against capability register ci under the capability scheme. -/
def coreLoad (s : State) (k ci : Nat) (ea : Word) (size : Nat) : State × Except Flt (List Byte) :=
  if misaligned ea size then (s, .error (0x05, 0, ea))
  else
    let (s, f) := capData s k ci ea size [0]
    match f with
    | some f => (s, .error f)
    | none => loadIn s k (coreCol s k) ea size

/-- R336 step 6: a store of core k. -/
def coreStore (s : State) (k ci : Nat) (ea : Word) (bs : List Byte) : State × Option Flt :=
  if misaligned ea bs.length then (s, some (0x05, 0, ea))
  else
    let (s, f) := capData s k ci ea bs.length [1]
    match f with
    | some f => (s, some f)
    | none => storeIn s k (coreCol s k) ea bs none

/-! ### Completion (R347, R348) -/

/-- R348: the loop check after an instruction that completes without a taken transfer; `next` follows it. -/
def loopCheck (x : CoreSt) (next : Word) : CoreSt :=
  if x.loopinh then { x with pc := next }
  else match [2, 1, 0].find? fun i => nth 0 x.lc i != 0 && nth 0 x.le i == next with
  | some i =>
    let c := nth 0 x.lc i - 1
    { x with lc := setNth x.lc i c, pc := if c = 0 then next else nth 0 x.ls i }
  | none => { x with pc := next }

/-- R521, R522: after an instruction of a channel core: a step halts it again. -/
def afterIns (s : State) (k : Nat) : State :=
  if 64 ≤ k then s
  else
    let s := if (s.dbg k).passed then s.modDbg k fun d => { d with passed := false } else s
    if (s.dbg k).step then haltCore s k 2 else s

/-- What follows the instruction of len bytes that stood at pc. -/
def finish (s : State) (k len : Nat) (pc : Word) : Out → State
  | .done => afterIns (s.modCore k fun x => loopCheck x (pc + BitVec.ofNat 32 len)) k
  | .jump t => afterIns (traceRecord (s.modCore k fun x => { x with pc := t }) k 3 0 t) k
  | .fault code arg fa => trap s k code arg pc fa
  | .brk =>
    let s := s.modCore k fun x => loopCheck x (pc + BitVec.ofNat 32 len)
    if k < 64 ∧ (s.dbg k).brkEn then haltCore (s.modDbg k fun d => { d with passed := false }) k 3 else afterIns s k
  | .exit => routineReturn s k pc

/-- One instruction of core k: breakpoints, the fetch, then what it does (R336, R521). A core that is not at work does
nothing. -/
def runIns (s : State) (k len : Nat) (act : State → State × Out) : State :=
  if !coreGoes s k then s
  else match (if k < 64 then bkptAt s k else none) with
  | some i => haltCore s k (4 + i)
  | none =>
    let pc := (s.core k).pc
    let (s, f) := fetchCheck s k len
    match f with
    | some f => trap s k f.1 f.2.1 pc f.2.2
    | none =>
      let (s, o) := act s
      drain (finish s k len pc o)

/-- R254, R358: cause 0x15 with what the checks of core state found; FADDR is the line at PC for the fetch buffer and a code
line. -/
def eccFault (s : State) (k : Nat) (ecc : Fin 10) : Out :=
  .fault 0x15 ecc.val (if ecc.val = 6 ∨ ecc.val = 7 then (s.core k).pc &&& ~~~15#32 else 0)

/-- A 16-bit instruction (R334: no guard). -/
def run16 (s : State) (c : Short) (body : State → Nat → State × Out) : State :=
  let k := c.core.val
  runIns s k 2 fun s => if c.ecc ≠ 0 then (s, eccFault s k c.ecc) else body s k

/-- A 32-bit instruction (R334 to R336, R351): a reserved encoding, an error of core state (R372), the guard, the emulation trap of a coprocessor opcode,
then its body. -/
def run32 (s : State) (h : Hdr) (word : Word) (reserved : State → Nat → Bool) (cop : Bool)
    (body : State → Nat → State × Out) : State :=
  let k := h.core.val
  runIns s k 4 fun s =>
    if h.pg.val = 0 ∧ h.inv then (s, .fault 0x01 0 word)
    else if !(cop && cxemu s k) && reserved s k then (s, .fault 0x01 0 word)
    else if h.ecc ≠ 0 then (s, eccFault s k h.ecc)
    else if !guardTrue h (s.core k) then (s, .done)
    else if cop && cxemu s k then (s, .fault 0x02 0 word)
    else body s k

/-- No encoding of the row is reserved. -/
def noneReserved (_ : State) (_ : Nat) : Bool := false

/-- R335: MAJOR 0x32 to 0x34 under the level scheme. -/
def capReserved (s : State) (k : Nat) : Bool := !schemeCap s (s.core k).world

end Sys2Proof.Machine
end

