-- ==== Sys2Proof/Machine/IsaAlu.lean ====
section
/-! DEFINITION. Arithmetic, logic, constants and packed decimal (R340, R341, R349). -/

namespace Sys2Proof.Machine

/-- A form R instruction of MAJOR 0x20 (R341). -/
def aluR (s : State) (h : Hdr) (fn rd rs1 rs2 : Nat) (f : Word → Word → Word) : State :=
  run32 s h (formR h 0x20 rd rs1 rs2 fn) noneReserved false fun s k =>
    (setG s k rd (f (gRead (s.core k) rs1) (gRead (s.core k) rs2)), .done)

/-- A form I instruction. -/
def aluI (s : State) (h : Hdr) (major rd rs1 : Nat) (imm : BitVec 10) (f : Word → Word) : State :=
  run32 s h (formI h major rd rs1 imm.toNat) noneReserved false fun s k =>
    (setG s k rd (f (gRead (s.core k) rs1)), .done)

/-- A shift by an immediate. -/
def aluSh (s : State) (h : Hdr) (fn rd rs1 sh : Nat) (f : Word → Word → Word) : State :=
  run32 s h (formR h 0x25 rd rs1 sh fn) noneReserved false fun s k =>
    (setG s k rd (f (gRead (s.core k) rs1) (BitVec.ofNat 32 sh)), .done)

/-- A 16-bit instruction on d := g[rd] and the operand b. -/
def aluS (s : State) (core : Short) (rd : Nat) (b : CoreSt → Word) (f : Word → Word → Word) : State :=
  run16 s core fun s k => (setG s k rd (f (gRead (s.core k) rd) (b (s.core k))), .done)

/-- A packed-decimal instruction of MAJOR 0x31: its result, and ST.DC (R349). -/
def aluDec (s : State) (h : Hdr) (fn rd rs1 rs2 : Nat) (reserved : Bool) (f : Word → Word → Bool → Word × Bool) : State :=
  run32 s h (formR h 0x31 rd rs1 rs2 fn) (fun _ _ => reserved) false fun s k =>
    let x := s.core k
    let r := f (gRead x rs1) (gRead x rs2) x.dc
    ((setG s k rd r.1).modCore k fun x => { x with dc := r.2 }, .done)

/-- ADD (R340, register ALU table). -/
def execAdd (h : Hdr) (rd rs1 rs2 : Fin 32) (s : State) : Outcome :=
  .next (aluR s h 0x00 rd.val rs1.val rs2.val (fun a b => a + b))
/-- SUB (R340, register ALU table). -/
def execSub (h : Hdr) (rd rs1 rs2 : Fin 32) (s : State) : Outcome :=
  .next (aluR s h 0x01 rd.val rs1.val rs2.val (fun a b => a - b))
/-- AND (R340, register ALU table). -/
def execAndR (h : Hdr) (rd rs1 rs2 : Fin 32) (s : State) : Outcome :=
  .next (aluR s h 0x02 rd.val rs1.val rs2.val (fun a b => a &&& b))
/-- OR (R340, register ALU table). -/
def execOrR (h : Hdr) (rd rs1 rs2 : Fin 32) (s : State) : Outcome :=
  .next (aluR s h 0x03 rd.val rs1.val rs2.val (fun a b => a ||| b))
/-- XOR (R340, register ALU table). -/
def execXorR (h : Hdr) (rd rs1 rs2 : Fin 32) (s : State) : Outcome :=
  .next (aluR s h 0x04 rd.val rs1.val rs2.val (fun a b => a ^^^ b))
/-- ANDN (R340, register ALU table). -/
def execAndn (h : Hdr) (rd rs1 rs2 : Fin 32) (s : State) : Outcome :=
  .next (aluR s h 0x05 rd.val rs1.val rs2.val (fun a b => a &&& ~~~b))
/-- SLL (R340, register ALU table). -/
def execSll (h : Hdr) (rd rs1 rs2 : Fin 32) (s : State) : Outcome :=
  .next (aluR s h 0x06 rd.val rs1.val rs2.val shl)
/-- SRL (R340, register ALU table). -/
def execSrl (h : Hdr) (rd rs1 rs2 : Fin 32) (s : State) : Outcome :=
  .next (aluR s h 0x07 rd.val rs1.val rs2.val shr)
/-- SRA (R340, register ALU table). -/
def execSra (h : Hdr) (rd rs1 rs2 : Fin 32) (s : State) : Outcome :=
  .next (aluR s h 0x08 rd.val rs1.val rs2.val sar)
/-- ROR (R340, register ALU table). -/
def execRor (h : Hdr) (rd rs1 rs2 : Fin 32) (s : State) : Outcome :=
  .next (aluR s h 0x09 rd.val rs1.val rs2.val ror)
/-- SLT (R340, register ALU table). -/
def execSlt (h : Hdr) (rd rs1 rs2 : Fin 32) (s : State) : Outcome :=
  .next (aluR s h 0x0A rd.val rs1.val rs2.val sltW)
/-- SLTU (R340, register ALU table). -/
def execSltu (h : Hdr) (rd rs1 rs2 : Fin 32) (s : State) : Outcome :=
  .next (aluR s h 0x0B rd.val rs1.val rs2.val sltuW)
/-- MIN (R340, register ALU table). -/
def execMin (h : Hdr) (rd rs1 rs2 : Fin 32) (s : State) : Outcome :=
  .next (aluR s h 0x0C rd.val rs1.val rs2.val minS)
/-- MAX (R340, register ALU table). -/
def execMax (h : Hdr) (rd rs1 rs2 : Fin 32) (s : State) : Outcome :=
  .next (aluR s h 0x0D rd.val rs1.val rs2.val maxS)
/-- MINU (R340, register ALU table). -/
def execMinu (h : Hdr) (rd rs1 rs2 : Fin 32) (s : State) : Outcome :=
  .next (aluR s h 0x0E rd.val rs1.val rs2.val minU)
/-- MAXU (R340, register ALU table). -/
def execMaxu (h : Hdr) (rd rs1 rs2 : Fin 32) (s : State) : Outcome :=
  .next (aluR s h 0x0F rd.val rs1.val rs2.val maxU)
/-- MUL (R340, register ALU table). -/
def execMul (h : Hdr) (rd rs1 rs2 : Fin 32) (s : State) : Outcome :=
  .next (aluR s h 0x10 rd.val rs1.val rs2.val (fun a b => a * b))
/-- MULH (R340, register ALU table). -/
def execMulh (h : Hdr) (rd rs1 rs2 : Fin 32) (s : State) : Outcome :=
  .next (aluR s h 0x11 rd.val rs1.val rs2.val mulhS)
/-- MULHU (R340, register ALU table). -/
def execMulhu (h : Hdr) (rd rs1 rs2 : Fin 32) (s : State) : Outcome :=
  .next (aluR s h 0x12 rd.val rs1.val rs2.val mulhU)
/-- DIV (R341). -/
def execDiv (h : Hdr) (rd rs1 rs2 : Fin 32) (s : State) : Outcome :=
  .next (aluR s h 0x13 rd.val rs1.val rs2.val divS)
/-- DIVU (R341). -/
def execDivu (h : Hdr) (rd rs1 rs2 : Fin 32) (s : State) : Outcome :=
  .next (aluR s h 0x14 rd.val rs1.val rs2.val divU)
/-- REM (R341). -/
def execRem (h : Hdr) (rd rs1 rs2 : Fin 32) (s : State) : Outcome :=
  .next (aluR s h 0x15 rd.val rs1.val rs2.val remS)
/-- REMU (R341). -/
def execRemu (h : Hdr) (rd rs1 rs2 : Fin 32) (s : State) : Outcome :=
  .next (aluR s h 0x16 rd.val rs1.val rs2.val remU)
/-- CLZ (R340, register ALU table). -/
def execClz (h : Hdr) (rd rs1 : Fin 32) (s : State) : Outcome :=
  .next (aluR s h 0x17 rd.val rs1.val 0 fun a _ => clzW a)
/-- POPC (R340, register ALU table). -/
def execPopc (h : Hdr) (rd rs1 : Fin 32) (s : State) : Outcome :=
  .next (aluR s h 0x18 rd.val rs1.val 0 fun a _ => popcW a)
/-- SEXTB (R340, register ALU table). -/
def execSextb (h : Hdr) (rd rs1 : Fin 32) (s : State) : Outcome :=
  .next (aluR s h 0x19 rd.val rs1.val 0 fun a _ => sext (a.setWidth 8))
/-- SEXTH (R340, register ALU table). -/
def execSexth (h : Hdr) (rd rs1 : Fin 32) (s : State) : Outcome :=
  .next (aluR s h 0x1A rd.val rs1.val 0 fun a _ => sext (a.setWidth 16))
/-- BSWAP (R340, register ALU table). -/
def execBswap (h : Hdr) (rd rs1 : Fin 32) (s : State) : Outcome :=
  .next (aluR s h 0x1B rd.val rs1.val 0 fun a _ => bswapW a)
/-- ADDI (R341, immediate table). -/
def execAddi (h : Hdr) (rd rs1 : Fin 32) (imm : BitVec 10) (s : State) : Outcome :=
  .next (aluI s h 0x21 rd.val rs1.val imm fun a => a + sext imm)
/-- ANDI (R341, immediate table). -/
def execAndi (h : Hdr) (rd rs1 : Fin 32) (imm : BitVec 10) (s : State) : Outcome :=
  .next (aluI s h 0x22 rd.val rs1.val imm fun a => a &&& sext imm)
/-- ORI (R341, immediate table). -/
def execOri (h : Hdr) (rd rs1 : Fin 32) (imm : BitVec 10) (s : State) : Outcome :=
  .next (aluI s h 0x23 rd.val rs1.val imm fun a => a ||| zext imm)
/-- XORI (R341, immediate table). -/
def execXori (h : Hdr) (rd rs1 : Fin 32) (imm : BitVec 10) (s : State) : Outcome :=
  .next (aluI s h 0x24 rd.val rs1.val imm fun a => a ^^^ zext imm)
/-- SLLI (R341, immediate table). -/
def execSlli (h : Hdr) (rd rs1 sh : Fin 32) (s : State) : Outcome :=
  .next (aluSh s h 0 rd.val rs1.val sh.val shl)
/-- SRLI (R341, immediate table). -/
def execSrli (h : Hdr) (rd rs1 sh : Fin 32) (s : State) : Outcome :=
  .next (aluSh s h 1 rd.val rs1.val sh.val shr)
/-- SRAI (R341, immediate table). -/
def execSrai (h : Hdr) (rd rs1 sh : Fin 32) (s : State) : Outcome :=
  .next (aluSh s h 2 rd.val rs1.val sh.val sar)
/-- RORI (R341, immediate table). -/
def execRori (h : Hdr) (rd rs1 sh : Fin 32) (s : State) : Outcome :=
  .next (aluSh s h 3 rd.val rs1.val sh.val ror)
/-- LUI (R341, immediate table). -/
def execLui (h : Hdr) (rd : Fin 32) (imm : Half) (s : State) : Outcome :=
  .next (run32 s h (formK h 0x2E rd.val imm.toNat) noneReserved false fun s k => (setG s k rd.val (zext imm <<< 16), .done))
/-- LLO (R341, immediate table). -/
def execLlo (h : Hdr) (rd : Fin 32) (imm : Half) (s : State) : Outcome :=
  .next (run32 s h (formK h 0x2C rd.val imm.toNat) noneReserved false fun s k =>
    (setG s k rd.val (gRead (s.core k) rd.val &&& 0xFFFF0000#32 ||| zext imm), .done))
/-- MOV_S (R341, ALU.S table). -/
def execMovS (core : Short) (rd rs : Fin 16) (s : State) : Outcome :=
  .next (aluS s core rd.val (gRead · rs.val) (fun _ b => b))
/-- ADD_S (R341, ALU.S table). -/
def execAddS (core : Short) (rd rs : Fin 16) (s : State) : Outcome :=
  .next (aluS s core rd.val (gRead · rs.val) (fun a b => a + b))
/-- SUB_S (R341, ALU.S table). -/
def execSubS (core : Short) (rd rs : Fin 16) (s : State) : Outcome :=
  .next (aluS s core rd.val (gRead · rs.val) (fun a b => a - b))
/-- AND_S (R341, ALU.S table). -/
def execAndS (core : Short) (rd rs : Fin 16) (s : State) : Outcome :=
  .next (aluS s core rd.val (gRead · rs.val) (fun a b => a &&& b))
/-- OR_S (R341, ALU.S table). -/
def execOrS (core : Short) (rd rs : Fin 16) (s : State) : Outcome :=
  .next (aluS s core rd.val (gRead · rs.val) (fun a b => a ||| b))
/-- XOR_S (R341, ALU.S table). -/
def execXorS (core : Short) (rd rs : Fin 16) (s : State) : Outcome :=
  .next (aluS s core rd.val (gRead · rs.val) (fun a b => a ^^^ b))
/-- SLL_S (R341, ALU.S table). -/
def execSllS (core : Short) (rd rs : Fin 16) (s : State) : Outcome :=
  .next (aluS s core rd.val (gRead · rs.val) shl)
/-- SRL_S (R341, ALU.S table). -/
def execSrlS (core : Short) (rd rs : Fin 16) (s : State) : Outcome :=
  .next (aluS s core rd.val (gRead · rs.val) shr)
/-- SRA_S (R341, ALU.S table). -/
def execSraS (core : Short) (rd rs : Fin 16) (s : State) : Outcome :=
  .next (aluS s core rd.val (gRead · rs.val) sar)
/-- MUL_S (R341, ALU.S table). -/
def execMulS (core : Short) (rd rs : Fin 16) (s : State) : Outcome :=
  .next (aluS s core rd.val (gRead · rs.val) (fun a b => a * b))
/-- NEG_S (R341, ALU.S table). -/
def execNegS (core : Short) (rd rs : Fin 16) (s : State) : Outcome :=
  .next (aluS s core rd.val (gRead · rs.val) (fun _ b => -b))
/-- NOT_S (R341, ALU.S table). -/
def execNotS (core : Short) (rd rs : Fin 16) (s : State) : Outcome :=
  .next (aluS s core rd.val (gRead · rs.val) (fun _ b => ~~~b))
/-- SLLI_S (R341, ALU.S table): by RS + 1. -/
def execSlliS (core : Short) (rd rs : Fin 16) (s : State) : Outcome :=
  .next (aluS s core rd.val (fun _ => BitVec.ofNat 32 (rs.val + 1)) shl)
/-- SRLI_S (R341, ALU.S table): by RS + 1. -/
def execSrliS (core : Short) (rd rs : Fin 16) (s : State) : Outcome :=
  .next (aluS s core rd.val (fun _ => BitVec.ofNat 32 (rs.val + 1)) shr)
/-- SRAI_S (R341, ALU.S table): by RS + 1. -/
def execSraiS (core : Short) (rd rs : Fin 16) (s : State) : Outcome :=
  .next (aluS s core rd.val (fun _ => BitVec.ofNat 32 (rs.val + 1)) sar)
/-- ADDI_S (R341). -/
def execAddiS (core : Short) (rd : Fin 16) (imm : Byte) (s : State) : Outcome :=
  .next (aluS s core rd.val (fun _ => sext imm) fun a b => a + b)
/-- LI_S (R341). -/
def execLiS (core : Short) (rd : Fin 16) (imm : Byte) (s : State) : Outcome :=
  .next (aluS s core rd.val (fun _ => sext imm) fun _ b => b)

/-- DADD (R349). -/
def execDadd (h : Hdr) (rd rs1 rs2 : Fin 32) (s : State) : Outcome :=
  .next (aluDec s h 0 rd.val rs1.val rs2.val false fun a b _ => decAdd a b false)
/-- DADDC (R349). -/
def execDaddc (h : Hdr) (rd rs1 rs2 : Fin 32) (s : State) : Outcome :=
  .next (aluDec s h 1 rd.val rs1.val rs2.val false fun a b c => decAdd a b c)
/-- DSUB (R349). -/
def execDsub (h : Hdr) (rd rs1 rs2 : Fin 32) (s : State) : Outcome :=
  .next (aluDec s h 2 rd.val rs1.val rs2.val false fun a b _ => decSub a b false)
/-- DSUBC (R349). -/
def execDsubc (h : Hdr) (rd rs1 rs2 : Fin 32) (s : State) : Outcome :=
  .next (aluDec s h 3 rd.val rs1.val rs2.val false fun a b c => decSub a b c)
/-- DADJ (R349): N of 1 to 8; the others are reserved. -/
def execDadj (h : Hdr) (rd rs1 n : Fin 32) (s : State) : Outcome :=
  .next (aluDec s h 4 rd.val rs1.val n.val (n.val == 0 || decide (8 < n.val)) fun a _ _ => decAdj a n.val)
/-- DCVT_BD (R349). -/
def execDcvtBd (h : Hdr) (rd rs1 : Fin 32) (s : State) : Outcome :=
  .next (aluDec s h 5 rd.val rs1.val 0 false fun a _ _ => decPack a)
/-- DCVT_DB (R349). -/
def execDcvtDb (h : Hdr) (rd rs1 : Fin 32) (s : State) : Outcome :=
  .next (aluDec s h 6 rd.val rs1.val 0 false fun a _ _ => decUnpack a)

end Sys2Proof.Machine
end

