-- ==== Sys2Proof/Machine/IsaBranch.lean ====
section
/-! DEFINITION. Branches, the return stack, hardware loops (R343 to R347). -/

namespace Sys2Proof.Machine

/-- R344: push onto the return stack; none when it traps. -/
def rsPush (trap : Bool) (st : List Word) (v : Word) : Option (List Word) :=
  if st.length < 8 then some (v :: st) else if trap then none else some (v :: st.take 7)

/-- A transfer to t that pushes v first (R343, R344). -/
def callTo (s : State) (k : Nat) (v t : Word) : State × Out :=
  let x := s.core k
  match rsPush (rstrap s x.world) x.rs v with
  | none => (s, .fault 0x0F 0 v)
  | some st => (s.modCore k fun x => { x with rs := st }, .jump t)

/-- R344, R345: a return through the return stack. -/
def returnTo (s : State) (k : Nat) : State × Out :=
  match (s.core k).rs with
  | [] => (s, .fault 0x10 0 0)
  | v :: st =>
    let s := s.modCore k fun x => { x with rs := st }
    (s, if k < 64 ∧ v = 0xFFFFFFF0#32 then .exit else .jump v)

/-- BRA (R343). -/
def execBra (h : Hdr) (off : BitVec 20) (s : State) : Outcome :=
  .next (run32 s h (formB h 0x29 off.toNat) noneReserved false fun s k => (s, .jump ((s.core k).pc + halfOff off)))
/-- CALL (R343). -/
def execCall (h : Hdr) (off : BitVec 20) (s : State) : Outcome :=
  .next (run32 s h (formB h 0x2A off.toNat) noneReserved false fun s k =>
    callTo s k ((s.core k).pc + 4) ((s.core k).pc + halfOff off))
/-- BRA_S (R343). -/
def execBraS (core : Short) (off : BitVec 13) (s : State) : Outcome :=
  .next (run16 s core fun s k => (s, .jump ((s.core k).pc + halfOff off)))
/-- JMPR (R343). -/
def execJmpr (h : Hdr) (rs1 : Fin 32) (s : State) : Outcome :=
  .next (run32 s h (formR h 0x2B 0 rs1.val 0 0) noneReserved false fun s k => (s, .jump (gRead (s.core k) rs1.val)))
/-- CALLR (R343). -/
def execCallr (h : Hdr) (rs1 : Fin 32) (s : State) : Outcome :=
  .next (run32 s h (formR h 0x2B 0 rs1.val 0 1) noneReserved false fun s k =>
    callTo s k ((s.core k).pc + 4) (gRead (s.core k) rs1.val))
/-- RET (R343, R345). -/
def execRet (h : Hdr) (s : State) : Outcome :=
  .next (run32 s h (formR h 0x2B 0 0 0 2) noneReserved false returnTo)
/-- RSPUSH (R344). -/
def execRspush (h : Hdr) (rs1 : Fin 32) (s : State) : Outcome :=
  .next (run32 s h (formR h 0x2B 0 rs1.val 0 3) noneReserved false fun s k =>
    let x := s.core k
    let v := gRead x rs1.val
    match rsPush (rstrap s x.world) x.rs v with
    | none => (s, .fault 0x0F 0 v)
    | some st => (s.modCore k fun x => { x with rs := st }, .done))
/-- RSPOP (R344). -/
def execRspop (h : Hdr) (rd : Fin 32) (s : State) : Outcome :=
  .next (run32 s h (formR h 0x2B rd.val 0 0 4) noneReserved false fun s k =>
    match (s.core k).rs with
    | [] => (s, .fault 0x10 0 0)
    | v :: st => (setG (s.modCore k fun x => { x with rs := st }) k rd.val v, .done))
/-- RSDEPTH (R343). -/
def execRsdepth (h : Hdr) (rd : Fin 32) (s : State) : Outcome :=
  .next (run32 s h (formR h 0x2B rd.val 0 0 5) noneReserved false fun s k =>
    (setG s k rd.val (BitVec.ofNat 32 (s.core k).rs.length), .done))
/-- NOP_S (R343, MISC.S table). -/
def execNopS (core : Short) (s : State) : Outcome := .next (run16 s core fun s _ => (s, .done))
/-- RET_S (R343, MISC.S table). -/
def execRetS (core : Short) (s : State) : Outcome := .next (run16 s core returnTo)
/-- JMPR_S (R343, MISC.S table). -/
def execJmprS (core : Short) (rs : Fin 16) (s : State) : Outcome :=
  .next (run16 s core fun s k => (s, .jump (gRead (s.core k) rs.val)))
/-- CALLR_S (R343, MISC.S table): it pushes PC + 2. -/
def execCallrS (core : Short) (rs : Fin 16) (s : State) : Outcome :=
  .next (run16 s core fun s k => callTo s k ((s.core k).pc + 2) (gRead (s.core k) rs.val))
/-- BT_S (R343, MISC.S table). -/
def execBtS (core : Short) (p : Fin 8) (off : BitVec 6) (s : State) : Outcome :=
  .next (run16 s core fun s k =>
    (s, if pRead (s.core k) p.val then .jump ((s.core k).pc + halfOff off) else .done))
/-- BF_S (R343, MISC.S table). -/
def execBfS (core : Short) (p : Fin 8) (off : BitVec 6) (s : State) : Outcome :=
  .next (run16 s core fun s k =>
    (s, if pRead (s.core k) p.val then .done else .jump ((s.core k).pc + halfOff off)))

/-- R347: LOOP takes cause 0x11 at level lvl with end address e. -/
def loopBad (x : CoreSt) (lvl endoff : Nat) (e : Word) : Bool :=
  endoff == 0 || ((List.range 3).any fun i => decide (lvl ≤ i) && nth 0 x.lc i != 0) ||
    (decide (0 < lvl) && (nth 0 x.lc (lvl - 1) == 0 || (nth 0 x.le (lvl - 1)).ule e))

/-- LOOP (R347): level 3, and CI = 1 with CNT = 0, are reserved. -/
def execLoop (h : Hdr) (lvl : Fin 4) (ci : Bool) (cnt : BitVec 7) (rs : Fin 32) (endoff : BitVec 10) (s : State) : Outcome :=
  .next (run32 s h (formL h lvl.val (b2n ci) cnt.toNat rs.val endoff.toNat)
    (fun _ _ => lvl.val == 3 || (ci && cnt == 0)) false fun s k =>
    let x := s.core k
    let start := x.pc + 4
    let e := start + BitVec.ofNat 32 (2 * endoff.toNat)
    let count := if ci then zext cnt else gRead x rs.val
    if loopBad x lvl.val endoff.toNat e then (s, .fault 0x11 lvl.val e)
    else
      let s := s.modCore k fun x => { x with ls := setNth x.ls lvl.val start, le := setNth x.le lvl.val e }
      if count = 0 then (s, .jump e)
      else (s.modCore k fun x => { x with lc := setNth x.lc lvl.val count }, .done))

end Sys2Proof.Machine
end

