-- ==== Sys2Proof/Machine/IsaCap.lean ====
section
/-! DEFINITION. Capability instructions (R350, R396 to R400) and gates (R407 to R409). -/

namespace Sys2Proof.Machine

/-! ### Capabilities in registers -/

/-- A capability instruction of MAJOR 0x34; reserved under the level scheme (R335). -/
def capIns (s : State) (h : Hdr) (cd ca rs1 rs2 fn : Nat) (body : State → Nat → State × Out) : State :=
  run32 s h (formCA h cd ca rs1 rs2 fn) capReserved false body

/-- A fault of a derivation: its FADDR is not stated for an instruction without an address (log entry 30). -/
def capFault (s : State) (code arg : Nat) : State × Out :=
  let (s, v) := s.free
  (s, .fault code arg (v.setWidth 32))

/-- A capability register takes a value. -/
def setC (s : State) (k i : Nat) (c : Cap) : State := s.modCore k fun x => cWrite x i c

/-- R396: only a sound capability stays tagged. -/
def tagSound (c : Cap) : Cap := { c with tag := c.tag && capSound c }

/-- CMOV (R350). -/
def execCmov (h : Hdr) (cd ca : Fin 8) (s : State) : Outcome :=
  .next (capIns s h cd.val ca.val 0 0 0 fun s k => (setC s k cd.val (cRead (s.core k) ca.val), .done))
/-- CCLR (R350). -/
def execCclr (h : Hdr) (cd : Fin 8) (s : State) : Outcome :=
  .next (capIns s h cd.val 0 0 0 1 fun s k => (setC s k cd.val {}, .done))

/-- A range set into a capability. -/
def capRange (c : Cap) (base len : Word) : Cap :=
  { c with body := setFld (setFld c.body 31 0 base.toNat) 63 32 len.toNat }

/-- CSETB (R350, R398): only narrowing. -/
def execCsetb (h : Hdr) (cd ca : Fin 8) (rs1 rs2 : Fin 32) (s : State) : Outcome :=
  .next (capIns s h cd.val ca.val rs1.val rs2.val 2 fun s k =>
    let x := s.core k
    let c := cRead x ca.val
    let base := gRead x rs1.val
    let len := gRead x rs2.val
    if !c.tag then capFault s 0x09 ca.val
    else if base.toNat < capBase c ∨ capBase c + capLen c < base.toNat + len.toNat then capFault s 0x0A ca.val
    else if capSealed c then capFault s 0x0B ca.val
    else (setC s k cd.val (capRange c base len), .done))
/-- CANDP (R350, R398). -/
def execCandp (h : Hdr) (cd ca : Fin 8) (rs1 : Fin 32) (s : State) : Outcome :=
  .next (capIns s h cd.val ca.val rs1.val 0 3 fun s k =>
    let x := s.core k
    let c := cRead x ca.val
    if !c.tag then capFault s 0x09 ca.val
    else if capSealed c then capFault s 0x0B ca.val
    else (setC s k cd.val { c with body := setFld c.body 79 64 (capPerms c &&& fld (gRead x rs1.val) 15 0) }, .done))
/-- CSEAL (R350, R398, R399). -/
def execCseal (h : Hdr) (cd ca : Fin 8) (rs1 : Fin 32) (s : State) : Outcome :=
  .next (capIns s h cd.val ca.val rs1.val 0 4 fun s k =>
    let x := s.core k
    let c := cRead x ca.val
    let t := fld (gRead x rs1.val) 11 0
    if !c.tag then capFault s 0x09 ca.val
    else if capSealed c then capFault s 0x0B ca.val
    else if !capPerm x.pcc 5 ∨ t ≠ capOtype x.pcc then capFault s 0x0B 8
    else (setC s k cd.val { c with body := setFld (setFld c.body 91 80 t) 93 93 1 }, .done))
/-- CUNSEAL (R350, R398): the authority is c[RS2 [2:0]]; RS2 [4:3] not 0 is reserved. -/
def execCunseal (h : Hdr) (cd ca : Fin 8) (rs2 : Fin 32) (s : State) : Outcome :=
  .next (run32 s h (formCA h cd.val ca.val 0 rs2.val 5) (fun s k => capReserved s k || decide (8 ≤ rs2.val)) false fun s k =>
    let x := s.core k
    let c := cRead x ca.val
    let a := cRead x rs2.val
    if !c.tag then capFault s 0x09 ca.val
    else if !a.tag then capFault s 0x09 rs2.val
    else if !capSealed c then capFault s 0x0B ca.val
    else if capOtype a ≠ capOtype c then capFault s 0x0B rs2.val
    else match capUse s k a none [6] with
    | (s, some code) => capFault s code rs2.val
    | (s, none) => (setC s k cd.val { c with body := setFld c.body 93 93 0 }, .done))

/-- R350: the field of a capability that CGET reads. -/
def capField (c : Cap) (sel : Nat) : Nat :=
  if sel = 0 then capBase c
  else if sel = 1 then capLen c
  else if sel = 2 then capPerms c
  else if sel = 3 then capOtype c
  else if sel = 4 then capEpoch c
  else b2n c.tag + 2 * b2n (capSealed c) + 4 * worldBit (capWorld c)

/-- CGET (R350): selectors 6 to 31 are reserved. -/
def execCget (h : Hdr) (rs1 : Fin 32) (ca : Fin 8) (sel : Fin 32) (s : State) : Outcome :=
  .next (run32 s h (formCA h 0 ca.val rs1.val sel.val 6) (fun s k => capReserved s k || decide (6 ≤ sel.val)) false fun s k =>
    (setG s k rs1.val (BitVec.ofNat 32 (capField (cRead (s.core k) ca.val) sel.val)), .done))
/-- CJMP (R350, R400): tag, sealing, EXEC, world and epoch are checked first. -/
def execCjmp (h : Hdr) (ca : Fin 8) (rs2 : Fin 32) (s : State) : Outcome :=
  .next (capIns s h 0 ca.val 0 rs2.val 7 fun s k =>
    let x := s.core k
    let c := cRead x ca.val
    match capUse s k c none [2] with
    | (s, some code) => capFault s code ca.val
    | (s, none) => (s.modCore k fun x => { x with pcc := c }, .jump (gRead x rs2.val)))

/-! ### Capabilities in memory (R350, R396) -/

/-- The tag of the granule at a core address, with the store buffer over it. -/
def tagAt (s : State) (k : Nat) (ea : Word) : Bool :=
  match coreMap s k ea.toNat with
  | .mem d own =>
    if !tagged s d then false
    else match (if holds s k own d then sbTag (s.te k).held d else none) with
      | some b => b
      | none => s.tags.contains (d / 16 * 16)
  | _ => false

/-- The 16 bytes at an address and their tag, read in column P. -/
def loadCap (s : State) (k : Nat) (ea : Word) : State × Except Flt Cap :=
  let t := tagAt s k ea
  match loadIn s k .p ea 16 with
  | (s, .error f) => (s, .error f)
  | (s, .ok bs) => (s, .ok (tagSound { body := BitVec.ofNat 128 (ofBytes bs), tag := t }))

/-- R350: the address of CLC and CSC. -/
def capAddr (x : CoreSt) (rs : Nat) (disp : BitVec 9) : Word := gRead x rs + sext disp <<< 4

/-- CLC (R350, R396, R397): without LOAD_CAP the loaded tag is 0. -/
def execClc (h : Hdr) (cd : Fin 8) (rs : Fin 32) (cs : Fin 8) (disp : BitVec 9) (s : State) : Outcome :=
  .next (run32 s h (formCM h 0x32 cd.val rs.val cs.val disp.toNat) capReserved false fun s k =>
    let x := s.core k
    let ea := capAddr x rs.val disp
    if misaligned ea 16 then (s, .fault 0x05 0 ea)
    else match capData s k cs.val ea 16 [0] with
    | (s, some f) => (s, outFault f)
    | (s, none) =>
      match loadCap s k ea with
      | (s, .error f) => (s, outFault f)
      | (s, .ok c) => (setC s k cd.val { c with tag := c.tag && capPerm (cRead x cs.val) 3 }, .done))
/-- CSC (R350, R396, R397): a tagged capability needs STORE_CAP. -/
def execCsc (h : Hdr) (cd : Fin 8) (rs : Fin 32) (cs : Fin 8) (disp : BitVec 9) (s : State) : Outcome :=
  .next (run32 s h (formCM h 0x33 cd.val rs.val cs.val disp.toNat) capReserved false fun s k =>
    let x := s.core k
    let c := cRead x cd.val
    let ea := capAddr x rs.val disp
    if misaligned ea 16 then (s, .fault 0x05 0 ea)
    else match capData s k cs.val ea 16 (if c.tag then [1, 4] else [1]) with
    | (s, some f) => (s, outFault f)
    | (s, none) =>
      match storeIn s k .p ea (toBytes 16 c.body.toNat) (some (tagSound c).tag) with
      | (s, some f) => (s, outFault f)
      | (s, none) => (s, .done))

/-! ### Gates (R407 to R409) -/

/-- An argument specification. -/
structure GSpec where
  kind : Nat
  max : Nat
  lenreg : Nat
  rd : Bool
  wr : Bool
  fixlen : Nat
  deriving DecidableEq, Repr

/-- The specification of argument g[i], i = 4 to 9, in a descriptor. -/
def gateSpec (d : List Byte) (i : Nat) : GSpec :=
  let v := BitVec.ofNat 16 (ofBytes ((d.drop (12 + 2 * (i - 4))).take 2))
  { kind := fld v 1 0, max := fld v 15 2, lenreg := fld v 4 2, rd := bitOf v 5, wr := bitOf v 6, fixlen := fld v 15 7 }

/-- The registers that carry arguments. -/
def gateArgs : List Nat := [4, 5, 6, 7, 8, 9]

/-- R409: the descriptor may be called: VALID, no reserved field set, no reserved specification. -/
def gateValid (d : List Byte) : Bool :=
  bitOf (wordAt d 0) 0 && fld (wordAt d 1) 3 0 == 0 && fld (wordAt d 2) 7 1 == 0 && fld (wordAt d 2) 31 16 == 0 &&
    wordAt d 6 == 0 && wordAt d 7 == 0 && gateArgs.all fun i => (gateSpec d i).kind != 2 || (gateSpec d i).lenreg != 7

/-- The length of a pointer argument. -/
def gateLen (x : CoreSt) (g : GSpec) : Nat :=
  if g.lenreg = 6 then g.fixlen * 16 else (gRead x (4 + g.lenreg)).toNat

/-- R27: the rows of the core address map that memory answers. -/
def mapRow (a : Nat) : Nat :=
  if a < 0x10000 then 0 else if a < 0x20000 then 1 else if a < 0x40000 then 2 else 3 + a / 0x40000000

/-- R409: the rights over [a, a + len) under the level scheme: within one row of the core address map, and within the
deciding region of its first byte. -/
def gateRange (s : State) (k a len : Nat) (g : GSpec) : Bool :=
  let x := s.core k
  len == 0 || match coreMap s k a, coreMap s k (a + len - 1) with
  | .mem d own, .mem d' _ =>
    let t := coreTable s own
    mapRow a == mapRow (a + len - 1) && match deciding t (d / 4096) with
      | some (i, attr) =>
        decide (d' / 4096 ≤ (t i).2.1) && (!g.rd || grants attr x.world (coreCol s k) .read) &&
          (!g.wr || grants attr x.world (coreCol s k) .write)
      | none => false
  | _, _ => false

/-- R409: the check of one argument. -/
def gateArg (s : State) (k : Nat) (d : List Byte) (i : Nat) : State × Bool :=
  let x := s.core k
  let g := gateSpec d i
  let v := gRead x i
  if g.kind = 1 then (s, decide (v.toNat ≤ g.max))
  else if g.kind ≠ 2 then (s, true)
  else
    let len := gateLen x g
    if 2 ^ 32 < v.toNat + len then (s, false)
    else if schemeCap s x.world then
      let (s, e) := capUse s k (cRead x 0) (some (v.toNat, len)) ((if g.rd then [0] else []) ++ if g.wr then [1] else [])
      (s, e.isNone)
    else (s, gateRange s k v.toNat len g)

/-- The arguments in ascending order: the first that fails. -/
def gateCheck (s : State) (k : Nat) (d : List Byte) : List Nat → State × Option Nat
  | [] => (s, none)
  | i :: is =>
    let (s, ok) := gateArg s k d i
    if ok then gateCheck s k d is else (s, some i)

/-- The caller's c0 narrowed to a pointer argument. -/
def gateCap (x : CoreSt) (d : List Byte) (i : Nat) : Cap :=
  let g := gateSpec d i
  if g.kind = 2 then
    let c := capRange (cRead x 0) (gRead x i) (BitVec.ofNat 32 (gateLen x g))
    { c with body := setFld c.body 79 64 (b2n g.rd + 2 * b2n g.wr) }
  else {}

/-- R408: the frame that GATE writes. -/
def gateFrame (x : CoreSt) (cap : Bool) (n : Nat) (ret : Word) : List Byte :=
  wordsBytes [ret, gRead x 31, pack [(0, 10, n), (10, 1, b2n (x.lvl && !cap))], BitVec.ofNat 32 (x.gates.length + 1)]

/-- R409: the switch of a GATE. -/
def gateSwitch (x : CoreSt) (cap : Bool) (d : List Byte) (pcc c0 : Cap) : CoreSt :=
  let x' := if cap then
      let args := gateArgs.map (gateCap x d)
      { x with pcc := pcc, c := [c0] ++ args ++ [{}] }
    else { x with lvl := bitOf (wordAt d 2) 0 }
  gateArgs.foldl (fun y i => if (gateSpec d i).kind = 3 then gWrite y i 0 else y) x'

/-- R409: GATE, from its argument checks on. -/
def gateEnter (s : State) (k n : Nat) (d : List Byte) (pcc c0 : Cap) : State × Out :=
  let x := s.core k
  let cap := schemeCap s x.world
  let top := wordAt d 1 - 16
  if x.gates.length = 4 ∨ (x.gates.any fun r => r.num == n) ∨ wordAt d 1 = 0 then (s, .fault 0x14 0 top)
  else match gateCheck s k d gateArgs with
  | (s, some i) => (s, .fault 0x0D i (gRead x i))
  | (s, none) =>
    match storeIn s k .p top (gateFrame x cap n (x.pc + 4)) none with
    | (s, some f) => (s, if f.1 = 0x08 then .fault 0x14 0 top else outFault f)
    | (s, none) =>
      let new : GateRec := { num := n, frame := top, pcc := if cap then x.pcc else {}, c0 := if cap then cRead x 0 else {} }
      (s.modCore k fun x => gateSwitch (gWrite { x with gates := new :: x.gates } 31 top) cap d pcc c0,
        .jump (wordAt d 0 &&& 0xFFFFFFFE#32))

/-- R409: an entry of the gate authority table may be used. -/
def gateAuthOk (s : State) (k : Nat) (c : Cap) : Bool := c.tag && !capSealed c && capWorld c == (s.core k).world

/-- GATE (R409, R407): its reads are checked in column P. -/
def execGate (h : Hdr) (n : Fin 1024) (s : State) : Outcome :=
  .next (run32 s h (formN h 0 n.val 0x06) noneReserved false fun s k =>
    let x := s.core k
    let num := BitVec.ofNat 32 n.val
    if x.gtcount ≤ n.val then (s, .fault 0x0E 0 num)
    else match loadIn s k .p (x.gtbase + BitVec.ofNat 32 (32 * n.val)) 32 with
    | (s, .error f) => (s, outFault f)
    | (s, .ok d) =>
      if !gateValid d then (s, .fault 0x0E 0 num)
      else if !schemeCap s x.world then gateEnter s k n.val d {} {}
      else
        let a := x.gauth + BitVec.ofNat 32 (32 * fld (wordAt d 2) 15 8)
        match loadCap s k a with
        | (s, .error f) => (s, outFault f)
        | (s, .ok pcc) =>
          match loadCap s k (a + 16) with
          | (s, .error f) => (s, outFault f)
          | (s, .ok c0) =>
            if !gateAuthOk s k pcc || !gateAuthOk s k c0 then (s, .fault 0x0E 0 num) else gateEnter s k n.val d pcc c0)
/-- GRET (R409). -/
def execGret (h : Hdr) (s : State) : Outcome :=
  .next (run32 s h (formR h 0x2B 0 0 0 0x07) noneReserved false fun s k =>
    match (s.core k).gates with
    | [] => (s, .fault 0x14 0 0)
    | r :: rest =>
      match loadIn s k .p r.frame 16 with
      | (s, .error f) => (s, outFault f)
      | (s, .ok f) =>
        if fld (wordAt f 2) 9 0 ≠ r.num then (s, .fault 0x14 0 r.frame)
        else
          let cap := schemeCap s (s.core k).world
          let s := s.modCore k fun x => gWrite { x with gates := rest } 31 (wordAt f 1)
          let s := s.modCore k fun x =>
            if cap then { x with pcc := r.pcc, c := [r.c0] ++ List.replicate 7 {} } else { x with lvl := bitOf (wordAt f 2) 10 }
          (s, .jump (wordAt f 0)))

end Sys2Proof.Machine
end

