-- ==== Sys2Proof/Machine/IsaCop.lean ====
section
/-! DEFINITION. The coprocessors: digest and CRC, Sift access, field image, timebase (R351 to R356). -/

namespace Sys2Proof.Machine

/-- A coprocessor instruction: MAJOR 0x38 to 0x3B (R351). -/
def copIns (s : State) (h : Hdr) (major rd rs1 rs2 cfn : Nat) (body : State → Nat → State × Out) : State :=
  run32 s h (formR h major rd rs1 rs2 cfn) noneReserved true body

/-! ### Digest and CRC (R352) -/

/-- The low byte, and the four bytes in byte order. -/
def lowByte (w : Word) : List Byte := [w.setWidth 8]
def allBytes (w : Word) : List Byte := toBytes 4 w.toNat

/-- CRC16_B and CRC16_W over bytes. -/
def crc16Ins (s : State) (h : Hdr) (rd rs1 rs2 cfn : Nat) (bs : Word → List Byte) : State :=
  copIns s h 0x38 rd rs1 rs2 cfn fun s k =>
    let x := s.core k
    (setG s k rd (zext ((bs (gRead x rs2)).foldl crc16Step ((gRead x rs1).setWidth 16))), .done)

/-- CRC32C_B and CRC32C_W over bytes. -/
def crc32Ins (s : State) (h : Hdr) (rd rs1 rs2 cfn : Nat) (bs : Word → List Byte) : State :=
  copIns s h 0x38 rd rs1 rs2 cfn fun s k =>
    let x := s.core k
    (setG s k rd ((bs (gRead x rs2)).foldl crc32cStep (gRead x rs1)), .done)

/-- CRC16_B (R352). -/
def execCrc16B (h : Hdr) (rd rs1 rs2 : Fin 32) (s : State) : Outcome :=
  .next (crc16Ins s h rd.val rs1.val rs2.val 0 lowByte)
/-- CRC16_W (R352). -/
def execCrc16W (h : Hdr) (rd rs1 rs2 : Fin 32) (s : State) : Outcome :=
  .next (crc16Ins s h rd.val rs1.val rs2.val 1 allBytes)
/-- CRC32C_B (R352). -/
def execCrc32cB (h : Hdr) (rd rs1 rs2 : Fin 32) (s : State) : Outcome :=
  .next (crc32Ins s h rd.val rs1.val rs2.val 2 lowByte)
/-- CRC32C_W (R352). -/
def execCrc32cW (h : Hdr) (rd rs1 rs2 : Fin 32) (s : State) : Outcome :=
  .next (crc32Ins s h rd.val rs1.val rs2.val 3 allBytes)
/-- C64INIT (R352). -/
def execC64init (h : Hdr) (s : State) : Outcome :=
  .next (copIns s h 0x38 0 0 0 4 fun s k => (s.modCore k fun x => { x with acc := 0 }, .done))
/-- C64_W (R352). -/
def execC64W (h : Hdr) (rs2 : Fin 32) (s : State) : Outcome :=
  .next (copIns s h 0x38 0 0 rs2.val 5 fun s k =>
    (s.modCore k fun x => { x with acc := (allBytes (gRead x rs2.val)).foldl crc64Step x.acc }, .done))
/-- C64LO (R352). -/
def execC64lo (h : Hdr) (rd : Fin 32) (s : State) : Outcome :=
  .next (copIns s h 0x38 rd.val 0 0 6 fun s k => (setG s k rd.val ((s.core k).acc.setWidth 32), .done))
/-- C64HI (R352). -/
def execC64hi (h : Hdr) (rd : Fin 32) (s : State) : Outcome :=
  .next (copIns s h 0x38 rd.val 0 0 7 fun s k => (setG s k rd.val (((s.core k).acc >>> 32).setWidth 32), .done))

/-! ### Sift access (R353) -/

/-- Sample i of the bit-plane buffer. -/
def sxAt (x : CoreSt) (i : Nat) : Half := nth 0 x.sx i

/-- k and m of g[RS1]. -/
def sxK (v : Word) : Nat := fld v 3 0
def sxM (v : Word) : Nat := fld v 6 4

/-- R301: a mask over the planes. -/
def sxMask (x : CoreSt) (b : Bool) : Nat := foldN 16 (fun a k => a + b2n (x.sx.all fun v => bitOf v k == b) * 2 ^ k) 0

/-- SXCLR (R353). -/
def execSxclr (h : Hdr) (s : State) : Outcome :=
  .next (copIns s h 0x39 0 0 0 0 fun s k => (s.modCore k fun x => { x with sx := List.replicate 256 0, idx := 0 }, .done))
/-- SXPUT (R353). -/
def execSxput (h : Hdr) (rs1 : Fin 32) (s : State) : Outcome :=
  .next (copIns s h 0x39 0 rs1.val 0 1 fun s k =>
    (s.modCore k fun x =>
      let v := gRead x rs1.val
      if x.idx ≤ 254 then
        { x with sx := setNth (setNth x.sx x.idx (v.setWidth 16)) (x.idx + 1) ((v >>> 16).setWidth 16), idx := x.idx + 2 }
      else x, .done))
/-- SXPLN (R353). -/
def execSxpln (h : Hdr) (rd rs1 : Fin 32) (s : State) : Outcome :=
  .next (copIns s h 0x39 rd.val rs1.val 0 2 fun s k =>
    let x := s.core k
    let v := gRead x rs1.val
    (setG s k rd.val (BitVec.ofNat 32 (foldN 32 (fun a i => a + b2n (bitOf (sxAt x (32 * sxM v + i)) (sxK v)) * 2 ^ i) 0)),
      .done))
/-- SXMSK (R353, R301). -/
def execSxmsk (h : Hdr) (rd : Fin 32) (s : State) : Outcome :=
  .next (copIns s h 0x39 rd.val 0 0 3 fun s k =>
    let x := s.core k
    (setG s k rd.val (BitVec.ofNat 32 (sxMask x false + 65536 * sxMask x true)), .done))
/-- SXPPL (R353). -/
def execSxppl (h : Hdr) (rs1 rs2 : Fin 32) (s : State) : Outcome :=
  .next (copIns s h 0x39 0 rs1.val rs2.val 4 fun s k =>
    (s.modCore k fun x =>
      let v := gRead x rs1.val
      let b := gRead x rs2.val
      { x with sx := foldN 32 (fun l i =>
          setNth l (32 * sxM v + i) (setBit (nth 0 l (32 * sxM v + i)) (sxK v) (bitOf b i))) x.sx }, .done))
/-- SXGET (R353). -/
def execSxget (h : Hdr) (rd : Fin 32) (s : State) : Outcome :=
  .next (copIns s h 0x39 rd.val 0 0 5 fun s k =>
    let x := s.core k
    if x.idx ≤ 254 then
      ((setG s k rd.val (zext (sxAt x x.idx) ||| zext (sxAt x (x.idx + 1)) <<< 16)).modCore k fun x =>
        { x with idx := x.idx + 2 }, .done)
    else (setG s k rd.val 0, .done))
/-- SXSET (R353). -/
def execSxset (h : Hdr) (rs1 : Fin 32) (s : State) : Outcome :=
  .next (copIns s h 0x39 0 rs1.val 0 6 fun s k =>
    (s.modCore k fun x => { x with idx := Nat.min (fld (gRead x rs1.val) 8 0 / 2 * 2) 256 }, .done))

/-! ### Field image (R354, R355) -/

/-- R354: the field image that core k reads: its command's snapshot, or the live image on a supervisor core. -/
def fieldImage (s : State) (k : Nat) : Snap :=
  if k < 64 then
    match (s.te k).running with
    | some n => (s.sub n).prog.snap
    | none => {}
  else takeSnapshot s

/-- FIRD and its variants over len bytes. -/
def firdIns (s : State) (h : Hdr) (rd rs1 cfn len : Nat) : State :=
  copIns s h 0x3A rd rs1 0 cfn fun s k =>
    let off := gRead (s.core k) rs1
    if misaligned off len then (s, .fault 0x05 0 off)
    else match snapBytes (fieldImage s k) off.toNat len with
    | none => (s, .fault 0x07 1 off)
    | some bs => (setG s k rd (BitVec.ofNat 32 (ofBytes bs)), .done)

/-- R330: FIOUT and FIOUTR are reserved on a supervisor core. -/
def scReserved (_ : State) (k : Nat) : Bool := decide (64 ≤ k)

/-- FIRD (R354). -/
def execFird (h : Hdr) (rd rs1 : Fin 32) (s : State) : Outcome := .next (firdIns s h rd.val rs1.val 0 4)
/-- FIRDH (R354). -/
def execFirdh (h : Hdr) (rd rs1 : Fin 32) (s : State) : Outcome := .next (firdIns s h rd.val rs1.val 1 2)
/-- FIRDB (R354). -/
def execFirdb (h : Hdr) (rd rs1 : Fin 32) (s : State) : Outcome := .next (firdIns s h rd.val rs1.val 2 1)

/-- R355: an output entry held; a 1,025th target is discarded and noted. -/
def holdOut (t : Te) (e : Nat × Nat) : Te :=
  if t.held.outs.any fun o => o.1 == e.1 then
    { t with held := { t.held with outs := t.held.outs.map fun o => if o.1 = e.1 then e else o } }
  else if t.held.outs.length < 1024 then { t with held := { t.held with outs := t.held.outs ++ [e] } }
  else { t with fiOvf := true }

/-- FIOUT (R354, R355). -/
def execFiout (h : Hdr) (rs1 : Fin 32) (s : State) : Outcome :=
  .next (run32 s h (formR h 0x3A 0 rs1.val 0 3) scReserved true fun s k =>
    let v := gRead (s.core k) rs1.val
    (s.modTe k fun t => holdOut t (fld v 15 0, fld v 31 16), .done))

/-- R354: what FIOUTR returns for a target. -/
def heldOut (s : State) (k t : Nat) : Nat :=
  let sn := fieldImage s k
  match (s.te k).held.outs.find? fun o => o.1 == t with
  | some o => o.2
  | none =>
    if tgtBrook t then (if brookIsOutput s (tgtNum t) then tget 0 sn.bouts (tgtNum t) else 0)
    else if tgtNum t < 96 ∧ isOutMode (pinMode s (tgtNum t)) then (nth 0 sn.outs (tgtNum t)).toNat
    else 0

/-- FIOUTR (R354). -/
def execFioutr (h : Hdr) (rd rs1 : Fin 32) (s : State) : Outcome :=
  .next (run32 s h (formR h 0x3A rd.val rs1.val 0 4) scReserved true fun s k =>
    (setG s k rd.val (BitVec.ofNat 32 (heldOut s k (fld (gRead (s.core k) rs1.val) 15 0))), .done))

/-! ### Timebase (R356) -/

/-- TBLO (R356): it latches the upper half. -/
def execTblo (h : Hdr) (rd : Fin 32) (s : State) : Outcome :=
  .next (copIns s h 0x3B rd.val 0 0 0 fun s k =>
    ((setG s k rd.val (s.now.setWidth 32)).modCore k fun x => { x with tbHi := (s.now >>> 32).setWidth 32 }, .done))
/-- TBHI (R356). -/
def execTbhi (h : Hdr) (rd : Fin 32) (s : State) : Outcome :=
  .next (copIns s h 0x3B rd.val 0 0 1 fun s k => (setG s k rd.val (s.core k).tbHi, .done))

end Sys2Proof.Machine
end

