-- ==== Sys2Proof/Machine/IsaLoad.lean ====
section
/-! DEFINITION. Loads and stores (R337, R338), LR and SC (R339, R250). -/

namespace Sys2Proof.Machine

/-- R337: the capability register and the address of a form M instruction, by the scheme of the core's world. -/
def memAddr (s : State) (k rs : Nat) (disp : BitVec 12) : Nat × Word :=
  let x := s.core k
  if schemeCap s x.world then (fld disp 11 9, gRead x rs + sext (disp.setWidth 9)) else (0, gRead x rs + sext disp)

/-- A load of size bytes into g[rd] from an address and capability register; `ext` makes the result of the bytes. -/
def loadTo (s : State) (k rd : Nat) (at' : Nat × Word) (size : Nat) (ext : Nat → Word) : State × Out :=
  match coreLoad s k at'.1 at'.2 size with
  | (s, .error f) => (s, outFault f)
  | (s, .ok bs) => (setG s k rd (ext (ofBytes bs)), .done)

/-- A store of the low bytes of g[rt]. -/
def storeFrom (s : State) (k rt : Nat) (at' : Nat × Word) (size : Nat) : State × Out :=
  match coreStore s k at'.1 at'.2 (toBytes size (gRead (s.core k) rt).toNat) with
  | (s, some f) => (s, outFault f)
  | (s, none) => (s, .done)

/-- A form M load (R337). -/
def loadM (s : State) (h : Hdr) (mop rd rs : Nat) (disp : BitVec 12) (size : Nat) (ext : Nat → Word) : State :=
  run32 s h (formM h mop rd rs disp.toNat) noneReserved false fun s k => loadTo s k rd (memAddr s k rs disp) size ext

/-- A form M store (R337). -/
def storeM (s : State) (h : Hdr) (mop rt rs : Nat) (disp : BitVec 12) (size : Nat) : State :=
  run32 s h (formM h mop rt rs disp.toNat) noneReserved false fun s k => storeFrom s k rt (memAddr s k rs disp) size

/-- Extension of the bytes read. -/
def extS8 (v : Nat) : Word := sext (BitVec.ofNat 8 v)
def extS16 (v : Nat) : Word := sext (BitVec.ofNat 16 v)
def extU (v : Nat) : Word := BitVec.ofNat 32 v

/-- R337: the address of a 16-bit load or store, checked against c0. -/
def shortAddr (s : State) (k rs d5 : Nat) : Nat × Word := (0, gRead (s.core k) rs + BitVec.ofNat 32 (4 * d5))

/-- LB (R337). -/
def execLb (h : Hdr) (rd rs : Fin 32) (disp : BitVec 12) (s : State) : Outcome :=
  .next (loadM s h 0 rd.val rs.val disp 1 extS8)
/-- LBU (R337). -/
def execLbu (h : Hdr) (rd rs : Fin 32) (disp : BitVec 12) (s : State) : Outcome :=
  .next (loadM s h 1 rd.val rs.val disp 1 extU)
/-- LH (R337). -/
def execLh (h : Hdr) (rd rs : Fin 32) (disp : BitVec 12) (s : State) : Outcome :=
  .next (loadM s h 2 rd.val rs.val disp 2 extS16)
/-- LHU (R337). -/
def execLhu (h : Hdr) (rd rs : Fin 32) (disp : BitVec 12) (s : State) : Outcome :=
  .next (loadM s h 3 rd.val rs.val disp 2 extU)
/-- LW (R337). -/
def execLw (h : Hdr) (rd rs : Fin 32) (disp : BitVec 12) (s : State) : Outcome :=
  .next (loadM s h 4 rd.val rs.val disp 4 extU)
/-- SB (R337). -/
def execSb (h : Hdr) (rd rs : Fin 32) (disp : BitVec 12) (s : State) : Outcome :=
  .next (storeM s h 5 rd.val rs.val disp 1)
/-- SH (R337). -/
def execSh (h : Hdr) (rd rs : Fin 32) (disp : BitVec 12) (s : State) : Outcome :=
  .next (storeM s h 6 rd.val rs.val disp 2)
/-- SW (R337). -/
def execSw (h : Hdr) (rd rs : Fin 32) (disp : BitVec 12) (s : State) : Outcome :=
  .next (storeM s h 7 rd.val rs.val disp 4)
/-- LW_S (R337). -/
def execLwS (core : Short) (rd rs : Fin 16) (d5 : Fin 32) (s : State) : Outcome :=
  .next (run16 s core fun s k => loadTo s k rd.val (shortAddr s k rs.val d5.val) 4 extU)
/-- SW_S (R337). -/
def execSwS (core : Short) (rt rs : Fin 16) (d5 : Fin 32) (s : State) : Outcome :=
  .next (run16 s core fun s k => storeFrom s k rt.val (shortAddr s k rs.val d5.val) 4)

/-! ### LR and SC (R339, R250) -/

/-- R339: the device address of a word of Basin. -/
def basinAt (ea : Word) : Option Nat :=
  if 0x10000000 ≤ ea.toNat ∧ ea.toNat < 0x11000000 then some (Config.basinBase + (ea.toNat - 0x10000000)) else none

/-- R339: LR and SC are valid in Basin only, and on a channel core only on a SHARED region. -/
def lrMisuse (s : State) (k : Nat) (ea : Word) : Bool :=
  match basinAt ea with
  | none => true
  | some d => decide (k < 64) && !bitOf (attrOf s false d) 13

/-- R250: reserving granule g: a reservation that no SC has used yet is renewed; none when it would be the ninth. -/
def reserve (l : List Rsv) (g : Nat) : Option (List Rsv) :=
  if l.any fun r => r.granule == g then
    some (l.map fun r => if r.granule = g ∧ !r.scDone then { r with lost := false } else r)
  else if l.length < 8 then some (l ++ [{ granule := g }])
  else none

/-- LR after its load: the reservation of the granule of d, or cause 0x12 for a ninth (R250). -/
def lrReserve (s : State) (k rd d : Nat) (ea : Word) (v : Word) : State × Out :=
  let g := d / 16 * 16
  if k < 64 then
    match reserve (s.te k).held.rsv g with
    | none => (s, .fault 0x12 0 ea)
    | some l => (setG (s.modTe k fun t => { t with held := { t.held with rsv := l } }) k rd v, .done)
  else (setG (s.modCore k fun x => { x with rsv := some g }) k rd v, .done)

/-- LR (R339). -/
def execLr (h : Hdr) (rd rs1 : Fin 32) (s : State) : Outcome :=
  .next (run32 s h (formR h 0x2B rd.val rs1.val 0 0x0C) noneReserved false fun s k =>
    let ea := gRead (s.core k) rs1.val
    if lrMisuse s k ea then (s, .fault 0x12 0 ea)
    else match coreLoad s k 0 ea 4 with
    | (s, .error f) => (s, outFault f)
    | (s, .ok bs) => lrReserve s k rd.val ((basinAt ea).getD 0) ea (extU (ofBytes bs)))

/-- R339: core k holds a reservation of the granule g. -/
def rsvHeld (s : State) (k g : Nat) : Bool :=
  if k < 64 then (s.te k).held.rsv.any fun r => r.granule == g else (s.core k).rsv == some g

/-- SC's store when the reservation is held, and its result. -/
def scStore (s : State) (k rd rs2 d : Nat) (ea : Word) : State × Out :=
  let g := d / 16 * 16
  match storeIn s k (coreCol s k) ea (toBytes 4 (gRead (s.core k) rs2).toNat) none with
  | (s, some f) => (s, outFault f)
  | (s, none) =>
    let s := if k < 64 then s.modTe k fun t => { t with held := { t.held with
        rsv := t.held.rsv.map fun r => if r.granule = g then { r with scDone := true } else r } } else s
    (setG s k rd 0, .done)

/-- SC (R339): the checks of R336 step 6 precede the test of the reservation. -/
def execSc (h : Hdr) (rd rs2 rs1 : Fin 32) (s : State) : Outcome :=
  .next (run32 s h (formR h 0x2B rd.val rs1.val rs2.val 0x0D) noneReserved false fun s k =>
    let ea := gRead (s.core k) rs1.val
    let d := (basinAt ea).getD 0
    if lrMisuse s k ea then (s, .fault 0x12 0 ea)
    else if misaligned ea 4 then (s, .fault 0x05 0 ea)
    else match capData s k 0 ea 4 [1] with
    | (s, some f) => (s, outFault f)
    | (s, none) =>
      if rsvHeld s k (d / 16 * 16) then scStore s k rd.val rs2.val d ea
      else
        let (s, ok) := leveeCheck s (coreWho k) (s.core k).world (coreCol s k) .write (coreTable s false) d
        if ok then (setG s k rd.val 1, .done) else (s, .fault 0x08 1 ea))

end Sys2Proof.Machine
end

