-- ==== Sys2Proof/Machine/IsaPred.lean ====
section
/-! DEFINITION. Compares and predicate operations (R342). -/

namespace Sys2Proof.Machine

/-- CMP (R342): the condition combined into p[PD]; PCOMB 3 is reserved. -/
def execCmp (h : Hdr) (pd cond : Fin 8) (rs1 rs2 : Fin 32) (pcomb : Fin 4) (s : State) : Outcome :=
  .next (run32 s h (formC h pd.val cond.val rs1.val rs2.val pcomb.val) (fun _ _ => pcomb.val == 3) false fun s k =>
    let x := s.core k
    let c := condHolds cond.val (gRead x rs1.val) (gRead x rs2.val)
    (setP s k pd.val (combine pcomb.val (pRead x pd.val) c), .done))

/-- CMPI (R342). -/
def execCmpi (h : Hdr) (pd cond : Fin 8) (rs1 : Fin 32) (imm : BitVec 9) (s : State) : Outcome :=
  .next (run32 s h (formCI h pd.val cond.val rs1.val imm.toNat) noneReserved false fun s k =>
    (setP s k pd.val (condHolds cond.val (gRead (s.core k) rs1.val) (sext imm)), .done))

/-- A predicate operation of two operands. -/
def predOp (s : State) (h : Hdr) (fn pd pa pb : Nat) (f : Bool → Bool → Bool) : State :=
  run32 s h (formP h pd pa pb 0 fn) noneReserved false fun s k =>
    (setP s k pd (f (pRead (s.core k) pa) (pRead (s.core k) pb)), .done)

/-- PAND (R342). -/
def execPand (h : Hdr) (pd pa pb : Fin 8) (s : State) : Outcome :=
  .next (predOp s h 0 pd.val pa.val pb.val fun a b => a && b)
/-- POR (R342). -/
def execPor (h : Hdr) (pd pa pb : Fin 8) (s : State) : Outcome :=
  .next (predOp s h 1 pd.val pa.val pb.val fun a b => a || b)
/-- PXOR (R342). -/
def execPxor (h : Hdr) (pd pa pb : Fin 8) (s : State) : Outcome :=
  .next (predOp s h 2 pd.val pa.val pb.val fun a b => a != b)
/-- PANDN (R342). -/
def execPandn (h : Hdr) (pd pa pb : Fin 8) (s : State) : Outcome :=
  .next (predOp s h 3 pd.val pa.val pb.val fun a b => a && !b)
/-- PNOT (R342). -/
def execPnot (h : Hdr) (pd pa : Fin 8) (s : State) : Outcome :=
  .next (predOp s h 4 pd.val pa.val 0 fun a _ => !a)
/-- PMOV (R342). -/
def execPmov (h : Hdr) (pd pa : Fin 8) (s : State) : Outcome :=
  .next (predOp s h 5 pd.val pa.val 0 fun a _ => a)
/-- PRD (R342): bit 0 reads 1. -/
def execPrd (h : Hdr) (gr : Fin 32) (s : State) : Outcome :=
  .next (run32 s h (formP h 0 0 0 gr.val 6) noneReserved false fun s k =>
    (setG s k gr.val (zext (s.core k).p ||| 1#32), .done))
/-- PWR (R342): p1 to p7. -/
def execPwr (h : Hdr) (gr : Fin 32) (s : State) : Outcome :=
  .next (run32 s h (formP h 0 0 0 gr.val 7) noneReserved false fun s k =>
    (s.modCore k fun x => { x with p := (gRead x gr.val).setWidth 8 ||| 1#8 }, .done))

end Sys2Proof.Machine
end

