-- ==== Sys2Proof/Machine/IsaSystem.lean ====
section
/-! DEFINITION. Control registers, FENCE, IFLUSH, XRET, BRK (R332, R340, R357, R360, R401). -/

namespace Sys2Proof.Machine

/-! ### Control registers (R332, R357, R401) -/

/-- R332, R357, R401: a control register number that is assigned for the scheme of the core's world. -/
def crAssigned (cap : Bool) (cr : Nat) : Bool :=
  cr == 0 || cr == 1 || (decide (0x10 ≤ cr) && decide (cr ≤ 0x1A) && cr % 4 != 3) ||
    (decide (0x40 ≤ cr) && decide (cr ≤ 0x4B) && cr != 0x47) ||
    cr == 0x90 || cr == 0x91 || cr == 0x93 || cr == 0x94 ||
    (cap && ((decide (0x80 ≤ cr) && decide (cr ≤ 0x88)) || cr == 0x92 || cr == 0x95))

/-- R335: MFC or MTC names a number that is not assigned. -/
def crReserved (cr : Nat) (s : State) (k : Nat) : Bool := !crAssigned (schemeCap s (s.core k).world) cr

/-- R332, R357, R401: the register needs supervisor authority. -/
def crPrivileged (cr : Nat) : Bool :=
  (decide (0x40 ≤ cr) && decide (cr ≤ 0x4B)) || (decide (0x85 ≤ cr) && decide (cr ≤ 0x88)) ||
    (decide (0x90 ≤ cr) && decide (cr ≤ 0x92)) || cr == 0x94

/-- The ST register (R332). -/
def coreStWord (s : State) (k : Nat) : Word :=
  let x := s.core k
  let cap := schemeCap s x.world
  pack [(0, 1, b2n x.sm), (1, 1, b2n x.dc), (2, 1, b2n (x.lvl && !cap)), (3, 1, worldBit x.world), (4, 1, b2n cap),
    (5, 1, b2n (cxemu s k)), (6, 1, b2n (rstrap s x.world))]

/-- The CORE_ID register (R332). -/
def coreIdWord (k : Nat) : Word := if k < 64 then BitVec.ofNat 32 k else BitVec.ofNat 32 (0x40 * (k - 62))

/-- What MFC reads of an assigned register; a move register reads 0. -/
def crRead (s : State) (k cr : Nat) : Word :=
  let x := s.core k
  if cr = 0 then coreStWord s k
  else if cr = 1 then coreIdWord k
  else if cr < 0x20 then
    let l := cr / 4 - 4
    if cr % 4 = 0 then nth 0 x.ls l else if cr % 4 = 1 then nth 0 x.le l else nth 0 x.lc l
  else if cr = 0x40 then x.evbase
  else if cr = 0x41 then x.cause
  else if cr = 0x42 then x.faddr
  else if cr = 0x43 then x.rax
  else if cr = 0x44 then x.stx
  else if cr = 0x45 then pack [(0, 3, x.mlvl), (3, 1, b2n x.fesc), (4, 1, b2n x.hf)]
  else if cr = 0x46 then boolWord x.loopinh
  else if cr < 0x50 then nth 0 x.xscr (cr - 0x48)
  else if cr < 0x84 then BitVec.ofNat 32 (fld x.pcc.body (32 * (cr - 0x80) + 31) (32 * (cr - 0x80)))
  else if cr = 0x90 then x.gtbase
  else if cr = 0x91 then BitVec.ofNat 32 x.gtcount
  else if cr = 0x92 then x.gauth
  else if cr = 0x93 then pack [(0, 3, x.gates.length), (3, 10, ((x.gates.head?).map (·.num)).getD 0)]
  else if cr = 0x95 then BitVec.ofNat 32 x.ecMiss
  else 0

/-- R401: the moves of capability registers through c7. -/
def crMove (x : CoreSt) (cr : Nat) : CoreSt :=
  let c7 := cRead x 7
  if cr = 0x84 then cWrite x 7 x.pcc
  else if cr = 0x85 then { cWrite x 7 x.xpcc with xpcc := c7 }
  else if cr = 0x86 then { cWrite x 7 x.epcc with epcc := c7 }
  else if cr = 0x87 then { cWrite x 7 x.xc0 with xc0 := c7 }
  else { cWrite x 7 x.ec0 with ec0 := c7 }

/-- What MTC does to an assigned register of core k; a write to a read-only one is ignored (R8). -/
def crWrite (x : CoreSt) (k cr : Nat) (v : Word) : CoreSt :=
  if cr = 0 then { x with sm := bitOf v 0, dc := bitOf v 1 }
  else if cr = 1 then x
  else if cr < 0x20 then
    let l := cr / 4 - 4
    if cr % 4 = 0 then { x with ls := setNth x.ls l v } else if cr % 4 = 1 then { x with le := setNth x.le l v }
    else { x with lc := setNth x.lc l v }
  else if cr = 0x40 then { x with evbase := v &&& 0xFFFFFFC0#32 }
  else if cr = 0x41 then { x with cause := v &&& 0xFFFFFF#32 }
  else if cr = 0x42 then { x with faddr := v }
  else if cr = 0x43 then { x with rax := v &&& 0xFFFFFFFE#32 }
  else if cr = 0x44 then { x with stx := v &&& 0x3F07#32 }
  else if cr = 0x45 then { x with mlvl := fld v 2 0, fesc := bitOf v 3 }
  else if cr = 0x46 then { x with loopinh := bitOf v 0 }
  else if cr < 0x50 then { x with xscr := setNth x.xscr (cr - 0x48) v }
  else if cr < 0x84 then x
  else if cr < 0x89 then crMove x cr
  else if cr = 0x90 then (if k < 64 then x else { x with gtbase := v &&& 0xFFFFFFE0#32 })
  else if cr = 0x91 then (if k < 64 then x else { x with gtcount := fld v 10 0 })
  else if cr = 0x92 then (if k < 64 then x else { x with gauth := v &&& 0xFFFFFFE0#32 })
  else if cr = 0x94 then { x with ecache := if bitOf v 31 then [] else x.ecache.filter (·.1 != fld v 11 0) }
  else x

/-- R332: the access needs authority that the core lacks. -/
def crDenied (s : State) (k cr : Nat) : Bool := crPrivileged cr && !isSupervisor s k

/-- An MTC to a control register. -/
def mtcTo (s : State) (h : Hdr) (cr rs : Nat) : State :=
  let w := formN h rs cr 0x0B
  run32 s h w (crReserved cr) false fun s k =>
    if crDenied s k cr then (s, .fault 0x13 0 w)
    else (s.modCore k fun x => crWrite x k cr (gRead x rs), .done)

/-- MFC (R332). -/
def execMfc (h : Hdr) (rd : Fin 32) (cr : Fin 1024) (s : State) : Outcome :=
  let w := formN h rd.val cr.val 0x0A
  .next (run32 s h w (crReserved cr.val) false fun s k =>
    if crDenied s k cr.val then (s, .fault 0x13 0 w) else (setG s k rd.val (crRead s k cr.val), .done))
/-- MTC (R332). -/
def execMtc (h : Hdr) (cr : Fin 1024) (rs : Fin 32) (s : State) : Outcome := .next (mtcTo s h cr.val rs.val)
/-- CPCC (R401): MTC of 0x084. -/
def execCpcc (h : Hdr) (rs : Fin 32) (s : State) : Outcome := .next (mtcTo s h 0x84 rs.val)
/-- CXPCC (R401): MTC of 0x085. -/
def execCxpcc (h : Hdr) (rs : Fin 32) (s : State) : Outcome := .next (mtcTo s h 0x85 rs.val)
/-- CEPCC (R401): MTC of 0x086. -/
def execCepcc (h : Hdr) (rs : Fin 32) (s : State) : Outcome := .next (mtcTo s h 0x86 rs.val)
/-- CXC0 (R401): MTC of 0x087. -/
def execCxc0 (h : Hdr) (rs : Fin 32) (s : State) : Outcome := .next (mtcTo s h 0x87 rs.val)
/-- CEC0 (R401): MTC of 0x088. -/
def execCec0 (h : Hdr) (rs : Fin 32) (s : State) : Outcome := .next (mtcTo s h 0x88 rs.val)
/-- ECINVAL (R401): MTC of 0x094. -/
def execEcinval (h : Hdr) (rs : Fin 32) (s : State) : Outcome := .next (mtcTo s h 0x94 rs.val)

/-! ### The other system instructions -/

/-- FENCE (R340): every earlier access has completed in this model; held stores stay held. -/
def execFence (h : Hdr) (s : State) : Outcome :=
  .next (run32 s h (formR h 0x2B 0 0 0 0x08) noneReserved false fun s _ => (s, .done))
/-- IFLUSH (R340): the fetch buffer is emptied. -/
def execIflush (h : Hdr) (s : State) : Outcome :=
  .next (run32 s h (formR h 0x2B 0 0 0 0x09) noneReserved false fun s k =>
    (s.modCore k fun x => { x with fbuf := [] }, .done))
/-- XRET (R360, R394): it needs supervisor authority. -/
def execXret (h : Hdr) (s : State) : Outcome :=
  let w := formR h 0x2B 0 0 0 0x0E
  .next (run32 s h w noneReserved false fun s k =>
    if !isSupervisor s k then (s, .fault 0x13 0 w)
    else
      let x := s.core k
      (s.modCore k fun x => leave x (schemeCap s x.world), .jump x.rax))
/-- BRK (R343, R521). -/
def execBrk (h : Hdr) (s : State) : Outcome :=
  .next (run32 s h (formR h 0x2B 0 0 0 0x0F) noneReserved false fun s _ => (s, .brk))

end Sys2Proof.Machine
end

