-- ==== Sys2Proof/Machine/RegisterRows.lean ====
section
/-! DEFINITION. Register writes and latching reads as commands of an initiator: the checks of R456 to R458, R537 and R539,
and what each initiator meets when it is refused. -/

namespace Sys2Proof.Machine

/-! ### A core's access (R537, R539, R246) -/

/-- The core address of a register offset (R534). -/
def regEa (off : Nat) : Word := BitVec.ofNat 32 (0x20000000 + off)

/-- A register write that core k issues: checked at issue, held by a channel core until its commit point, performed at once
by a supervisor core. -/
def coreRegWrite (s : State) (k off : Nat) (v : Word) : State :=
  if !coreGoes s k then s
  else
    let pc := (s.core k).pc
    let ea := regEa off
    let who := coreWho k
    if off % 4 ≠ 0 then trap s k 0x05 0 pc ea
    else if regRefuses s who off v then trap (refuseCount s who off v) k 0x07 5 pc ea
    else if k < 64 then
      match sbReg (s.te k).held off v with
      | some h => s.modTe k fun t => { t with held := h }
      | none => trap (s.modTe k fun t => { t with sbOvf := true }) k 0x07 4 pc ea
    else regEffect s who off v

/-- A register read that core k issues; the answer is its value. -/
def coreRegRead (s : State) (k off : Nat) : State :=
  if !coreGoes s k then s
  else
    let pc := (s.core k).pc
    if off % 4 ≠ 0 then trap s k 0x05 0 pc (regEa off)
    else if readRefused s (coreWho k) (regAt off) then trap s k 0x07 5 pc (regEa off)
    else
      let (s, v) := readReg s (coreWho k) off
      s.answers [v]

/-! ### A host function's access (R457, R458, R462, R465, R466) -/

/-- FILTERED of a function. -/
def countFiltered (s : State) (f : Nat) : State := s.modHostFn f fun h => { h with filtered := satInc 0xFFFF h.filtered }

/-- R465, R454: the function serves memory requests. -/
def fnServes (s : State) (f : Nat) : Bool := fnPresent s f && !(s.hostFn f).d3

/-- R465, R466, R454: a memory write of function f takes effect from READY on, while the function serves it. -/
def hostWrites (s : State) (f : Nat) (act : State → State) : State :=
  if hostPeriod s ≠ 3 then hostMemoryRequestBeforeReady s f true
  else if !fnServes s f then s
  else act s

/-- R465, R466, R454: a memory read of function f, likewise; one that is not served answers no data. -/
def hostReads (s : State) (f : Nat) (act : State → State) : State :=
  if hostPeriod s ≠ 3 then hostMemoryRequestBeforeReady s f false
  else if !fnServes s f then s.answers []
  else act s

/-- The function that an end of a mailbox channel belongs to meets a full outbound queue (R429). -/
def mbxFull (who : Initiator) (off : Nat) : Bool :=
  match regAt off with
  | .mbx ch e o => o == 0 && mbxOwner who ch e
  | _ => false

/-- A register write through BAR0 of function f. -/
def hostRegWrite (s : State) (f : Fin 2) (off : Nat) (v : Word) : State :=
  hostWrites s f.val fun s =>
  if off % 4 ≠ 0 then countFiltered s f.val
  else if regRefuses s (.pf f) off v then
    let s := refuseCount s (.pf f) off v
    if mbxFull (.pf f) off then s.modHost fun h => { h with caTx := satInc 255 h.caTx } else countFiltered s f.val
  else regEffect s (.pf f) off v

/-- A register read through BAR0 of function f. -/
def hostRegRead (s : State) (f : Fin 2) (off : Nat) : State :=
  hostReads s f.val fun s =>
  if off % 4 ≠ 0 then raiseHost (s.answers [])
  else if readRefused s (.pf f) (regAt off) then countFiltered (s.answers [0]) f.val
  else
    let (s, v) := readReg s (.pf f) off
    s.answers [v]

/-- A write through BAR2 of function f: `off` counts from BAR2 (R456, R140). -/
def hostPageWrite (s : State) (f : Fin 2) (off : Nat) (v : Word) : State :=
  hostWrites s f.val fun s =>
  if off < 0x20000 then stopFenced (pageWrite s f.val (off / 0x1000) (off % 0x1000) v) else s

/-- A read through BAR2 of function f; one that is not aligned is an Unsupported Request (R458). -/
def hostPageRead (s : State) (f : Fin 2) (off : Nat) : State :=
  hostReads s f.val fun s =>
  if off % 4 ≠ 0 then raiseHost (s.answers [])
  else if off < 0x20000 then s.answers [pageWord s f.val (off / 0x1000) (off % 0x1000)] else s

/-! ### Any initiator -/

/-- Offsets of the two access rows: below this one a register of the register map, from it on a doorbell page of BAR2. -/
def bar2Off : Nat := 0x200000

/-- A register write by an initiator. The monitor's own lines are commands of their own; here it writes only the registers
that are its alone (R538). A refused write of a sequencer, mover or DMA channel has no effect (R539). -/
def regWriteBy (s : State) (who : Initiator) (off : Nat) (v : Word) : State :=
  drain (match who with
  | .te n => coreRegWrite s n.val off v
  | .scS => (if off = Reg.dbellReachReset then stopFenced else id) (coreRegWrite s 64 off v)
  | .scV => (if off = Reg.dbellReachReset then stopFenced else id) (coreRegWrite s 65 off v)
  | .pf f => if off < bar2Off then hostRegWrite s f off v else hostPageWrite s f (off - bar2Off) v
  | .monitor => if s.mon.run && worldCode (regAt off) == .monitor then regEffect s .monitor off v else s
  | who => if off % 4 ≠ 0 || regRefuses s who off v then s else regEffect s who off v)

/-- A register read by an initiator; its answer is the value read. R540: the monitor performs no read with a side effect. -/
def regReadBy (s : State) (who : Initiator) (off : Nat) : State :=
  match who with
  | .te n => coreRegRead s n.val off
  | .scS => coreRegRead s 64 off
  | .scV => coreRegRead s 65 off
  | .pf f => if off < bar2Off then hostRegRead s f off else hostPageRead s f (off - bar2Off)
  | .monitor => s
  | who =>
    if off % 4 ≠ 0 || readRefused s who (regAt off) then s
    else
      let (s, v) := readReg s who off
      s.answers [v]

/-- The supervisor core of a world. -/
def worldSc : World → Initiator
  | .safety => .scS
  | .service => .scV

/-- GO, bit 31. -/
def goBit : Nat := 2 ^ 31

/-- BK_CTL with EN as it stands, and bits that act. -/
def bkCtlWrite (s : State) (who : Initiator) (k bits : Nat) : State :=
  regWriteBy s who (Reg.bkCtl k) (BitVec.ofNat 32 (b2n (bkEnabled s k) + bits))

/-- The register of a mailbox end. -/
def mbxOff (ch : Fin 16) (cEnd : Bool) (o : Nat) : Nat := 0x20000 + 0x100 * ch.val + 0x80 * b2n cEnd + o

/-- R19: the status register of an island. -/
def islOff (i : Nat) : Nat :=
  if i < 64 then 0x300FC + 0x100 * i else if i < 160 then 0x4002C + 0x40 * (i - 64)
  else if i < 176 then 0x5005C + 0x100 * (i - 160) else 0x200 + 4 * (i - 176)

/-- The ring command register of an initiator's world, its argument 4 above. -/
def ringCmdOff (s : State) (who : Initiator) : Nat :=
  match initWorld s who with
  | .safety => 0x70030
  | .service => 0x70040

/-- SILT_RING_CMD: OP and RING, with its argument written first when there is one. -/
def ringCmdWrite (s : State) (who : Initiator) (ring op : Nat) (arg : Option Word) : State :=
  let o := ringCmdOff s who
  let s := match arg with
    | some v => regWriteBy s who (o + 4) v
    | none => s
  regWriteBy s who o (BitVec.ofNat 32 (goBit + op * 256 + ring))

/-- DEV_FUSE_PROG with GO. -/
def fuseProg (s : State) (who : Initiator) (op key svn : Nat) : State :=
  regWriteBy s who 0x1064 (BitVec.ofNat 32 (goBit + op + key * 8 + svn * 16))

/-- QCMD of a world, written by its supervisor core (R95). -/
def qcmd (s : State) (w : World) (op : Nat) : State :=
  regWriteBy s (worldSc w) (match w with
    | .safety => Reg.dbellQcmdS
    | .service => Reg.dbellQcmdV) (BitVec.ofNat 32 op)

/-- A row that is the write of one register. -/
def regRow (s : State) (who : Initiator) (off v : Nat) : Outcome := .next (regWriteBy s who off (BitVec.ofNat 32 v))

end Sys2Proof.Machine
end

