-- ==== Sys2Proof/Machine/Arch.lean ====
section
/-! DEFINITION. Islands, their watchdogs, the loss of the die-to-die link, the timebase (chapter "Architecture of the
module"). -/

namespace Sys2Proof.Machine

/-- R91, R92: a die-to-die link error ends a command on the device side; no spec word says which commands: those whose readings
come over the link, a SAMPLE that captures and a built-in PROVE that measures (DEDUCED, log entry 58). -/
def linkErrors (s : State) : State :=
  let e : Ending := { cstat := csInterface, detail := 0x0904 }
  s.subs.foldl (fun s x =>
    let p := (s.sub x.1).prog
    if p.phase = .sampling then endProgram s x.1 0x01 e
    else if p.work.begun ∧ builtinRuns s x.1 0x11 then endBuiltin s x.1 e
    else s) s

/-- LINK_FRAME_LOSS_SAFE (R12): every output pin at its safe state until a main-die reset completes. In a voting composite the
member is excluded (R231, reason 4), and R199 keeps a record of kind 10, which the spec gives no pin: 0 (log entry 58). -/
def linkFrameLossSafe (s : State) : State :=
  if s.boot.st = .off then s
  else
    let s := if voteMode s = 0 then s else excludeSelf s 4 0
    let s := sluiceSweep (foldN 96 (fun s n => safePin s n false) (s.modFd fun f => { f with linkLost := true }))
    linkErrors (stormRecord s s.now 0 10 false true 0)

/-- R13: the nominal clock of an island, in units of 0.25 MHz. -/
def nominal (i : Nat) : Nat :=
  4 * (if i < 64 then 600 else if i < 160 then 400 else if i < 176 then 125 else if i < 179 then 0 else if i < 183 then 500
    else if i < 185 then 800 else if i < 193 then 1000 else if i < 197 then 800 else if i = 197 then 500
    else if i = 198 then 533 else if i = 199 then 2133 else if i = 200 then 500 else if i = 201 then 1000
    else if i < 204 then 400 else if i = 204 then 266 else if i = 205 then 100 else if i = 206 then 400
    else if i = 207 then 200 else if i = 208 then 50 else if i = 209 then 400 else if i = 210 then 200 else 1000) +
  (if 176 ≤ i ∧ i < 179 then 625 else 0)

/-- ISLAND_FREQ_UPDATE (R19), every 10 µs: SLOW while FREQ is below 90 % of nominal. -/
def islandFreqUpdate (s : State) (i freq : Nat) : State :=
  if (s.island i).clk = 0 ∨ notYet s (s.island i).freqAt 10000 then s
  else s.modIsland i fun x => { x with freqAt := s.now, freq := freq, slow := decide (freq * 4 * 10 < nominal i * 9) }

/-- R16 step 4: the stalled transaction ends with an error at its initiator. -/
def stalledEnds (s : State) : Stalled → State
  | .nothing => s
  | .coreFetch k => if coreGoes s k.val then trap s k.val 0x06 3 (s.core k.val).pc (s.core k.val).pc else s
  | .coreData k a => if coreGoes s k.val then trap s k.val 0x07 3 (s.core k.val).pc a else s
  | .hostRead f =>
    if hostPeriod s = 3 ∧ fnServes s f.val then raiseHost ((s.modHost fun h => { h with caTx := satInc 255 h.caTx }).answers [])
    else s
  | .hostWrite f =>
    if hostPeriod s = 3 ∧ fnServes s f.val then s.modHostFn f.val fun h => { h with dropped := satInc 0xFFFF h.dropped } else s
  | .ccwFetch n =>
    let b := s.sub n.val
    if !b.resident ∨ b.prog.phase = .none ∨ b.prog.phase = .runaway then s else fetchFails s n.val (ctrlCheck 0x0506)
  | .dataArea n =>
    let b := s.sub n.val
    if !b.resident ∨ !inTransfer b.prog then s
    else transferFails s n.val [] (ctrlCheck 0x0506)
  | .dmaElement c w => if (s.dch c.val).st = .running ∧ (s.dch c.val).desc.isSome then dmaDrop s c.val (1 + b2n w) else s
  | .tailRead q => if (s.sq q.val).st = .enabled ∧ (s.sq q.val).reading then hostFails s (.tail q) {} else s
  | .headRead k => if (s.ring k.val).st = .enabled ∧ (s.ring k.val).reading then hostFails s (.head k) {} else s
  | .entryRead q => if (s.sq q.val).issued ≠ [] then hostFails s (.entry q) {} else s
  | .headWrite q => if (s.sq q.val).st = .enabled then queueError s q.val 0x6 (s.sq q.val).head else s
  | .ringWrite k => if (s.ring k.val).st = .enabled ∧ (s.ring k.val).uncov ≠ 0 then ringError s k.val 0x6 else s
  | .dmaDesc c =>
    let x := s.dch c.val
    if x.st = .running ∧ x.desc.isSome ∧ x.pos = 0 ∧ !x.moved then dmaDrop s c.val 1 else s
  | .dmaStatus c => if (s.dch c.val).st = .running ∧ (s.dch c.val).moved then dmaHalts s c.val else s

/-- HANDSHAKE_WATCHDOG (R16): the island is marked stalled, and the transaction ends. -/
def handshakeWatchdog (s : State) (i : Nat) (who : Stalled) : State :=
  if (s.island i).clk = 0 then s else drain (stalledEnds (islandStalls s i) who)

/-- HANDSHAKE_COMPLETE_AFTER_STALL (R17). -/
def handshakeCompleteAfterStall (s : State) (i : Nat) : State :=
  if (s.island i).clk = 3 then s.modIsland i fun x => { x with clk := 2 } else s

/-- R213: the link that leads to the reference's timebase, for an in-service member that is not the reference itself. -/
def refLink (s : State) : Option Nat :=
  if s.vote.st = .inService ∨ s.vote.st = .standby then
    match referencePos s with
    | some p => if reaches s p then some (posLink s p) else none
    | none => none
  else none

/-- R213: the correction of this tick: 1 ns toward the reference, at most once in 1,000 ticks of 10 ns (100 ppm; that a member
uses all of that rate is a DESIGN CHOICE, log entry 62). -/
def rateTrim (s : State) : Int :=
  match refLink s with
  | some k => if 1000 ≤ s.vote.trim + 1 then (if (s.cfl k).off < 0 then -1 else if 0 < (s.cfl k).off then 1 else 0) else 0
  | none => 0

/-- TIMEBASE_TICK (R21, R213): 10 ns, once the main die has left reset, and in service the correction toward the reference. -/
def timebaseTick (s : State) : State :=
  if dieRuns s then
    let d := rateTrim s
    let s := match refLink s with
      | some k => if d = 0 then s.modVote fun u => { u with trim := Nat.min 1000 (u.trim + 1) }
        else (s.modCfl k fun c => { c with off := c.off - d }).modVote fun u => { u with trim := 0 }
      | none => s
    s.setNow (s.now + (10 + BitVec.ofInt 64 d))
  else s

end Sys2Proof.Machine
end

