-- ==== Sys2Proof/Machine/RowsArch.lean ====
section
/-! DEFINITION. One meaning per command (chapter "Architecture of the module"). -/

namespace Sys2Proof.Machine

/-- LINK_FRAME_LOSS_SAFE (R12). -/
def execLinkFrameLossSafe (s : State) : Outcome := .next (drain (linkFrameLossSafe s))
/-- HANDSHAKE_WATCHDOG (R16). -/
def execHandshakeWatchdog (isl : Fin 212) (who : Stalled) (s : State) : Outcome :=
  .next (handshakeWatchdog s isl.val who)
/-- HANDSHAKE_COMPLETE_AFTER_STALL (R17). -/
def execHandshakeCompleteAfterStall (isl : Fin 212) (s : State) : Outcome :=
  .next (handshakeCompleteAfterStall s isl.val)
/-- KEEPALIVE_LOSS (R18). -/
def execKeepaliveLoss (pin : Fin 96) (s : State) : Outcome := .next (keepaliveLoss s pin.val)
/-- ISLAND_FREQ_UPDATE (R19). -/
def execIslandFreqUpdate (isl : Fin 212) (freq : BitVec 12) (s : State) : Outcome :=
  .next (islandFreqUpdate s isl.val freq.toNat)
/-- WDOG_CLEAR (R20). -/
def execWdogClear (who : Initiator) (isl : Fin 212) (s : State) : Outcome := regRow s who (islOff isl.val) 8
/-- TIMEBASE_TICK (R21). -/
def execTimebaseTick (s : State) : Outcome := .next (timebaseTick s)
/-- LATCHING_READ (R23): any register read; from `bar2Off` on, a doorbell page of the host function. -/
def execLatchingRead (who : Initiator) (off : BitVec 22) (s : State) : Outcome := .next (regReadBy s who off.toNat)
/-- REGISTER_WRITE (R8), of the same offsets. -/
def execRegisterWrite (who : Initiator) (off : BitVec 22) (val : Word) (s : State) : Outcome :=
  .next (regWriteBy s who off.toNat val)

end Sys2Proof.Machine
end

