-- ==== Sys2Proof/Machine/RowsBoot.lean ====
section
/-! DEFINITION. One meaning per command (chapter "Clay image and start-up; Supply, module and board design"). -/

namespace Sys2Proof.Machine

/-- SUPPLY_GOOD (R485). -/
def execSupplyGood (s : State) : Outcome := .next (supplyGood s)
/-- FIELD_SELF_TEST_COMPLETE (R485). -/
def execFieldSelfTestComplete (failed : BitVec 12) (s : State) : Outcome := .next (fieldSelfTestComplete s failed)
/-- MAIN_DIE_RESET_RELEASE (R485). -/
def execMainDieResetRelease (monEn : Bool) (cpos : Fin 4) (s : State) : Outcome :=
  .next (mainDieResetRelease s monEn cpos.val)
/-- MEMORY_INIT_COMPLETE (R485). -/
def execMemoryInitComplete (r : MemInit) (s : State) : Outcome := .next (memoryInitComplete s r)
/-- IMAGE_READ_COMPLETE (R485). -/
def execImageReadComplete (bytes : List Byte) (s : State) : Outcome := .next (imageReadComplete s bytes)
/-- FLASH_READ_TIMEOUT (R484). -/
def execFlashReadTimeout (s : State) : Outcome := .next (flashReadTimeout s)
/-- AUTHENTICATION_COMPLETE (R479). -/
def execAuthenticationComplete (s : State) : Outcome := .next (authenticationComplete s)
/-- IMAGE_APPLY_COMPLETE (R477). -/
def execImageApplyComplete (cxFail : List (Fin 66)) (cal : List CalRead) (s : State) : Outcome :=
  .next (imageApplyComplete s cxFail cal)
/-- FORM_WAIT_EXPIRY (R485). -/
def execFormWaitExpiry (s : State) : Outcome := .next (drain (formWaitExpiry s))
/-- READY (R487). -/
def execReady (s : State) : Outcome := .next (drain (readyStep s))
/-- CLAY_ERASE (R488). -/
def execClayErase (who : Initiator) (s : State) : Outcome := regRow s who 0x1020 (goBit + 1)
/-- CLAY_PROGRAM (R488). -/
def execClayProgram (who : Initiator) (s : State) : Outcome := regRow s who 0x1020 (goBit + 2)
/-- CLAY_VERIFY (R488). -/
def execClayVerify (who : Initiator) (s : State) : Outcome := regRow s who 0x1020 (goBit + 3)
/-- CLAY_UPDATE_COMPLETE (R488). -/
def execClayUpdateComplete (ok : Bool) (slot : List Byte) (s : State) : Outcome :=
  .next (clayUpdateComplete s ok slot)
/-- CLAY_UPDATE_TIMEOUT (R488). -/
def execClayUpdateTimeout (s : State) : Outcome := .next (clayUpdateTimeout s)
/-- FUSE_KEY (R481). -/
def execFuseKey (who : Initiator) (k : Fin 2) (s : State) : Outcome := .next (fuseProg s who 1 k.val 0)
/-- FUSE_REVOKE (R481). -/
def execFuseRevoke (who : Initiator) (k : Fin 2) (s : State) : Outcome := .next (fuseProg s who 2 k.val 0)
/-- FUSE_SVN (R481). -/
def execFuseSvn (who : Initiator) (svn : Fin 64) (s : State) : Outcome := .next (fuseProg s who 3 0 svn.val)
/-- FUSE_LOCK (R481). -/
def execFuseLock (who : Initiator) (s : State) : Outcome := .next (fuseProg s who 4 0 0)
/-- FUSE_OPERATION_COMPLETE (R481). -/
def execFuseOperationComplete (s : State) : Outcome := .next (fuseOperationComplete s)
/-- SURGE_LIMIT_ENGAGE (R497). -/
def execSurgeLimitEngage (s : State) : Outcome := .next (surgeLimitEngage s)
/-- SURGE_LIMITER_OPEN (R497). -/
def execSurgeLimiterOpen (s : State) : Outcome := .next (surgeLimiterOpen s)
/-- IDEAL_DIODE_ON (R498). -/
def execIdealDiodeOn (s : State) : Outcome := .next (idealDiodeOn s)
/-- RAIL_START (R498). -/
def execRailStart (s : State) : Outcome := .next (railStart s)
/-- THERMAL_WARN (R510). -/
def execThermalWarn (tmax : BitVec 11) (src : Fin 68) (s : State) : Outcome := .next (thermalWarn s tmax src.val)
/-- THERMAL_THROTTLE_STEP (R510). -/
def execThermalThrottleStep (tmax : BitVec 11) (src : Fin 68) (s : State) : Outcome :=
  .next (thermalThrottleStep s tmax src.val)
/-- THERMAL_TE_STOP (R510). -/
def execThermalTeStop (tmax : BitVec 11) (te : Fin 64) (s : State) : Outcome := .next (thermalTeStop s tmax te.val)
/-- THERMAL_SHUTDOWN (R510). -/
def execThermalShutdown (tmax : BitVec 11) (src : Fin 68) (s : State) : Outcome :=
  .next (thermalShutdown s tmax src.val)
/-- THERMAL_RESTART (R510). -/
def execThermalRestart (s : State) : Outcome := .next (thermalRestart s)

end Sys2Proof.Machine
end

