-- ==== Sys2Proof/Machine/RowsBrook.lean ====
section
/-! DEFINITION. One meaning per command (chapter "Brook links and satellites"). -/

namespace Sys2Proof.Machine

/-- BROOK_OUTPUT_LATCH (R310). -/
def execBrookOutputLatch (link : Fin 16) (syms : Fin 64) (s : State) : Outcome := .next (brookOutputLatch s link.val syms.val)
/-- PD_OUT (R308). -/
def execPdOut (link : Fin 16) (pos : Fin 8) (s : State) : Outcome := .next (pdOut s link.val pos.val)
/-- PD_IN (R312). -/
def execPdIn (link : Fin 16) (f : BkArrival) (s : State) : Outcome := .next (drain (pdIn s link.val (bkParse f.bytes (pdWindow s link.val f.begun))))
/-- BROOK_INPUT_IMAGE_WRITE (R311). -/
def execBrookInputImageWrite (link : Fin 16) (s : State) : Outcome := .next (brookInputImageWrite s link.val)
/-- BROOK_MESSAGE_SEND (R315). -/
def execBrookMessageSend (link : Fin 16) (s : State) : Outcome := .next (drain (brookMessageSend s link.val))
/-- ACK (R319). -/
def execAck (link : Fin 16) (f : BkArrival) (s : State) : Outcome := .next (drain (ackEffect s link.val (bkParse f.bytes fun _ => replyWindow s link.val f.begun)))
/-- DATA (R319). -/
def execData (link : Fin 16) (f : BkArrival) (s : State) : Outcome := .next (drain (dataEffect s link.val (bkParse f.bytes fun _ => replyWindow s link.val f.begun)))
/-- NAK (R317). -/
def execNak (link : Fin 16) (f : BkArrival) (s : State) : Outcome := .next (drain (nakEffect s link.val (bkParse f.bytes fun _ => replyWindow s link.val f.begun)))
/-- BROOK_REPLY_TIMEOUT (R309). -/
def execBrookReplyTimeout (link : Fin 16) (s : State) : Outcome := .next (drain (brookReplyTimeout s link.val))
/-- BK_TXDATA (R322). -/
def execBkTxdata (who : Initiator) (link : Fin 16) (val : Word) (s : State) : Outcome :=
  .next (regWriteBy s who (Reg.bkCfg link.val + 0x4C) val)
/-- BK_RXDATA (R322). -/
def execBkRxdata (who : Initiator) (link : Fin 16) (s : State) : Outcome :=
  .next (regReadBy s who (Reg.bkCfg link.val + 0x50))
/-- BROOK_SIGNAL_DETECT (R323). -/
def execBrookSignalDetect (link : Fin 16) (s : State) : Outcome := .next (brookSignalDetect s link.val)
/-- BROOK_TRAINING_COMPLETE (R323). -/
def execBrookTrainingComplete (link : Fin 16) (eq : Byte) (s : State) : Outcome :=
  .next (brookTrainingComplete s link.val eq.toNat)
/-- BROOK_TRAINING_TIMEOUT (R323). -/
def execBrookTrainingTimeout (link : Fin 16) (s : State) : Outcome := .next (brookTrainingTimeout s link.val)
/-- BROOK_LINK_DOWN (R323). -/
def execBrookLinkDown (link : Fin 16) (syms : Half) (s : State) : Outcome := .next (brookLinkDown s link.val syms.toNat)
/-- BK_RETRAIN (R323). -/
def execBkRetrain (who : Initiator) (link : Fin 16) (s : State) : Outcome := .next (bkCtlWrite s who link.val 2)
/-- BK_ENABLE (R323). -/
def execBkEnable (who : Initiator) (link : Fin 16) (en : Bool) (s : State) : Outcome :=
  regRow s who (Reg.bkCtl link.val) (b2n en)
/-- BK_CNT_CLR (R323). -/
def execBkCntClr (who : Initiator) (link : Fin 16) (s : State) : Outcome := .next (bkCtlWrite s who link.val 4)
/-- BK_POS_RESET (R313). -/
def execBkPosReset (who : Initiator) (link : Fin 16) (mask : Byte) (s : State) : Outcome :=
  .next (bkCtlWrite s who link.val (256 * mask.toNat))
/-- BROOK_EYE_MEASURE (R324). -/
def execBrookEyeMeasure (link : Fin 16) (v h : Byte) (s : State) : Outcome :=
  .next (brookEyeMeasure s link.val v.toNat h.toNat)
/-- SHADOW_TRAINING_COMPLETE (R324). -/
def execShadowTrainingComplete (link : Fin 16) (good : Bool) (eq : Byte) (s : State) : Outcome :=
  .next (shadowTrainingComplete s link.val good eq.toNat)
/-- SHADOW_VERIFIED (R324). -/
def execShadowVerified (link : Fin 16) (clean : Bool) (v h : Byte) (s : State) : Outcome :=
  .next (shadowVerified s link.val clean v.toNat h.toNat)
/-- SHADOW_SWAP (R325). -/
def execShadowSwap (link : Fin 16) (s : State) : Outcome := .next (shadowSwap s link.val)

end Sys2Proof.Machine
end

