-- ==== Sys2Proof/Machine/RowsCommit.lean ====
section
/-! DEFINITION. One meaning per command (chapter "Commit points and recovery"). -/

namespace Sys2Proof.Machine

/-- COMMIT_ACCEPT (R251). -/
def execCommitAccept (sub : Fin 4096) (s : State) : Outcome := .next (drain (commitAccept s sub.val))
/-- COMMIT_STORES_COMPLETE (R251). -/
def execCommitStoresComplete (sub : Fin 4096) (s : State) : Outcome := .next (drain (commitStoresComplete s sub.val))
/-- STAGE_OUT_COMPLETE (R156). -/
def execStageOutComplete (sub : Fin 4096) (s : State) : Outcome := .next (drain (stageOutComplete s sub.val))
/-- RETRY_WINDOW (R255). -/
def execRetryWindow (s : State) : Outcome := .next (retryWindow s)
/-- COMMIT_UNIT_FAULT (R258). -/
def execCommitUnitFault (sub : Fin 4096) (stage : Fin 4) (s : State) : Outcome :=
  .next (drain (commitUnitFault s sub.val stage.val))
/-- WARM_RESET_REQUEST (R261). -/
def execWarmResetRequest (who : Initiator) (s : State) : Outcome := regRow s who 0x40C (goBit + 1)
/-- COLD_RESET_REQUEST (R261). -/
def execColdResetRequest (who : Initiator) (s : State) : Outcome := regRow s who 0x40C (goBit + 2)
/-- RESET_PIN_LOW (R261). -/
def execResetPinLow (ns : Nat) (s : State) : Outcome := .next (resetPinLow s ns)
/-- MAIN_DIE_RESET (R262). -/
def execMainDieReset (s : State) : Outcome := .next (mainDieReset s)
/-- POWER_LOSS_DETECT (R263). -/
def execPowerLossDetect (cause : Fin 4) (s : State) : Outcome := .next (powerLossDetect s cause.val)
/-- POWER_LOSS_COMMITS_COMPLETE (R264). -/
def execPowerLossCommitsComplete (s : State) : Outcome := .next (powerLossCommitsComplete s)
/-- JOURNAL_WRITE_COMPLETE (R263). -/
def execJournalWriteComplete (s : State) : Outcome := .next (journalWriteComplete s)
/-- POWER_LOSS_RESET (R263). -/
def execPowerLossReset (s : State) : Outcome := .next (powerLossReset s)
/-- POWER_LOSS_RESTART (R267). -/
def execPowerLossRestart (s : State) : Outcome := .next (powerLossRestart s)

end Sys2Proof.Machine
end

