-- ==== Sys2Proof/Machine/RowsCore.lean ====
section
/-! DEFINITION. One meaning per command (chapter "Core exceptions, interrupts and timing; Worlds, levels and capabilities"). -/

namespace Sys2Proof.Machine

/-- INTERRUPT_TAKE (R369). -/
def execInterruptTake (k : Fin 2) (s : State) : Outcome := .next (interruptTake s k.val)
/-- PROGRESS_WATCHDOG (R368). -/
def execProgressWatchdog (core : Fin 66) (s : State) : Outcome := .next (drain (progressWatchdog s core.val))
/-- SUPERVISOR_WATCHDOG_EXPIRY (R367). -/
def execSupervisorWatchdogExpiry (k : Fin 2) (s : State) : Outcome := .next (supervisorWatchdogExpiry s k.val)
/-- SC_WDOG_KICK (R367). -/
def execScWdogKick (who : Initiator) (k : Fin 2) (val : Word) (s : State) : Outcome :=
  .next (regWriteBy s who (Reg.scWdogCtl k.val + 4) val)
/-- LEVEE_COMMIT (R391). -/
def execLeveeCommit (who : Initiator) (s : State) : Outcome := regRow s who 0x2404 1
/-- LEVEE_COPIES_UPDATED (R391). -/
def execLeveeCopiesUpdated (s : State) : Outcome := .next (leveeCopiesUpdated s)
/-- LEVEE_REVOKE (R403). -/
def execLeveeRevoke (who : Initiator) (otype : BitVec 12) (s : State) : Outcome :=
  regRow s who 0x2424 (goBit + otype.toNat)
/-- REVOKE_INVALIDATION_DONE (R403). -/
def execRevokeInvalidationDone (s : State) : Outcome := .next (revokeInvalidationDone s)

end Sys2Proof.Machine
end

