-- ==== Sys2Proof/Machine/RowsEngine.lean ====
section
/-! DEFINITION. One meaning per command (chapter "Tributary engines and device routines"). -/

namespace Sys2Proof.Machine

/-- CORE_DISPATCH (R153). -/
def execCoreDispatch (te : Fin 64) (s : State) : Outcome := .next (coreDispatch s te.val)
/-- STAGE_IN_COMPLETE (R156). -/
def execStageInComplete (sub : Fin 4096) (s : State) : Outcome := .next (drain (stageInComplete s sub.val))
/-- BUDGET_EXPIRY (R157). -/
def execBudgetExpiry (te : Fin 64) (s : State) : Outcome := .next (drain (budgetExpiry s te.val))
/-- SWAP_OUT_COMPLETE (R144). -/
def execSwapOutComplete (te : Fin 64) (s : State) : Outcome := .next (swapOutComplete s te.val)
/-- REBALANCER_WINDOW (R159). -/
def execRebalancerWindow (s : State) : Outcome := .next (rebalancerWindow s)
/-- DEV_MIGRATE (R161). -/
def execDevMigrate (who : Initiator) (sub : Fin 4096) (dest : Fin 64) (s : State) : Outcome :=
  regRow s who Reg.devMigrate (goBit + dest.val * 4096 + sub.val)
/-- MIGRATION_COMPLETE (R162). -/
def execMigrationComplete (sub : Fin 4096) (s : State) : Outcome := .next (migrationComplete s sub.val)
/-- DEV_TE_RETIRE (R164). -/
def execDevTeRetire (who : Initiator) (te : Fin 64) (s : State) : Outcome := regRow s who 0x320 (goBit + te.val)
/-- TE_STALL_RETIRE (R166). -/
def execTeStallRetire (te : Fin 64) (s : State) : Outcome := .next (drain (teStallRetire s te.val))
/-- SPARE_LOAD_COMPLETE (R165). -/
def execSpareLoadComplete (te : Fin 64) (s : State) : Outcome := .next (spareLoadComplete s te.val)
/-- TE_DISP_INVAL (R150). -/
def execTeDispInval (who : Initiator) (te : Fin 64) (cls : Fin 64) (code : Byte) (classAll all : Bool) (s : State) : Outcome :=
  regRow s who (Reg.teCtl te.val + 0x10) (b2n all * goBit + b2n classAll * 2 ^ 30 + cls.val * 256 + code.toNat)
/-- DEV_DISP_CMD (R167). -/
def execDevDispCmd (who : Initiator) (cls : Fin 64) (code : Byte) (s : State) : Outcome :=
  regRow s who 0x340 (goBit + cls.val * 256 + code.toNat)

end Sys2Proof.Machine
end

