-- ==== Sys2Proof/Machine/RowsEvent.lean ====
section
/-! DEFINITION. One meaning per command (chapter "Event controller and mailboxes; Weir arbiter and memory system"). -/

namespace Sys2Proof.Machine

/-- EVT_SET (R413). -/
def execEvtSet (who : Initiator) (src : Fin 2048) (s : State) : Outcome := regRow s who 0x8008 src.val
/-- EVT_CLAIM (R422). -/
def execEvtClaim (who : Initiator) (t : Fin 4) (s : State) : Outcome := .next (regReadBy s who (0x8030 + 4 * t.val))
/-- EVT_DONE (R423). -/
def execEvtDone (who : Initiator) (t : Fin 4) (src : Fin 2048) (s : State) : Outcome :=
  regRow s who (0x8040 + 4 * t.val) src.val
/-- EVT_SRC_CONFIG (R424). -/
def execEvtSrcConfig (who : Initiator) (src : Fin 2048) (val : Word) (s : State) : Outcome :=
  .next (regWriteBy s who (0x10000 + 4 * src.val) val)
/-- EVT_SRC_CLR (R416). -/
def execEvtSrcClr (who : Initiator) (src : Fin 2048) (s : State) : Outcome :=
  .next (regWriteBy s who (0x10000 + 4 * src.val) (evSrcWord s src.val &&& 0x1FFFF#32 ||| 0x200000#32))
/-- MBX_TX (R428). -/
def execMbxTx (who : Initiator) (ch : Fin 16) (cEnd : Bool) (val : Word) (s : State) : Outcome :=
  .next (regWriteBy s who (mbxOff ch cEnd 0x0) val)
/-- MBX_RX (R428). -/
def execMbxRx (who : Initiator) (ch : Fin 16) (cEnd : Bool) (s : State) : Outcome :=
  .next (regReadBy s who (mbxOff ch cEnd 4))
/-- MBX_DB_SET (R430). -/
def execMbxDbSet (who : Initiator) (ch : Fin 16) (cEnd : Bool) (val : Word) (s : State) : Outcome :=
  .next (regWriteBy s who (mbxOff ch cEnd 0x14) val)
/-- MBX_DB_MASK (R430). -/
def execMbxDbMask (who : Initiator) (ch : Fin 16) (cEnd : Bool) (val : Word) (s : State) : Outcome :=
  .next (regWriteBy s who (mbxOff ch cEnd 0x10) val)
/-- MBX_ACK_TX (R431). -/
def execMbxAckTx (who : Initiator) (ch : Fin 16) (cEnd : Bool) (val : Word) (s : State) : Outcome :=
  .next (regWriteBy s who (mbxOff ch cEnd 0x18) val)
/-- MBX_RECEIVER_RESET (R433). -/
def execMbxReceiverReset (who : Initiator) (ch : Fin 16) (cEnd : Bool) (s : State) : Outcome :=
  regRow s who (mbxOff ch cEnd 0x24) 1
/-- MBX_SENDER_RESET (R434). -/
def execMbxSenderReset (who : Initiator) (ch : Fin 16) (cEnd : Bool) (s : State) : Outcome :=
  regRow s who (mbxOff ch cEnd 0x24) 2
/-- WEIR_GRANT (R439). -/
def execWeirGrant (reqs : List WeirAsk) (scrubs : List ScrubAsk) (dramFree : Bool) (s : State) : Outcome :=
  .next (weirGrant s reqs scrubs dramFree)
/-- WEIR_WINDOW_BOUNDARY (R438). -/
def execWeirWindowBoundary (s : State) : Outcome := .next (weirWindowBoundary s)
/-- WEIR_COMMIT (R441). -/
def execWeirCommit (who : Initiator) (s : State) : Outcome := regRow s who 0x4008 1
/-- DRAM_MAINTENANCE (R444). -/
def execDramMaintenance (kind : Fin 3) (s : State) : Outcome := .next (dramMaintenance s)
/-- DEV_WIN_WRITE (R447). -/
def execDevWinWrite (who : Initiator) (k : Fin 66) (val : Word) (s : State) : Outcome :=
  .next (regWriteBy s who (Reg.devWin k.val) val)

end Sys2Proof.Machine
end

