-- ==== Sys2Proof/Machine/RowsField.lean ====
section
/-! DEFINITION. One meaning per command (chapter "Field pins and the field die"). -/

namespace Sys2Proof.Machine

/-- PIN_EDGE_ACCEPT (R174). -/
def execPinEdgeAccept (pin : Fin 96) (level : Bool) (t : DWord) (s : State) : Outcome :=
  .next (pinEdgeAccept s pin.val level t)
/-- WETTING_PULSE (R176). -/
def execWettingPulse (pin : Fin 96) (mv : Nat) (s : State) : Outcome := .next (wettingPulse s pin.val mv)
/-- ADC_SLOT_CONVERSION (R184). -/
def execAdcSlotConversion (bank : Fin 12) (slot : Fin 8) (code : AdcResult) (s : State) : Outcome :=
  .next (drain (adcSlotConversion s bank.val slot.val code.code code.bad))
/-- PWM_PERIOD_BOUNDARY (R180). -/
def execPwmPeriodBoundary (pin : Fin 96) (s : State) : Outcome := .next (pwmPeriodBoundary s pin.val)
/-- AUDIO_SAMPLE (R181). -/
def execAudioSample (pin : Fin 96) (s : State) : Outcome := .next (audioSample s pin.val)
/-- OVERCURRENT_TRIP (R186). -/
def execOvercurrentTrip (pin : Fin 96) (s : State) : Outcome := .next (overcurrentTrip s pin.val)
/-- DIAGNOSTIC_DETECT (R186). -/
def execDiagnosticDetect (pin : Fin 96) (cond : Detected) (s : State) : Outcome :=
  .next (diagnosticDetect s pin.val cond.cond.val cond.fb)
/-- TEST_PULSE (R188). -/
def execTestPulse (pin : Fin 96) (isOpen isShort : Bool) (s : State) : Outcome :=
  .next (testPulse s pin.val isOpen isShort)
/-- WALK_STEP (R189). -/
def execWalkStep (moved : List (Fin 96)) (s : State) : Outcome := .next (walkStep s (moved.map fun p => p.val))
/-- FAULT_REPORT (R197). -/
def execFaultReport (s : State) : Outcome := .next (faultReport s)
/-- GUARD_BAND_UPDATE (R192). -/
def execGuardBandUpdate (bank : Fin 12) (temp iBank : BitVec 11) (vfld : Byte) (s : State) : Outcome :=
  .next (guardBandUpdate s bank.val temp iBank vfld.toNat)
/-- BACKGROUND_CALIBRATION_PERIOD (R191). -/
def execBackgroundCalibrationPeriod (bank : Fin 12) (s : State) : Outcome :=
  .next (backgroundCalibrationPeriod s bank.val)
/-- CAL_GO (R191). -/
def execCalGo (who : Initiator) (bank : Fin 12) (s : State) : Outcome := regRow s who (Reg.bankCtl bank.val + 8) 2
/-- CALIBRATION_COMPLETE (R191). -/
def execCalibrationComplete (bank : Fin 12) (temp iBank : BitVec 11) (refFault : Bool) (s : State) : Outcome :=
  .next (calibrationComplete s bank.val temp iBank refFault)
/-- COMMON_CAUSE_BEGIN (R195). -/
def execCommonCauseBegin (banks : BitVec 12) (gndofs vinHi : Bool) (s : State) : Outcome :=
  .next (commonCauseBegin s banks.toNat gndofs vinHi)
/-- COMMON_CAUSE_END (R195). -/
def execCommonCauseEnd (s : State) : Outcome := .next (commonCauseEnd s)
/-- PIN_RECFG (R200). -/
def execPinRecfg (who : Initiator) (pin : Fin 96) (pair cal : Bool) (s : State) : Outcome :=
  regRow s who (Reg.pinCfg pin.val + 0x28) (1 + 2 * b2n pair + 4 * b2n cal)
/-- PIN_RECFG_COMPLETE (R201). -/
def execPinRecfgComplete (pin : Fin 96) (s : State) : Outcome := .next (pinRecfgComplete s pin.val)
/-- SCAN_GO (R202). -/
def execScanGo (who : Initiator) (bank : Fin 12) (s : State) : Outcome := regRow s who (Reg.bankCtl bank.val + 8) 1
/-- SCAN_LIST_APPLY (R202). -/
def execScanListApply (bank : Fin 12) (s : State) : Outcome := .next (scanListApply s bank.val)

end Sys2Proof.Machine
end

