-- ==== Sys2Proof/Machine/RowsHost.lean ====
section
/-! DEFINITION. One meaning per command (chapter "Host port"). -/

namespace Sys2Proof.Machine

/-- HOST_LINK_UP (R468). -/
def execHostLinkUp (speed : Fin 5) (width : Fin 5) (s : State) : Outcome := .next (hostLinkUp s speed.val width.val)
/-- HOST_CONFIG_REQUEST (R466). -/
def execHostConfigRequest (pf : Fin 2) (req : CfgReq) (s : State) : Outcome := .next (hostConfigRequest s pf.val req)
/-- HOST_MEMORY_REQUEST_BEFORE_READY (R466). -/
def execHostMemoryRequestBeforeReady (pf : Fin 2) (write : Bool) (s : State) : Outcome :=
  .next (hostMemoryRequestBeforeReady s pf.val write)
/-- HOST_COMPLETION_RECEIVE (R459). -/
def execHostCompletionReceive (use : HostUse) (addr : BitVec 48) (data : List Byte) (status : Fin 4) (s : State) : Outcome :=
  .next (drain (hostCompletionReceive s use addr.toNat data status.val))
/-- HOST_COMPLETION_TIMEOUT (R460). -/
def execHostCompletionTimeout (use : HostUse) (s : State) : Outcome := .next (drain (hostCompletionTimeout s use))
/-- POISONED_WRITE_RECEIVE (R462). -/
def execPoisonedWriteReceive (pf : Fin 2) (s : State) : Outcome :=
  .next (if fnPresent s pf.val then poisonedWriteReceive s else s)
/-- FUNCTION_LEVEL_RESET (R463). -/
def execFunctionLevelReset (pf : Fin 2) (s : State) : Outcome := .next (drain (functionLevelReset s pf.val))
/-- HOST_LINK_RESET (R464). -/
def execHostLinkReset (s : State) : Outcome := .next (drain (hostLinkReset s))
/-- D_STATE_CHANGE (R465). -/
def execDStateChange (pf : Fin 2) (d3 : Bool) (s : State) : Outcome := .next (dStateChange s pf.val d3)
/-- MSIX_UNMASK (R461). -/
def execMsixUnmask (pf : Fin 2) (w : MsixWr) (s : State) : Outcome := .next (msixWrite s pf.val w)
/-- BUS_MASTER_DISABLE (R455). -/
def execBusMasterDisable (pf : Fin 2) (s : State) : Outcome := .next (busMasterDisable s pf.val)

end Sys2Proof.Machine
end

