-- ==== Sys2Proof/Machine/RowsLate.lean ====
section
/-! DEFINITION. One meaning per command (chapter "The remaining commands of the chapters on the field die, the store, the supply and start-up"). -/

namespace Sys2Proof.Machine

/-- BREAKPOINT_HALT (R521). -/
def execBreakpointHalt (te : Fin 64) (s : State) : Outcome := .next (breakpointHalt s te.val)
/-- DIAGNOSTIC_CHECK_PASS (R188). -/
def execDiagnosticCheckPass (pin : Fin 96) (cond : Fin 7) (s : State) : Outcome :=
  .next (diagnosticCheckPass s pin.val cond.val)
/-- DRAM_ZEROING_COMPLETE (R485). -/
def execDramZeroingComplete (s : State) : Outcome := .next (dramZeroingComplete s)
/-- DRIVE_CSTS_CFS (R272). -/
def execDriveCstsCfs (drv : Fin 16) (s : State) : Outcome := .next (drain (driveCstsCfs s drv.val))
/-- SURGE_LIMIT_RELEASE (R497). -/
def execSurgeLimitRelease (s : State) : Outcome := .next (surgeLimitRelease s)
/-- VBULK_BELOW_3V (R506). -/
def execVbulkBelow3v (s : State) : Outcome := .next (vbulkBelow3v s)

end Sys2Proof.Machine
end

