-- ==== Sys2Proof/Machine/MonitorRows.lean ====
section
/-! DEFINITION. The lines that the Daster monitor serves (chapter "Daster monitor"). -/

namespace Sys2Proof.Machine

/-! ### Lines and answers (R514, R516, R525) -/

/-- A response line: OK with its data when the code is 0, else NO with the code. A line with a valid checksum ends the wait
after a switch of rate. -/
def monAnswer (s : State) (no : Nat) (data : List Word) : State :=
  s.modMon fun m => { m with
    answers := m.answers ++ [{ no := no, data := data }], rateAt := none
    lines := if no = 0 then satInc 0xFFFF m.lines else m.lines
    refused := if no = 0 then m.refused else satInc 255 m.refused }

/-- A line: the refusals in order, then its action; `bare` for the lines that are served without an image (R525). -/
def monLine (s : State) (bare : Bool) (refusals : List (Bool × Nat)) (act : State → State) : State :=
  if !s.mon.run then s
  else if s.mon.noimg && !bare then monAnswer s 9 []
  else match refusals.find? (·.1) with
  | some r => monAnswer s r.2 []
  | none => act s

/-- How the monitor takes a line (R515, R516): a whole line is served; any other gets the refusal code of what befell it, and
only a line with a valid checksum ends the wait after a switch of rate. -/
def monHears (s : State) (line : LineIs) (serve : State → State) : State :=
  let refuse (no : Nat) : State := if s.mon.run then (monAnswer s no []).modMon fun m => { m with rateAt := s.mon.rateAt } else s
  match line with
  | .good => serve s
  | .badSum => refuse 1
  | .malformed => refuse 2
  | .overrun => refuse 3
  | .unknown => if s.mon.run then monAnswer s 4 [] else s

/-! ### Whose target it is (R519, R520) -/

/-- R520: the monitor may write the safety world: SIMPLEX with S_WRITE. -/
def monMaySafety (s : State) : Bool := voteMode s == 0 && s.mon.sWrite

/-- R520: the TE serves the safety world: it owns a safety-world subchannel or lies in the TEMASK of a class with one. -/
def teSafety (s : State) (te : Nat) : Bool :=
  s.subs.any fun x => x.2.attr.valid && x.2.attr.world == .safety && (x.2.attr.owner == te || inTeMask s x.2.attr.cls te)

/-- Code 08: the TE's island does not run, or the TE is retired or loading. -/
def teAway (s : State) (te : Nat) : Bool :=
  (s.island te).clk != 2 || (s.te te).st == .retired || (s.te te).st == .loading

/-- The refusals that H, S, G and K share: 04, 06, 08. -/
def teRefusals (s : State) (te : Nat) : List (Bool × Nat) :=
  [(decide (64 ≤ te), 4), (teSafety s te && !monMaySafety s, 6), (teAway s te, 8)]

/-- TE_DBG_CTL and TE_DBG_PC of a TE. -/
def dbgWords (s : State) (te : Nat) : List Word := [regValue s (.te te 0x40), regValue s (.te te 0x44)]

/-- The island that holds a register, where the blocks name it (R13, R19). -/
def regIsland : RegId → Option Nat
  | .te n _ => some n
  | .pin n _ => some (64 + n)
  | .bk k _ => some (160 + k)
  | .cfl k _ => some (176 + k)
  | .sc k _ => some (183 + k)
  | .dma c _ => some (193 + c / 8)
  | .weir _ | .levee _ | .dbell _ => some 201
  | .evt _ | .evtSrc _ => some 202
  | .mbx _ _ _ => some 203
  | .boot _ => some 204
  | .vote _ => some 211
  | _ => none

/-- Code 08: the register's island is stalled (R518). -/
def regStalled (s : State) (off : Nat) : Bool :=
  match regIsland (regAt off) with
  | some i => (s.island i).clk == 3
  | none => false

/-- Code 04: an offset of the register space that is a multiple of 4. -/
def badOffset (off : Nat) : Bool := decide (0x200000 ≤ off) || off % 4 != 0

/-! ### Memory (R518, R519) -/

/-- R519: any column of either world grants read; without an image only Basin is read (R525). -/
def monReads (s : State) (a : Nat) : Bool :=
  if s.mon.noimg then placeOf s a == .basin
  else match placeOf s a with
  | .nowhere | .regs => false
  | _ => match deciding (rgnNow s) (a / 4096) with
    | some (_, attr) => [World.safety, World.service].any fun w => [Col.u, .p, .e].any fun c => grants attr w c .read
    | none => false

/-- MON_DISPLAY: D (R518, R519): 1 to 64 words from an aligned address. -/
def monDisplay (s : State) (addr n : Nat) : State :=
  let as := (List.range n).map fun i => addr + 4 * i
  monLine s true
    [(n == 0 || decide (64 < n) || addr % 4 != 0, 4), (!as.all fun a => decide (a < 2 ^ 36) && monReads s a, 5)] fun s =>
    match ueHit s addr (4 * n) with
    | some g => monAnswer (noteUe s .monitor g) 5 []
    | none => monAnswer s 0 (as.map (peekWord s))

/-- R520: the deciding entry grants write to the safety world, in some column. -/
def safetyTarget (attr : Word) : Bool := [Col.u, .p, .e].any fun c => grants attr .safety c .write

/-- The refusal of a monitor write of a word: 0 when it may be made. -/
def monWriteFault (s : State) (a : Nat) : Nat :=
  match placeOf s a with
  | .nowhere | .regs => 5
  | _ => match deciding (rgnNow s) (a / 4096) with
    | none => 5
    | some (_, attr) =>
      if grants attr .service .p .write then 0
      else if safetyTarget attr then
        if !monMaySafety s then 6 else if grants attr .safety .p .write then 0 else 5
      else 5

/-- MON_WRITE_WORD: M (R518 to R520). -/
def monWriteWord (s : State) (a : Nat) (v : Word) : State :=
  let e := monWriteFault s a
  monLine s false [(a % 4 != 0, 4), (e != 0, e)] fun s =>
    match uePart s a 4 with
    | some g => monAnswer (noteUe s .monitor g) 5 []
    | none => monAnswer (pokeMem s a (toBytes 4 v.toNat)) 0 []

/-! ### Registers (R518 to R520, R540) -/

/-- R540: a read with a side effect. -/
def readActs (s : State) (off : Nat) : Bool :=
  match pairOf s (regAt off), regAt off with
  | some (_, isHi), _ => !isHi
  | none, .evt a => inWords a 0x8030 4
  | none, .mbx _ _ 4 => true
  | none, .bk _ 0x50 => true
  | _, _ => false

/-- R525: what Q reads without an image. -/
def bareRegister (off : Nat) : Bool :=
  match regAt off with
  | .glob _ | .boot _ => true
  | .te _ o => o == 0xFC
  | .pin _ o => o == 0x2C
  | .bk _ o => o == 0x5C
  | _ => false

/-- R517: while a line is served SC_STAT.STATE of SC-V reads 1 and MON_STAT.SERVING reads 1. -/
def servedWord (off : Nat) (v : Word) : Word :=
  if off = 0xB0004 then v ||| 2#32 else if off = 0xA0100 then (v &&& 0xFFFFFFFC#32) ||| 1#32 else v

/-- MON_READ_REGISTER: Q (R517, R518, R540). -/
def monReadRegister (s : State) (off : Nat) : State :=
  monLine s true
    [(badOffset off, 4), (s.mon.noimg && !bareRegister off, 5), (readActs s off || readRefused s .monitor (regAt off), 5),
      (regStalled s off, 8)] fun s =>
    let (s, v) := readReg s .monitor off
    monAnswer s 0 [servedWord off v]

/-- R519: the blocks that the monitor never writes: field die, vote and Confluence, Levee, fuses, MON_CTL, TE_DBG and
TE_TRACE registers. -/
def monNever (off : Nat) : Bool :=
  match regAt off with
  | .te _ o => o == 0x40 || o == 0x44 || o == 0x50
  | .mon o => o == 0
  | _ => (decide (0x40000 ≤ off) && decide (off < 0x50000)) || (decide (0x60000 ≤ off) && decide (off < 0x70000)) ||
    (decide (0x2000 ≤ off) && decide (off < 0x4000)) || (decide (0x1060 ≤ off) && decide (off < 0x1090))

/-- R519, R520: as whom the monitor writes a register: SC-V, where its World line lets that core write; itself, where the
line names it; else SC-S. -/
def monWriter (s : State) (off : Nat) : Option Initiator :=
  let id := regAt off
  if worldCode id = .monitor then some .monitor
  else if worldAllows s .scV id then some .scV
  else if worldAllows s .scS id then some .scS
  else none

/-- The refusal of a monitor write of a register: 0 when it may be made. -/
def monRegFault (s : State) (off : Nat) (v : Word) : Nat :=
  match monWriter s off with
  | none => 5
  | some who => if who == .scS && !monMaySafety s then 6 else if regRefuses s who off v then 5 else 0

/-- MON_WRITE_REGISTER: W (R518 to R520). -/
def monWriteRegister (s : State) (off : Nat) (v : Word) : State :=
  let e := monRegFault s off v
  monLine s false [(badOffset off, 4), (monNever off, 10), (e != 0, e), (regStalled s off, 8)] fun s =>
    drain (monAnswer (regEffect s ((monWriter s off).getD .scV) off v) 0 [])

/-! ### Cores (R518, R520 to R523) -/

/-- MON_HALT: H (R521). -/
def monHalt (s : State) (te : Nat) : State :=
  monLine s false (teRefusals s te) fun s =>
    let s := dbgHalt s te
    monAnswer s 0 (dbgWords s te)

/-- MON_STEP: S (R522): one instruction, which is the core's next command, is released; the two words of the answer follow
from it (log entry 31). -/
def monStep (s : State) (te : Nat) : State :=
  monLine s false (teRefusals s te ++ [(!(s.dbg te).halted, 7)]) fun s =>
    let s := dbgStep s te
    let (s, a) := s.free
    let (s, b) := s.free
    monAnswer s 0 [a.setWidth 32, b.setWidth 32]

/-- MON_RESUME: G (R522). -/
def monResume (s : State) (te : Nat) : State :=
  monLine s false (teRefusals s te ++ [(!(s.dbg te).halted, 7)]) fun s =>
    let s := dbgResume s te
    monAnswer s 0 [regValue s (.te te 0x40)]

/-- R518: K sets breakpoint k and enables it, or clears it with a = FFFFF. -/
def setBreakpoint (s : State) (te k a : Nat) (c : Option Nat) : State :=
  s.modDbg te fun d =>
    if a = 0xFFFFF then { d with bkpt := setNth d.bkpt k 0, bkptEn := setBit d.bkptEn k false }
    else { d with
      bkpt := setNth d.bkpt k (pack [(0, 16, a), (16, 6, c.getD 0), (22, 1, b2n c.isSome)]), bkptEn := setBit d.bkptEn k true }

/-- MON_BREAKPOINT: K (R518, R521). -/
def monBreakpoint (s : State) (te k a : Nat) (c : Option Nat) : State :=
  monLine s false
    ((decide (2 ≤ k) || (a != 0xFFFFF && (decide (0x10000 ≤ a) || a % 2 != 0)) || decide (64 ≤ c.getD 0), 4) ::
      teRefusals s te) fun s =>
    let s := setBreakpoint s te k a c
    monAnswer s 0 [nth 0 (s.dbg te).bkpt k]

/-- MON_CORE_REGISTER: X (R523): through MON_DBG_SEL and MON_DBG_DATA. -/
def monCoreRegister (s : State) (te r : Nat) : State :=
  monLine s false [(decide (64 ≤ te) || decide (53 ≤ r), 4), (teAway s te, 8), (!(s.dbg te).halted, 7)] fun s =>
    let s := s.modMon fun m => { m with sel := pack [(0, 6, te), (8, 6, r)] }
    let (s, v) := readReg s .monitor 0xB000C
    monAnswer s 0 [v]

/-- R524: the words of a trace record. -/
def traceWords (t : TraceRec) : List Word :=
  [t.time.setWidth 32, (t.time >>> 32).setWidth 32,
    pack [(0, 6, t.te), (6, 3, t.kind), (9, 12, t.sub), (21, 8, t.code)], t.pc]

/-- MON_TRACE_DUMP: T (R518): the n newest records, oldest first; T 0 clears the buffer and DROP. -/
def monTraceDump (s : State) (n : Nat) : State :=
  monLine s false [(decide (32 < n), 4)] fun s =>
    if n = 0 then monAnswer (s.modMon fun m => { m with trace := [], traceDrop := 0 }) 0 []
    else monAnswer s 0 ((s.mon.trace.drop (s.mon.trace.length - n)).flatMap traceWords)

/-- MON_ISLAND_STATUS: I (R518, R19). -/
def monIslandStatus (s : State) (isl : Nat) : State :=
  monLine s true [(decide (212 ≤ isl), 4)] fun s => monAnswer s 0 [islWord s isl]

/-- MON_SLOT_STATUS: L (R518). -/
def monSlotStatus (s : State) : State :=
  monLine s true [] fun s =>
    monAnswer s 0 ([0x1008, 0x100C, 0x1000, 0x1004, 0x1038].map fun o => regValue s (.boot o))

/-- R520: C on SC-S, or on a TE that serves the safety world. -/
def cxSafety (s : State) (te : Nat) : Bool := te == 64 || (decide (te < 64) && teSafety s te)

/-- MON_CXEMU: C (R518, R351). -/
def monCxemu (s : State) (te e : Nat) : State :=
  monLine s false
    [(decide (66 ≤ te) || decide (2 ≤ e), 4), (cxSafety s te && !monMaySafety s, 6), (decide (te < 64) && teAway s te, 8)]
    fun s =>
    let o := if te < 64 then Reg.devCxemu (te / 32) else Reg.devCxemuSc
    let s := s.setReg o (setBit (s.reg o) (if te < 64 then te % 32 else te - 64) (e == 1))
    monAnswer s 0 [s.reg o]

/-! ### Line rate (R514) -/

/-- MON_LINE_RATE: B (R514): answered at the old rate, then the switch. -/
def monLineRate (s : State) (i : Nat) : State :=
  monLine s true [(decide (6 ≤ i), 4)] fun s =>
    (monAnswer s 0 []).modMon fun m => { m with rate := i, rateAt := some s.now }

/-- MON_RATE_REVERT (R514): 10 s after the switch without a valid line. -/
def monRateRevert (s : State) : State :=
  match s.mon.rateAt with
  | some t => if s.mon.run ∧ t.toNat + 10000000000 ≤ s.now.toNat then s.modMon fun m => { m with rate := 0, rateAt := none } else s
  | none => s

end Sys2Proof.Machine
end

