-- ==== Sys2Proof/Machine/RowsMonitor.lean ====
section
/-! DEFINITION. One meaning per command (chapter "Daster monitor"). -/

namespace Sys2Proof.Machine

/-- MON_DISPLAY (R518). -/
def execMonDisplay (addr : BitVec 36) (n : Byte) (line : LineIs) (s : State) : Outcome :=
  .next (monHears s line fun s => monDisplay s addr.toNat n.toNat)
/-- MON_WRITE_WORD (R518). -/
def execMonWriteWord (addr : BitVec 36) (val : Word) (line : LineIs) (s : State) : Outcome :=
  .next (monHears s line fun s => monWriteWord s addr.toNat val)
/-- MON_READ_REGISTER (R518). -/
def execMonReadRegister (ofs : BitVec 36) (line : LineIs) (s : State) : Outcome :=
  .next (monHears s line fun s => monReadRegister s ofs.toNat)
/-- MON_WRITE_REGISTER (R518). -/
def execMonWriteRegister (ofs : BitVec 36) (val : Word) (line : LineIs) (s : State) : Outcome :=
  .next (monHears s line fun s => drain (monWriteRegister s ofs.toNat val))
/-- MON_HALT (R521). -/
def execMonHalt (te : Byte) (line : LineIs) (s : State) : Outcome :=
  .next (monHears s line fun s => monHalt s te.toNat)
/-- MON_STEP (R522). -/
def execMonStep (te : Byte) (line : LineIs) (s : State) : Outcome :=
  .next (monHears s line fun s => monStep s te.toNat)
/-- MON_RESUME (R522). -/
def execMonResume (te : Byte) (line : LineIs) (s : State) : Outcome :=
  .next (monHears s line fun s => monResume s te.toNat)
/-- MON_BREAKPOINT (R518). -/
def execMonBreakpoint (te k : Byte) (a : BitVec 36) (c : Option Byte) (line : LineIs) (s : State) : Outcome :=
  .next (monHears s line fun s => monBreakpoint s te.toNat k.toNat a.toNat (c.map fun x => x.toNat))
/-- MON_CORE_REGISTER (R523). -/
def execMonCoreRegister (te r : Byte) (line : LineIs) (s : State) : Outcome :=
  .next (monHears s line fun s => monCoreRegister s te.toNat r.toNat)
/-- MON_TRACE_DUMP (R518). -/
def execMonTraceDump (n : Byte) (line : LineIs) (s : State) : Outcome :=
  .next (monHears s line fun s => monTraceDump s n.toNat)
/-- MON_ISLAND_STATUS (R518). -/
def execMonIslandStatus (isl : Byte) (line : LineIs) (s : State) : Outcome :=
  .next (monHears s line fun s => monIslandStatus s isl.toNat)
/-- MON_SLOT_STATUS (R518). -/
def execMonSlotStatus (line : LineIs) (s : State) : Outcome :=
  .next (monHears s line fun s => monSlotStatus s)
/-- MON_CXEMU (R518). -/
def execMonCxemu (te e : Byte) (line : LineIs) (s : State) : Outcome :=
  .next (monHears s line fun s => monCxemu s te.toNat e.toNat)
/-- MON_LINE_RATE (R514). -/
def execMonLineRate (rate : Byte) (line : LineIs) (s : State) : Outcome :=
  .next (monHears s line fun s => monLineRate s rate.toNat)
/-- MON_RATE_REVERT (R514). -/
def execMonRateRevert (s : State) : Outcome := .next (monRateRevert s)

end Sys2Proof.Machine
end

