-- ==== Sys2Proof/Machine/RowsProgram.lean ====
section
/-! DEFINITION. One meaning per command (chapter "Channel programs"). -/

namespace Sys2Proof.Machine

/-- START (R86). -/
def execStart (o : Op) (s : State) : Outcome := .next (drain (startEffect s o))
/-- RESUME (R86). -/
def execResume (o : Op) (s : State) : Outcome := .next (drain (resumeEffect s o))
/-- HALT (R84). -/
def execHalt (o : Op) (s : State) : Outcome := .next (drain (stopSamples (haltEffect s o)))
/-- CLEAR (R85). -/
def execClear (o : Op) (s : State) : Outcome := .next (drain (clearEffect s o))
/-- CANCEL (R86). -/
def execCancel (o : Op) (s : State) : Outcome := .next (drain (cancelEffect s o))
/-- CONTEXT_GRANT (R143). -/
def execContextGrant (sub : Fin 4096) (s : State) : Outcome := .next (drain (contextGrant s sub.val))
/-- CCW_FETCH_COMPLETE (R74). -/
def execCcwFetchComplete (sub : Fin 4096) (s : State) : Outcome := .next (drain (ccwFetchComplete s sub.val))
/-- CCW_FETCH_TIMEOUT (R80). -/
def execCcwFetchTimeout (sub : Fin 4096) (s : State) : Outcome := .next (drain (ccwFetchTimeout s sub.val))
/-- DATA_ACCESS_TIMEOUT (R80). -/
def execDataAccessTimeout (sub : Fin 4096) (moved : List Byte) (s : State) : Outcome :=
  .next (drain (dataTimeout s sub.val moved))
/-- WRITE (R49). -/
def execWrite (sub : Fin 4096) (s : State) : Outcome := .next (drain (writeEffect s sub.val))
/-- READ (R49). -/
def execRead (sub : Fin 4096) (s : State) : Outcome := .next (drain (readEffect s sub.val))
/-- CONTROL (R49). -/
def execControl (sub : Fin 4096) (s : State) : Outcome := .next (drain (controlEffect s sub.val))
/-- SENSE (R51). -/
def execSense (sub : Fin 4096) (s : State) : Outcome := .next (drain (senseEffect s sub.val))
/-- TIC (R66). -/
def execTic (sub : Fin 4096) (s : State) : Outcome := .next (drain (ticEffect s sub.val))
/-- DRIVE (R52). -/
def execDrive (sub : Fin 4096) (s : State) : Outcome := .next (drain (driveEffect s sub.val))
/-- PROVE (R56). -/
def execProve (sub : Fin 4096) (s : State) : Outcome := .next (drain (proveEffect s sub.val))
/-- WAITEV (R58). -/
def execWaitev (sub : Fin 4096) (s : State) : Outcome := .next (drain (waitevEffect s sub.val))
/-- WAITEV_ARRIVAL (R60). -/
def execWaitevArrival (sub : Fin 4096) (s : State) : Outcome := .next (drain (waitevArrival s sub.val))
/-- WAITEV_TIMEOUT (R60). -/
def execWaitevTimeout (sub : Fin 4096) (s : State) : Outcome := .next (drain (waitevTimeout s sub.val))
/-- SAMPLE (R61). -/
def execSample (sub : Fin 4096) (s : State) : Outcome := .next (drain (sampleEffect s sub.val))
/-- ARCHIVE (R62). -/
def execArchive (sub : Fin 4096) (s : State) : Outcome := .next (drain (archiveEffect s sub.val))
/-- FETCHSTORE (R63). -/
def execFetchstore (sub : Fin 4096) (s : State) : Outcome := .next (drain (fetchstoreEffect s sub.val))
/-- NOP (R65). -/
def execNop (sub : Fin 4096) (s : State) : Outcome := .next (drain (nopEffect s sub.val))
/-- MARK (R65). -/
def execMark (sub : Fin 4096) (s : State) : Outcome := .next (drain (markEffect s sub.val))
/-- SIGNAL (R65). -/
def execSignal (sub : Fin 4096) (s : State) : Outcome := .next (drain (signalEffect s sub.val))
/-- ROUTINE_COMMAND (R67). -/
def execRoutineCommand (sub : Fin 4096) (s : State) : Outcome := .next (drain (routineCommand s sub.val))
/-- COMMAND_END (R68). -/
def execCommandEnd (sub : Fin 4096) (s : State) : Outcome := .next (drain (commandEndRow s sub.val))
/-- RUNAWAY_CHAIN (R79). -/
def execRunawayChain (sub : Fin 4096) (s : State) : Outcome := .next (drain (runawayChain s sub.val))

end Sys2Proof.Machine
end

