-- ==== Sys2Proof/Machine/RowsQueue.lean ====
section
/-! DEFINITION. One meaning per command (chapter "Queues, doorbells and reaches"). -/

namespace Sys2Proof.Machine

/-- DBELL_SQ (R107). -/
def execDbellSq (pf : Fin 2) (page : Fin 32) (num : Fin 1024) (aligned : Bool) (s : State) : Outcome :=
  .next (hostWrites s pf.val fun s => dbellSq s pf.val page.val num.val aligned)
/-- DBELL_CQ (R119). -/
def execDbellCq (pf : Fin 2) (page : Fin 32) (num : Fin 1024) (aligned : Bool) (s : State) : Outcome :=
  .next (hostWrites s pf.val fun s => dbellCq s pf.val page.val num.val aligned)
/-- DBELL_CORE_SQ (R111). -/
def execDbellCoreSq (core : Fin 66) (num : Fin 1024) (s : State) : Outcome :=
  .next (regWriteBy s (coreInit core) Reg.dbellCoreSq (BitVec.ofNat 32 num.val))
/-- DBELL_CORE_CQ (R111). -/
def execDbellCoreCq (core : Fin 66) (num : Fin 1024) (s : State) : Outcome :=
  .next (regWriteBy s (coreInit core) Reg.dbellCoreCq (BitVec.ofNat 32 num.val))
/-- TAIL_INDEX_READ_COMPLETE (R107). -/
def execTailIndexReadComplete (q : Fin 1024) (s : State) : Outcome := .next (tailIndexReadComplete s q.val)
/-- HEAD_INDEX_READ_COMPLETE (R119). -/
def execHeadIndexReadComplete (ring : Fin 1024) (s : State) : Outcome := .next (headIndexReadComplete s ring.val)
/-- ENTRY_SLOT (R115). -/
def execEntrySlot (s : State) : Outcome := .next (entrySlot s)
/-- ENTRY_COPY_COMPLETE (R99). -/
def execEntryCopyComplete (q : Fin 1024) (s : State) : Outcome := .next (drain (entryCopyComplete s q.val))
/-- RING_TAIL_WRITE (R117). -/
def execRingTailWrite (ring : Fin 1024) (s : State) : Outcome := .next (drain (ringTailWrite s ring.val))
/-- RING_EVENT_TIMEOUT (R118). -/
def execRingEventTimeout (ring : Fin 1024) (s : State) : Outcome := .next (ringEventTimeout s ring.val)
/-- HELD_CSW_POST (R121). -/
def execHeldCswPost (ring : Fin 1024) (s : State) : Outcome :=
  .next (drain (foldN 32 resetDone (heldCswPost s ring.val)))
/-- QUEUE_ENABLE (R126). -/
def execQueueEnable (w : World) (s : State) : Outcome := .next (qcmd s w 1)
/-- QUEUE_DISABLE (R126). -/
def execQueueDisable (w : World) (s : State) : Outcome := .next (qcmd s w 2)
/-- QUEUE_RESTART (R126). -/
def execQueueRestart (w : World) (s : State) : Outcome := .next (qcmd s w 3)
/-- DBELL_RESET (R129). -/
def execDbellReset (pf : Fin 2) (page : Fin 32) (tag : Half) (qreset : Bool) (s : State) : Outcome :=
  .next (drain (hostWrites s pf.val fun s => stopFenced (dbellReset s pf.val page.val tag.toNat qreset)))
/-- DBELL_REACH_RESET (R129). -/
def execDbellReachReset (w : World) (reach : Fin 32) (tag : Half) (qreset : Bool) (s : State) : Outcome :=
  regRow s (worldSc w) Reg.dbellReachReset (goBit + reach.val * 65536 + b2n qreset * 2097152 + tag.toNat)
/-- REACH_RESET_DRAIN_COMPLETE (R132). -/
def execReachResetDrainComplete (reach : Fin 32) (s : State) : Outcome :=
  .next (drain (reachResetDrainComplete s reach.val))
/-- GENERATION_INCREMENT (R125). -/
def execGenerationIncrement (sub : Fin 4096) (s : State) : Outcome := .next (drain (generationIncrement s sub.val))
/-- DEADLOCK_EXAMINATION (R137). -/
def execDeadlockExamination (reach : Fin 32) (s : State) : Outcome := .next (deadlockExamination s reach.val)
/-- DEADLOCK_END (R138). -/
def execDeadlockEnd (reach : Fin 32) (s : State) : Outcome := .next (drain (deadlockEnd s reach.val))

end Sys2Proof.Machine
end

