-- ==== Sys2Proof/Machine/RowsSilt.lean ====
section
/-! DEFINITION. One meaning per command (chapter "Silt store and DMA engine"). -/

namespace Sys2Proof.Machine

/-- DRIVE_LINK_UP (R272). -/
def execDriveLinkUp (drv : Fin 16) (width : Fin 8) (speed : Fin 5) (s : State) : Outcome :=
  .next (driveLinkUp s drv.val width.val speed.val)
/-- DRIVE_IDENTIFY_COMPLETE (R272). -/
def execDriveIdentifyComplete (drv : Fin 16) (id : DriveId) (s : State) : Outcome :=
  .next (drain (driveIdentifyComplete s drv.val id))
/-- DRIVE_INIT_TIMEOUT (R272). -/
def execDriveInitTimeout (drv : Fin 16) (s : State) : Outcome := .next (drain (driveInitTimeout s drv.val))
/-- DRIVE_LINK_DOWN (R272). -/
def execDriveLinkDown (drv : Fin 16) (s : State) : Outcome := .next (drain (driveLinkDown s drv.val))
/-- NVME_COMPLETION (R273). -/
def execNvmeCompletion (id : Nat) (sct : Fin 8) (sc : Byte) (data : NvReply) (s : State) : Outcome :=
  .next (drain (nvmeCompletion s id sct.val sc.toNat data.data data.cor data.unc))
/-- NVME_COMMAND_TIMEOUT (R273). -/
def execNvmeCommandTimeout (id : Nat) (s : State) : Outcome := .next (drain (nvmeCommandTimeout s id))
/-- DRIVE_RESET (R272). -/
def execDriveReset (who : Initiator) (drv : Fin 16) (s : State) : Outcome :=
  regRow s who (0x70104 + 0x20 * drv.val) (goBit + 1)
/-- DRIVE_ADOPT (R274). -/
def execDriveAdopt (who : Initiator) (drv : Fin 16) (s : State) : Outcome :=
  regRow s who (0x70104 + 0x20 * drv.val) (goBit + 2)
/-- DRIVE_REMOVE (R272). -/
def execDriveRemove (who : Initiator) (drv : Fin 16) (s : State) : Outcome :=
  regRow s who (0x70104 + 0x20 * drv.val) (goBit + 3)
/-- DRIVE_SHUTDOWN_COMPLETE (R272). -/
def execDriveShutdownComplete (drv : Fin 16) (s : State) : Outcome := .next (drain (driveShutdownComplete s drv.val))
/-- DRIVE_LATENCY_WINDOW (R278). -/
def execDriveLatencyWindow (drv : Fin 16) (mean max : Bool) (s : State) : Outcome := .next (driveLatencyWindow s drv.val mean max)
/-- BOUNCE_SPACE_GRANT (R271). -/
def execBounceSpaceGrant (sub : Fin 4096) (s : State) : Outcome := .next (bounceSpaceGrant s sub.val)
/-- RECORD_ALLOCATE (R282). -/
def execRecordAllocate (sub : Fin 4096) (s : State) : Outcome := .next (drain (recordAllocate s sub.val))
/-- RECORD_HEADER_WRITE (R284). -/
def execRecordHeaderWrite (ring : Fin 256) (s : State) : Outcome := .next (recordHeaderWrite s ring.val)
/-- RECORD_COMMITTED (R284). -/
def execRecordCommitted (ring : Fin 256) (s : State) : Outcome := .next (recordCommitted s ring.val)
/-- RECORD_VOID (R285). -/
def execRecordVoid (ring : Fin 256) (s : State) : Outcome := .next (recordVoid s ring.val)
/-- RING_RELEASE (R287). -/
def execRingRelease (who : Initiator) (ring : Fin 256) (seq : Word) (s : State) : Outcome :=
  .next (ringCmdWrite s who ring.val 1 (some seq))
/-- RING_ENABLE (R289). -/
def execRingEnable (who : Initiator) (ring : Fin 256) (s : State) : Outcome :=
  .next (ringCmdWrite s who ring.val 2 none)
/-- RING_DISABLE (R289). -/
def execRingDisable (who : Initiator) (ring : Fin 256) (s : State) : Outcome :=
  .next (ringCmdWrite s who ring.val 3 none)
/-- RING_SCAN_COMPLETE (R289). -/
def execRingScanComplete (ring : Fin 256) (ckA ckB : List Byte) (blocks : Tbl (List Byte)) (s : State) : Outcome :=
  .next (ringScanComplete s ring.val ckA ckB blocks)
/-- INDEX_REBUILD_COMPLETE (R289). -/
def execIndexRebuildComplete (ring : Fin 256) (blocks : Tbl (List Byte)) (s : State) : Outcome :=
  .next (indexRebuildComplete s ring.val blocks)
/-- SILT_COPY_GO (R292). -/
def execSiltCopyGo (who : Initiator) (s : State) : Outcome := regRow s who 0x70074 1
/-- SILT_COPY_COMPLETE (R292). -/
def execSiltCopyComplete (err : Bool) (s : State) : Outcome := .next (siltCopyComplete s err)
/-- DMA_CH_TAIL (R293). -/
def execDmaChTail (who : Initiator) (ch : Fin 32) (tail : BitVec 12) (s : State) : Outcome :=
  regRow s who (Reg.dmaChTail ch.val) tail.toNat
/-- DMA_BURST (R297). -/
def execDmaBurst (s : State) : Outcome := .next (drain (dmaBurst s))
/-- DMA_REQUEST_WITHDRAW (R296). -/
def execDmaRequestWithdraw (ch : Fin 32) (read : Fin 1025) (s : State) : Outcome :=
  .next (drain (dmaRequestWithdraw s ch.val read.val))
/-- DMA_DESCRIPTOR_COMPLETE (R298). -/
def execDmaDescriptorComplete (ch : Fin 32) (s : State) : Outcome := .next (drain (dmaDescriptorComplete s ch.val))
/-- DMA_RESUME (R299). -/
def execDmaResume (who : Initiator) (ch : Fin 32) (s : State) : Outcome := regRow s who (Reg.dmaChCfg ch.val + 0x18) 1
/-- DMA_ABORT (R299). -/
def execDmaAbort (who : Initiator) (ch : Fin 32) (s : State) : Outcome := regRow s who (Reg.dmaChCfg ch.val + 0x18) 2
/-- SIFT_BLOCK (R302). -/
def execSiftBlock (user : SiftUser) (s : State) : Outcome :=
  .next (drain (match user with
    | .dma c => dmaSift s c.val
    | .sub n => commandSift s n.val))

end Sys2Proof.Machine
end

