-- ==== Sys2Proof/Machine/RowsVote.lean ====
section
/-! DEFINITION. One meaning per command (chapter "Composite operation and vote-before-actuate"). -/

namespace Sys2Proof.Machine

/-- CFL_FRAME_SEND (R208). -/
def execCflFrameSend (s : State) : Outcome := .next (cflFrameSend s)
/-- CFL_FRAME_RECEIVE (R209). -/
def execCflFrameReceive (link : Fin 3) (f : CflFrame) (s : State) : Outcome :=
  .next (drain (cflFrameReceive s link.val f))
/-- DIGEST (R219). -/
def execDigest (link : Fin 3) (s : State) : Outcome := .next (drain (digestEffect s link.val))
/-- ECHO (R219). -/
def execEcho (link : Fin 3) (s : State) : Outcome := .next (drain (echoEffect s link.val))
/-- ABSENT (R227). -/
def execAbsent (link : Fin 3) (s : State) : Outcome := .next (drain (absentEffect s link.val))
/-- TRANSFER (R237). -/
def execTransfer (link : Fin 3) (s : State) : Outcome := .next (transferEffect s link.val)
/-- JOIN_REQUEST (R212). -/
def execJoinRequest (link : Fin 3) (s : State) : Outcome := .next (joinRequest s link.val)
/-- JOIN_ACCEPT (R212). -/
def execJoinAccept (link : Fin 3) (s : State) : Outcome := .next (joinAccept s link.val)
/-- EXCLUSION_NOTICE (R233). -/
def execExclusionNotice (link : Fin 3) (s : State) : Outcome := .next (drain (exclusionNotice s link.val))
/-- REJOIN_DONE (R237). -/
def execRejoinDone (link : Fin 3) (s : State) : Outcome := .next (rejoinDone s link.val)
/-- HOLD (R237). -/
def execHold (link : Fin 3) (s : State) : Outcome := .next (holdEffect s link.val)
/-- RELEASE (R237). -/
def execRelease (link : Fin 3) (s : State) : Outcome := .next (releaseEffect s link.val)
/-- CFL_LINK_UP (R207). -/
def execCflLinkUp (link : Fin 3) (pos : Fin 4) (mode : Fin 4) (members : BitVec 4) (hash : List Word) (rttLast rttMin rttMax : Byte) (s : State) : Outcome :=
  .next (cflLinkUp s link.val pos.val mode.val members.toNat hash rttLast.toNat rttMin.toNat rttMax.toNat)
/-- CFL_LINK_DOWN (R209). -/
def execCflLinkDown (link : Fin 3) (s : State) : Outcome := .next (drain (cflLinkDown s link.val))
/-- CFL_RETRAIN (R210). -/
def execCflRetrain (who : Initiator) (link : Fin 3) (s : State) : Outcome := regRow s who (Reg.cflCtl link.val) 2
/-- FORMATION_ENTRY (R213). -/
def execFormationEntry (s : State) : Outcome := .next (formationEntry s)
/-- DIGEST_RESEND (R219). -/
def execDigestResend (sub : Fin 4096) (link : Fin 3) (s : State) : Outcome := .next (digestResend s sub.val link.val)
/-- VOTE_WINDOW_CLOSE (R222). -/
def execVoteWindowClose (sub : Fin 4096) (s : State) : Outcome := .next (drain (voteWindowClose s sub.val))
/-- ACTUATION_INSTANT (R224). -/
def execActuationInstant (sub : Fin 4096) (s : State) : Outcome := .next (actuationInstant s sub.val)
/-- QUORUM_LOSS_TIMEOUT (R231). -/
def execQuorumLossTimeout (s : State) : Outcome := .next (drain (quorumLossTimeout s))
/-- TIMEBASE_OFFSET_TIMEOUT (R231). -/
def execTimebaseOffsetTimeout (s : State) : Outcome := .next (drain (timebaseOffsetTimeout s))
/-- VOTE_RECORD_EXPIRY (R225). -/
def execVoteRecordExpiry (s : State) : Outcome := .next (voteRecordExpiry s)
/-- LEAVE (R231). -/
def execLeave (who : Initiator) (s : State) : Outcome := regRow s who (Reg.voteCfg + 8) 1
/-- REJOIN (R236). -/
def execRejoin (who : Initiator) (s : State) : Outcome := regRow s who (Reg.voteCfg + 8) 2
/-- REJOIN_STEP_COMPLETE (R237). -/
def execRejoinStepComplete (s : State) : Outcome := .next (rejoinStepComplete s)
/-- REJOIN_HOLD_TIMEOUT (R237). -/
def execRejoinHoldTimeout (s : State) : Outcome := .next (rejoinHoldTimeout s)

end Sys2Proof.Machine
end

