-- ==== Sys2Proof/Machine/Dispatch.lean ====
section
/-! DEFINITION. One arm per command: each calls the meaning of its row. -/

namespace Sys2Proof.Machine

/-- What a command does to everything but the queue. -/
def exec (i : Instr) (s : State) : Host.Outcome State Fault Refusal :=
  match i with
  | .linkFrameLossSafe => Sys2Proof.Machine.execLinkFrameLossSafe s
  | .handshakeWatchdog isl who => Sys2Proof.Machine.execHandshakeWatchdog isl who s
  | .handshakeCompleteAfterStall isl => Sys2Proof.Machine.execHandshakeCompleteAfterStall isl s
  | .keepaliveLoss pin => Sys2Proof.Machine.execKeepaliveLoss pin s
  | .islandFreqUpdate isl freq => Sys2Proof.Machine.execIslandFreqUpdate isl freq s
  | .wdogClear who isl => Sys2Proof.Machine.execWdogClear who isl s
  | .timebaseTick => Sys2Proof.Machine.execTimebaseTick s
  | .latchingRead who off => Sys2Proof.Machine.execLatchingRead who off s
  | .registerWrite who off val => Sys2Proof.Machine.execRegisterWrite who off val s
  | .start o => Sys2Proof.Machine.execStart o s
  | .resume o => Sys2Proof.Machine.execResume o s
  | .halt o => Sys2Proof.Machine.execHalt o s
  | .clear o => Sys2Proof.Machine.execClear o s
  | .cancel o => Sys2Proof.Machine.execCancel o s
  | .contextGrant sub => Sys2Proof.Machine.execContextGrant sub s
  | .ccwFetchComplete sub => Sys2Proof.Machine.execCcwFetchComplete sub s
  | .ccwFetchTimeout sub => Sys2Proof.Machine.execCcwFetchTimeout sub s
  | .dataAccessTimeout sub moved => Sys2Proof.Machine.execDataAccessTimeout sub moved s
  | .write sub => Sys2Proof.Machine.execWrite sub s
  | .read sub => Sys2Proof.Machine.execRead sub s
  | .control sub => Sys2Proof.Machine.execControl sub s
  | .sense sub => Sys2Proof.Machine.execSense sub s
  | .tic sub => Sys2Proof.Machine.execTic sub s
  | .drive sub => Sys2Proof.Machine.execDrive sub s
  | .prove sub => Sys2Proof.Machine.execProve sub s
  | .waitev sub => Sys2Proof.Machine.execWaitev sub s
  | .waitevArrival sub => Sys2Proof.Machine.execWaitevArrival sub s
  | .waitevTimeout sub => Sys2Proof.Machine.execWaitevTimeout sub s
  | .sample sub => Sys2Proof.Machine.execSample sub s
  | .archive sub => Sys2Proof.Machine.execArchive sub s
  | .fetchstore sub => Sys2Proof.Machine.execFetchstore sub s
  | .nop sub => Sys2Proof.Machine.execNop sub s
  | .mark sub => Sys2Proof.Machine.execMark sub s
  | .signal sub => Sys2Proof.Machine.execSignal sub s
  | .routineCommand sub => Sys2Proof.Machine.execRoutineCommand sub s
  | .commandEnd sub => Sys2Proof.Machine.execCommandEnd sub s
  | .runawayChain sub => Sys2Proof.Machine.execRunawayChain sub s
  | .dbellSq pf page num aligned => Sys2Proof.Machine.execDbellSq pf page num aligned s
  | .dbellCq pf page num aligned => Sys2Proof.Machine.execDbellCq pf page num aligned s
  | .dbellCoreSq core num => Sys2Proof.Machine.execDbellCoreSq core num s
  | .dbellCoreCq core num => Sys2Proof.Machine.execDbellCoreCq core num s
  | .tailIndexReadComplete q => Sys2Proof.Machine.execTailIndexReadComplete q s
  | .headIndexReadComplete ring => Sys2Proof.Machine.execHeadIndexReadComplete ring s
  | .entrySlot => Sys2Proof.Machine.execEntrySlot s
  | .entryCopyComplete q => Sys2Proof.Machine.execEntryCopyComplete q s
  | .ringTailWrite ring => Sys2Proof.Machine.execRingTailWrite ring s
  | .ringEventTimeout ring => Sys2Proof.Machine.execRingEventTimeout ring s
  | .heldCswPost ring => Sys2Proof.Machine.execHeldCswPost ring s
  | .queueEnable w => Sys2Proof.Machine.execQueueEnable w s
  | .queueDisable w => Sys2Proof.Machine.execQueueDisable w s
  | .queueRestart w => Sys2Proof.Machine.execQueueRestart w s
  | .dbellReset pf page tag qreset => Sys2Proof.Machine.execDbellReset pf page tag qreset s
  | .dbellReachReset w reach tag qreset => Sys2Proof.Machine.execDbellReachReset w reach tag qreset s
  | .reachResetDrainComplete reach => Sys2Proof.Machine.execReachResetDrainComplete reach s
  | .generationIncrement sub => Sys2Proof.Machine.execGenerationIncrement sub s
  | .deadlockExamination reach => Sys2Proof.Machine.execDeadlockExamination reach s
  | .deadlockEnd reach => Sys2Proof.Machine.execDeadlockEnd reach s
  | .coreDispatch te => Sys2Proof.Machine.execCoreDispatch te s
  | .stageInComplete sub => Sys2Proof.Machine.execStageInComplete sub s
  | .budgetExpiry te => Sys2Proof.Machine.execBudgetExpiry te s
  | .swapOutComplete te => Sys2Proof.Machine.execSwapOutComplete te s
  | .rebalancerWindow => Sys2Proof.Machine.execRebalancerWindow s
  | .devMigrate who sub dest => Sys2Proof.Machine.execDevMigrate who sub dest s
  | .migrationComplete sub => Sys2Proof.Machine.execMigrationComplete sub s
  | .devTeRetire who te => Sys2Proof.Machine.execDevTeRetire who te s
  | .teStallRetire te => Sys2Proof.Machine.execTeStallRetire te s
  | .spareLoadComplete te => Sys2Proof.Machine.execSpareLoadComplete te s
  | .teDispInval who te cls code classAll all => Sys2Proof.Machine.execTeDispInval who te cls code classAll all s
  | .devDispCmd who cls code => Sys2Proof.Machine.execDevDispCmd who cls code s
  | .pinEdgeAccept pin level t => Sys2Proof.Machine.execPinEdgeAccept pin level t s
  | .wettingPulse pin mv => Sys2Proof.Machine.execWettingPulse pin mv s
  | .adcSlotConversion bank slot code => Sys2Proof.Machine.execAdcSlotConversion bank slot code s
  | .pwmPeriodBoundary pin => Sys2Proof.Machine.execPwmPeriodBoundary pin s
  | .audioSample pin => Sys2Proof.Machine.execAudioSample pin s
  | .overcurrentTrip pin => Sys2Proof.Machine.execOvercurrentTrip pin s
  | .diagnosticDetect pin cond => Sys2Proof.Machine.execDiagnosticDetect pin cond s
  | .testPulse pin isOpen isShort => Sys2Proof.Machine.execTestPulse pin isOpen isShort s
  | .walkStep moved => Sys2Proof.Machine.execWalkStep moved s
  | .faultReport => Sys2Proof.Machine.execFaultReport s
  | .guardBandUpdate bank temp iBank vfld => Sys2Proof.Machine.execGuardBandUpdate bank temp iBank vfld s
  | .backgroundCalibrationPeriod bank => Sys2Proof.Machine.execBackgroundCalibrationPeriod bank s
  | .calGo who bank => Sys2Proof.Machine.execCalGo who bank s
  | .calibrationComplete bank temp iBank refFault => Sys2Proof.Machine.execCalibrationComplete bank temp iBank refFault s
  | .commonCauseBegin banks gndofs vinHi => Sys2Proof.Machine.execCommonCauseBegin banks gndofs vinHi s
  | .commonCauseEnd => Sys2Proof.Machine.execCommonCauseEnd s
  | .pinRecfg who pin pair cal => Sys2Proof.Machine.execPinRecfg who pin pair cal s
  | .pinRecfgComplete pin => Sys2Proof.Machine.execPinRecfgComplete pin s
  | .scanGo who bank => Sys2Proof.Machine.execScanGo who bank s
  | .scanListApply bank => Sys2Proof.Machine.execScanListApply bank s
  | .cflFrameSend => Sys2Proof.Machine.execCflFrameSend s
  | .cflFrameReceive link f => Sys2Proof.Machine.execCflFrameReceive link f s
  | .digest link => Sys2Proof.Machine.execDigest link s
  | .echo link => Sys2Proof.Machine.execEcho link s
  | .absent link => Sys2Proof.Machine.execAbsent link s
  | .transfer link => Sys2Proof.Machine.execTransfer link s
  | .joinRequest link => Sys2Proof.Machine.execJoinRequest link s
  | .joinAccept link => Sys2Proof.Machine.execJoinAccept link s
  | .exclusionNotice link => Sys2Proof.Machine.execExclusionNotice link s
  | .rejoinDone link => Sys2Proof.Machine.execRejoinDone link s
  | .hold link => Sys2Proof.Machine.execHold link s
  | .release link => Sys2Proof.Machine.execRelease link s
  | .cflLinkUp link pos mode members hash rttLast rttMin rttMax => Sys2Proof.Machine.execCflLinkUp link pos mode members hash rttLast rttMin rttMax s
  | .cflLinkDown link => Sys2Proof.Machine.execCflLinkDown link s
  | .cflRetrain who link => Sys2Proof.Machine.execCflRetrain who link s
  | .formationEntry => Sys2Proof.Machine.execFormationEntry s
  | .digestResend sub link => Sys2Proof.Machine.execDigestResend sub link s
  | .voteWindowClose sub => Sys2Proof.Machine.execVoteWindowClose sub s
  | .actuationInstant sub => Sys2Proof.Machine.execActuationInstant sub s
  | .quorumLossTimeout => Sys2Proof.Machine.execQuorumLossTimeout s
  | .timebaseOffsetTimeout => Sys2Proof.Machine.execTimebaseOffsetTimeout s
  | .voteRecordExpiry => Sys2Proof.Machine.execVoteRecordExpiry s
  | .leave who => Sys2Proof.Machine.execLeave who s
  | .rejoin who => Sys2Proof.Machine.execRejoin who s
  | .rejoinStepComplete => Sys2Proof.Machine.execRejoinStepComplete s
  | .rejoinHoldTimeout => Sys2Proof.Machine.execRejoinHoldTimeout s
  | .commitAccept sub => Sys2Proof.Machine.execCommitAccept sub s
  | .commitStoresComplete sub => Sys2Proof.Machine.execCommitStoresComplete sub s
  | .stageOutComplete sub => Sys2Proof.Machine.execStageOutComplete sub s
  | .retryWindow => Sys2Proof.Machine.execRetryWindow s
  | .commitUnitFault sub stage => Sys2Proof.Machine.execCommitUnitFault sub stage s
  | .warmResetRequest who => Sys2Proof.Machine.execWarmResetRequest who s
  | .coldResetRequest who => Sys2Proof.Machine.execColdResetRequest who s
  | .resetPinLow ns => Sys2Proof.Machine.execResetPinLow ns s
  | .mainDieReset => Sys2Proof.Machine.execMainDieReset s
  | .powerLossDetect cause => Sys2Proof.Machine.execPowerLossDetect cause s
  | .powerLossCommitsComplete => Sys2Proof.Machine.execPowerLossCommitsComplete s
  | .journalWriteComplete => Sys2Proof.Machine.execJournalWriteComplete s
  | .powerLossReset => Sys2Proof.Machine.execPowerLossReset s
  | .powerLossRestart => Sys2Proof.Machine.execPowerLossRestart s
  | .driveLinkUp drv width speed => Sys2Proof.Machine.execDriveLinkUp drv width speed s
  | .driveIdentifyComplete drv id => Sys2Proof.Machine.execDriveIdentifyComplete drv id s
  | .driveInitTimeout drv => Sys2Proof.Machine.execDriveInitTimeout drv s
  | .driveLinkDown drv => Sys2Proof.Machine.execDriveLinkDown drv s
  | .nvmeCompletion id sct sc data => Sys2Proof.Machine.execNvmeCompletion id sct sc data s
  | .nvmeCommandTimeout id => Sys2Proof.Machine.execNvmeCommandTimeout id s
  | .driveReset who drv => Sys2Proof.Machine.execDriveReset who drv s
  | .driveAdopt who drv => Sys2Proof.Machine.execDriveAdopt who drv s
  | .driveRemove who drv => Sys2Proof.Machine.execDriveRemove who drv s
  | .driveShutdownComplete drv => Sys2Proof.Machine.execDriveShutdownComplete drv s
  | .driveLatencyWindow drv mean max => Sys2Proof.Machine.execDriveLatencyWindow drv mean max s
  | .bounceSpaceGrant sub => Sys2Proof.Machine.execBounceSpaceGrant sub s
  | .recordAllocate sub => Sys2Proof.Machine.execRecordAllocate sub s
  | .recordHeaderWrite ring => Sys2Proof.Machine.execRecordHeaderWrite ring s
  | .recordCommitted ring => Sys2Proof.Machine.execRecordCommitted ring s
  | .recordVoid ring => Sys2Proof.Machine.execRecordVoid ring s
  | .ringRelease who ring seq => Sys2Proof.Machine.execRingRelease who ring seq s
  | .ringEnable who ring => Sys2Proof.Machine.execRingEnable who ring s
  | .ringDisable who ring => Sys2Proof.Machine.execRingDisable who ring s
  | .ringScanComplete ring ckA ckB blocks => Sys2Proof.Machine.execRingScanComplete ring ckA ckB blocks s
  | .indexRebuildComplete ring blocks => Sys2Proof.Machine.execIndexRebuildComplete ring blocks s
  | .siltCopyGo who => Sys2Proof.Machine.execSiltCopyGo who s
  | .siltCopyComplete err => Sys2Proof.Machine.execSiltCopyComplete err s
  | .dmaChTail who ch tail => Sys2Proof.Machine.execDmaChTail who ch tail s
  | .dmaBurst => Sys2Proof.Machine.execDmaBurst s
  | .dmaRequestWithdraw ch read => Sys2Proof.Machine.execDmaRequestWithdraw ch read s
  | .dmaDescriptorComplete ch => Sys2Proof.Machine.execDmaDescriptorComplete ch s
  | .dmaResume who ch => Sys2Proof.Machine.execDmaResume who ch s
  | .dmaAbort who ch => Sys2Proof.Machine.execDmaAbort who ch s
  | .siftBlock user => Sys2Proof.Machine.execSiftBlock user s
  | .brookOutputLatch link syms => Sys2Proof.Machine.execBrookOutputLatch link syms s
  | .pdOut link pos => Sys2Proof.Machine.execPdOut link pos s
  | .pdIn link f => Sys2Proof.Machine.execPdIn link f s
  | .brookInputImageWrite link => Sys2Proof.Machine.execBrookInputImageWrite link s
  | .brookMessageSend link => Sys2Proof.Machine.execBrookMessageSend link s
  | .ack link f => Sys2Proof.Machine.execAck link f s
  | .data link f => Sys2Proof.Machine.execData link f s
  | .nak link f => Sys2Proof.Machine.execNak link f s
  | .brookReplyTimeout link => Sys2Proof.Machine.execBrookReplyTimeout link s
  | .bkTxdata who link val => Sys2Proof.Machine.execBkTxdata who link val s
  | .bkRxdata who link => Sys2Proof.Machine.execBkRxdata who link s
  | .brookSignalDetect link => Sys2Proof.Machine.execBrookSignalDetect link s
  | .brookTrainingComplete link eq => Sys2Proof.Machine.execBrookTrainingComplete link eq s
  | .brookTrainingTimeout link => Sys2Proof.Machine.execBrookTrainingTimeout link s
  | .brookLinkDown link syms => Sys2Proof.Machine.execBrookLinkDown link syms s
  | .bkRetrain who link => Sys2Proof.Machine.execBkRetrain who link s
  | .bkEnable who link en => Sys2Proof.Machine.execBkEnable who link en s
  | .bkCntClr who link => Sys2Proof.Machine.execBkCntClr who link s
  | .bkPosReset who link mask => Sys2Proof.Machine.execBkPosReset who link mask s
  | .brookEyeMeasure link v h => Sys2Proof.Machine.execBrookEyeMeasure link v h s
  | .shadowTrainingComplete link good eq => Sys2Proof.Machine.execShadowTrainingComplete link good eq s
  | .shadowVerified link clean v h => Sys2Proof.Machine.execShadowVerified link clean v h s
  | .shadowSwap link => Sys2Proof.Machine.execShadowSwap link s
  | .lb h rd rs disp => Sys2Proof.Machine.execLb h rd rs disp s
  | .lbu h rd rs disp => Sys2Proof.Machine.execLbu h rd rs disp s
  | .lh h rd rs disp => Sys2Proof.Machine.execLh h rd rs disp s
  | .lhu h rd rs disp => Sys2Proof.Machine.execLhu h rd rs disp s
  | .lw h rd rs disp => Sys2Proof.Machine.execLw h rd rs disp s
  | .sb h rd rs disp => Sys2Proof.Machine.execSb h rd rs disp s
  | .sh h rd rs disp => Sys2Proof.Machine.execSh h rd rs disp s
  | .sw h rd rs disp => Sys2Proof.Machine.execSw h rd rs disp s
  | .lwS core rd rs d5 => Sys2Proof.Machine.execLwS core rd rs d5 s
  | .swS core rt rs d5 => Sys2Proof.Machine.execSwS core rt rs d5 s
  | .add h rd rs1 rs2 => Sys2Proof.Machine.execAdd h rd rs1 rs2 s
  | .sub h rd rs1 rs2 => Sys2Proof.Machine.execSub h rd rs1 rs2 s
  | .andR h rd rs1 rs2 => Sys2Proof.Machine.execAndR h rd rs1 rs2 s
  | .orR h rd rs1 rs2 => Sys2Proof.Machine.execOrR h rd rs1 rs2 s
  | .xorR h rd rs1 rs2 => Sys2Proof.Machine.execXorR h rd rs1 rs2 s
  | .andn h rd rs1 rs2 => Sys2Proof.Machine.execAndn h rd rs1 rs2 s
  | .sll h rd rs1 rs2 => Sys2Proof.Machine.execSll h rd rs1 rs2 s
  | .srl h rd rs1 rs2 => Sys2Proof.Machine.execSrl h rd rs1 rs2 s
  | .sra h rd rs1 rs2 => Sys2Proof.Machine.execSra h rd rs1 rs2 s
  | .ror h rd rs1 rs2 => Sys2Proof.Machine.execRor h rd rs1 rs2 s
  | .slt h rd rs1 rs2 => Sys2Proof.Machine.execSlt h rd rs1 rs2 s
  | .sltu h rd rs1 rs2 => Sys2Proof.Machine.execSltu h rd rs1 rs2 s
  | .min h rd rs1 rs2 => Sys2Proof.Machine.execMin h rd rs1 rs2 s
  | .max h rd rs1 rs2 => Sys2Proof.Machine.execMax h rd rs1 rs2 s
  | .minu h rd rs1 rs2 => Sys2Proof.Machine.execMinu h rd rs1 rs2 s
  | .maxu h rd rs1 rs2 => Sys2Proof.Machine.execMaxu h rd rs1 rs2 s
  | .mul h rd rs1 rs2 => Sys2Proof.Machine.execMul h rd rs1 rs2 s
  | .mulh h rd rs1 rs2 => Sys2Proof.Machine.execMulh h rd rs1 rs2 s
  | .mulhu h rd rs1 rs2 => Sys2Proof.Machine.execMulhu h rd rs1 rs2 s
  | .div h rd rs1 rs2 => Sys2Proof.Machine.execDiv h rd rs1 rs2 s
  | .divu h rd rs1 rs2 => Sys2Proof.Machine.execDivu h rd rs1 rs2 s
  | .rem h rd rs1 rs2 => Sys2Proof.Machine.execRem h rd rs1 rs2 s
  | .remu h rd rs1 rs2 => Sys2Proof.Machine.execRemu h rd rs1 rs2 s
  | .clz h rd rs1 => Sys2Proof.Machine.execClz h rd rs1 s
  | .popc h rd rs1 => Sys2Proof.Machine.execPopc h rd rs1 s
  | .sextb h rd rs1 => Sys2Proof.Machine.execSextb h rd rs1 s
  | .sexth h rd rs1 => Sys2Proof.Machine.execSexth h rd rs1 s
  | .bswap h rd rs1 => Sys2Proof.Machine.execBswap h rd rs1 s
  | .addi h rd rs1 imm => Sys2Proof.Machine.execAddi h rd rs1 imm s
  | .andi h rd rs1 imm => Sys2Proof.Machine.execAndi h rd rs1 imm s
  | .ori h rd rs1 imm => Sys2Proof.Machine.execOri h rd rs1 imm s
  | .xori h rd rs1 imm => Sys2Proof.Machine.execXori h rd rs1 imm s
  | .slli h rd rs1 sh => Sys2Proof.Machine.execSlli h rd rs1 sh s
  | .srli h rd rs1 sh => Sys2Proof.Machine.execSrli h rd rs1 sh s
  | .srai h rd rs1 sh => Sys2Proof.Machine.execSrai h rd rs1 sh s
  | .rori h rd rs1 sh => Sys2Proof.Machine.execRori h rd rs1 sh s
  | .lui h rd imm => Sys2Proof.Machine.execLui h rd imm s
  | .llo h rd imm => Sys2Proof.Machine.execLlo h rd imm s
  | .movS core rd rs => Sys2Proof.Machine.execMovS core rd rs s
  | .addS core rd rs => Sys2Proof.Machine.execAddS core rd rs s
  | .subS core rd rs => Sys2Proof.Machine.execSubS core rd rs s
  | .andS core rd rs => Sys2Proof.Machine.execAndS core rd rs s
  | .orS core rd rs => Sys2Proof.Machine.execOrS core rd rs s
  | .xorS core rd rs => Sys2Proof.Machine.execXorS core rd rs s
  | .sllS core rd rs => Sys2Proof.Machine.execSllS core rd rs s
  | .srlS core rd rs => Sys2Proof.Machine.execSrlS core rd rs s
  | .sraS core rd rs => Sys2Proof.Machine.execSraS core rd rs s
  | .mulS core rd rs => Sys2Proof.Machine.execMulS core rd rs s
  | .negS core rd rs => Sys2Proof.Machine.execNegS core rd rs s
  | .notS core rd rs => Sys2Proof.Machine.execNotS core rd rs s
  | .slliS core rd rs => Sys2Proof.Machine.execSlliS core rd rs s
  | .srliS core rd rs => Sys2Proof.Machine.execSrliS core rd rs s
  | .sraiS core rd rs => Sys2Proof.Machine.execSraiS core rd rs s
  | .addiS core rd imm => Sys2Proof.Machine.execAddiS core rd imm s
  | .liS core rd imm => Sys2Proof.Machine.execLiS core rd imm s
  | .cmp h pd cond rs1 rs2 pcomb => Sys2Proof.Machine.execCmp h pd cond rs1 rs2 pcomb s
  | .cmpi h pd cond rs1 imm => Sys2Proof.Machine.execCmpi h pd cond rs1 imm s
  | .pand h pd pa pb => Sys2Proof.Machine.execPand h pd pa pb s
  | .por h pd pa pb => Sys2Proof.Machine.execPor h pd pa pb s
  | .pxor h pd pa pb => Sys2Proof.Machine.execPxor h pd pa pb s
  | .pandn h pd pa pb => Sys2Proof.Machine.execPandn h pd pa pb s
  | .pnot h pd pa => Sys2Proof.Machine.execPnot h pd pa s
  | .pmov h pd pa => Sys2Proof.Machine.execPmov h pd pa s
  | .prd h gr => Sys2Proof.Machine.execPrd h gr s
  | .pwr h gr => Sys2Proof.Machine.execPwr h gr s
  | .bra h off => Sys2Proof.Machine.execBra h off s
  | .call h off => Sys2Proof.Machine.execCall h off s
  | .braS core off => Sys2Proof.Machine.execBraS core off s
  | .jmpr h rs1 => Sys2Proof.Machine.execJmpr h rs1 s
  | .callr h rs1 => Sys2Proof.Machine.execCallr h rs1 s
  | .ret h => Sys2Proof.Machine.execRet h s
  | .rspush h rs1 => Sys2Proof.Machine.execRspush h rs1 s
  | .rspop h rd => Sys2Proof.Machine.execRspop h rd s
  | .rsdepth h rd => Sys2Proof.Machine.execRsdepth h rd s
  | .gate h n => Sys2Proof.Machine.execGate h n s
  | .gret h => Sys2Proof.Machine.execGret h s
  | .fence h => Sys2Proof.Machine.execFence h s
  | .iflush h => Sys2Proof.Machine.execIflush h s
  | .mfc h rd cr => Sys2Proof.Machine.execMfc h rd cr s
  | .mtc h cr rs => Sys2Proof.Machine.execMtc h cr rs s
  | .cpcc h rs => Sys2Proof.Machine.execCpcc h rs s
  | .cxpcc h rs => Sys2Proof.Machine.execCxpcc h rs s
  | .cepcc h rs => Sys2Proof.Machine.execCepcc h rs s
  | .cxc0 h rs => Sys2Proof.Machine.execCxc0 h rs s
  | .cec0 h rs => Sys2Proof.Machine.execCec0 h rs s
  | .ecinval h rs => Sys2Proof.Machine.execEcinval h rs s
  | .lr h rd rs1 => Sys2Proof.Machine.execLr h rd rs1 s
  | .sc h rd rs2 rs1 => Sys2Proof.Machine.execSc h rd rs2 rs1 s
  | .xret h => Sys2Proof.Machine.execXret h s
  | .brk h => Sys2Proof.Machine.execBrk h s
  | .nopS core => Sys2Proof.Machine.execNopS core s
  | .retS core => Sys2Proof.Machine.execRetS core s
  | .jmprS core rs => Sys2Proof.Machine.execJmprS core rs s
  | .callrS core rs => Sys2Proof.Machine.execCallrS core rs s
  | .btS core p off => Sys2Proof.Machine.execBtS core p off s
  | .bfS core p off => Sys2Proof.Machine.execBfS core p off s
  | .loop h lvl ci cnt rs endoff => Sys2Proof.Machine.execLoop h lvl ci cnt rs endoff s
  | .dadd h rd rs1 rs2 => Sys2Proof.Machine.execDadd h rd rs1 rs2 s
  | .daddc h rd rs1 rs2 => Sys2Proof.Machine.execDaddc h rd rs1 rs2 s
  | .dsub h rd rs1 rs2 => Sys2Proof.Machine.execDsub h rd rs1 rs2 s
  | .dsubc h rd rs1 rs2 => Sys2Proof.Machine.execDsubc h rd rs1 rs2 s
  | .dadj h rd rs1 n => Sys2Proof.Machine.execDadj h rd rs1 n s
  | .dcvtBd h rd rs1 => Sys2Proof.Machine.execDcvtBd h rd rs1 s
  | .dcvtDb h rd rs1 => Sys2Proof.Machine.execDcvtDb h rd rs1 s
  | .clc h cd rs cs disp => Sys2Proof.Machine.execClc h cd rs cs disp s
  | .csc h cd rs cs disp => Sys2Proof.Machine.execCsc h cd rs cs disp s
  | .cmov h cd ca => Sys2Proof.Machine.execCmov h cd ca s
  | .cclr h cd => Sys2Proof.Machine.execCclr h cd s
  | .csetb h cd ca rs1 rs2 => Sys2Proof.Machine.execCsetb h cd ca rs1 rs2 s
  | .candp h cd ca rs1 => Sys2Proof.Machine.execCandp h cd ca rs1 s
  | .cseal h cd ca rs1 => Sys2Proof.Machine.execCseal h cd ca rs1 s
  | .cunseal h cd ca rs2 => Sys2Proof.Machine.execCunseal h cd ca rs2 s
  | .cget h rs1 ca sel => Sys2Proof.Machine.execCget h rs1 ca sel s
  | .cjmp h ca rs2 => Sys2Proof.Machine.execCjmp h ca rs2 s
  | .crc16B h rd rs1 rs2 => Sys2Proof.Machine.execCrc16B h rd rs1 rs2 s
  | .crc16W h rd rs1 rs2 => Sys2Proof.Machine.execCrc16W h rd rs1 rs2 s
  | .crc32cB h rd rs1 rs2 => Sys2Proof.Machine.execCrc32cB h rd rs1 rs2 s
  | .crc32cW h rd rs1 rs2 => Sys2Proof.Machine.execCrc32cW h rd rs1 rs2 s
  | .c64init h => Sys2Proof.Machine.execC64init h s
  | .c64W h rs2 => Sys2Proof.Machine.execC64W h rs2 s
  | .c64lo h rd => Sys2Proof.Machine.execC64lo h rd s
  | .c64hi h rd => Sys2Proof.Machine.execC64hi h rd s
  | .sxclr h => Sys2Proof.Machine.execSxclr h s
  | .sxput h rs1 => Sys2Proof.Machine.execSxput h rs1 s
  | .sxpln h rd rs1 => Sys2Proof.Machine.execSxpln h rd rs1 s
  | .sxmsk h rd => Sys2Proof.Machine.execSxmsk h rd s
  | .sxppl h rs1 rs2 => Sys2Proof.Machine.execSxppl h rs1 rs2 s
  | .sxget h rd => Sys2Proof.Machine.execSxget h rd s
  | .sxset h rs1 => Sys2Proof.Machine.execSxset h rs1 s
  | .fird h rd rs1 => Sys2Proof.Machine.execFird h rd rs1 s
  | .firdh h rd rs1 => Sys2Proof.Machine.execFirdh h rd rs1 s
  | .firdb h rd rs1 => Sys2Proof.Machine.execFirdb h rd rs1 s
  | .fiout h rs1 => Sys2Proof.Machine.execFiout h rs1 s
  | .fioutr h rd rs1 => Sys2Proof.Machine.execFioutr h rd rs1 s
  | .tblo h rd => Sys2Proof.Machine.execTblo h rd s
  | .tbhi h rd => Sys2Proof.Machine.execTbhi h rd s
  | .interruptTake k => Sys2Proof.Machine.execInterruptTake k s
  | .progressWatchdog core => Sys2Proof.Machine.execProgressWatchdog core s
  | .supervisorWatchdogExpiry k => Sys2Proof.Machine.execSupervisorWatchdogExpiry k s
  | .scWdogKick who k val => Sys2Proof.Machine.execScWdogKick who k val s
  | .leveeCommit who => Sys2Proof.Machine.execLeveeCommit who s
  | .leveeCopiesUpdated => Sys2Proof.Machine.execLeveeCopiesUpdated s
  | .leveeRevoke who otype => Sys2Proof.Machine.execLeveeRevoke who otype s
  | .revokeInvalidationDone => Sys2Proof.Machine.execRevokeInvalidationDone s
  | .evtSet who src => Sys2Proof.Machine.execEvtSet who src s
  | .evtClaim who t => Sys2Proof.Machine.execEvtClaim who t s
  | .evtDone who t src => Sys2Proof.Machine.execEvtDone who t src s
  | .evtSrcConfig who src val => Sys2Proof.Machine.execEvtSrcConfig who src val s
  | .evtSrcClr who src => Sys2Proof.Machine.execEvtSrcClr who src s
  | .mbxTx who ch cEnd val => Sys2Proof.Machine.execMbxTx who ch cEnd val s
  | .mbxRx who ch cEnd => Sys2Proof.Machine.execMbxRx who ch cEnd s
  | .mbxDbSet who ch cEnd val => Sys2Proof.Machine.execMbxDbSet who ch cEnd val s
  | .mbxDbMask who ch cEnd val => Sys2Proof.Machine.execMbxDbMask who ch cEnd val s
  | .mbxAckTx who ch cEnd val => Sys2Proof.Machine.execMbxAckTx who ch cEnd val s
  | .mbxReceiverReset who ch cEnd => Sys2Proof.Machine.execMbxReceiverReset who ch cEnd s
  | .mbxSenderReset who ch cEnd => Sys2Proof.Machine.execMbxSenderReset who ch cEnd s
  | .weirGrant reqs scrubs dramFree => Sys2Proof.Machine.execWeirGrant reqs scrubs dramFree s
  | .weirWindowBoundary => Sys2Proof.Machine.execWeirWindowBoundary s
  | .weirCommit who => Sys2Proof.Machine.execWeirCommit who s
  | .dramMaintenance kind => Sys2Proof.Machine.execDramMaintenance kind s
  | .devWinWrite who k val => Sys2Proof.Machine.execDevWinWrite who k val s
  | .hostLinkUp speed width => Sys2Proof.Machine.execHostLinkUp speed width s
  | .hostConfigRequest pf req => Sys2Proof.Machine.execHostConfigRequest pf req s
  | .hostMemoryRequestBeforeReady pf write => Sys2Proof.Machine.execHostMemoryRequestBeforeReady pf write s
  | .hostCompletionReceive use addr data status => Sys2Proof.Machine.execHostCompletionReceive use addr data status s
  | .hostCompletionTimeout use => Sys2Proof.Machine.execHostCompletionTimeout use s
  | .poisonedWriteReceive pf => Sys2Proof.Machine.execPoisonedWriteReceive pf s
  | .functionLevelReset pf => Sys2Proof.Machine.execFunctionLevelReset pf s
  | .hostLinkReset => Sys2Proof.Machine.execHostLinkReset s
  | .dStateChange pf d3 => Sys2Proof.Machine.execDStateChange pf d3 s
  | .msixUnmask pf w => Sys2Proof.Machine.execMsixUnmask pf w s
  | .busMasterDisable pf => Sys2Proof.Machine.execBusMasterDisable pf s
  | .supplyGood => Sys2Proof.Machine.execSupplyGood s
  | .fieldSelfTestComplete failed => Sys2Proof.Machine.execFieldSelfTestComplete failed s
  | .mainDieResetRelease monEn cpos => Sys2Proof.Machine.execMainDieResetRelease monEn cpos s
  | .memoryInitComplete r => Sys2Proof.Machine.execMemoryInitComplete r s
  | .imageReadComplete bytes => Sys2Proof.Machine.execImageReadComplete bytes s
  | .flashReadTimeout => Sys2Proof.Machine.execFlashReadTimeout s
  | .authenticationComplete => Sys2Proof.Machine.execAuthenticationComplete s
  | .imageApplyComplete cxFail cal => Sys2Proof.Machine.execImageApplyComplete cxFail cal s
  | .formWaitExpiry => Sys2Proof.Machine.execFormWaitExpiry s
  | .ready => Sys2Proof.Machine.execReady s
  | .clayErase who => Sys2Proof.Machine.execClayErase who s
  | .clayProgram who => Sys2Proof.Machine.execClayProgram who s
  | .clayVerify who => Sys2Proof.Machine.execClayVerify who s
  | .clayUpdateComplete ok slot => Sys2Proof.Machine.execClayUpdateComplete ok slot s
  | .clayUpdateTimeout => Sys2Proof.Machine.execClayUpdateTimeout s
  | .fuseKey who k => Sys2Proof.Machine.execFuseKey who k s
  | .fuseRevoke who k => Sys2Proof.Machine.execFuseRevoke who k s
  | .fuseSvn who svn => Sys2Proof.Machine.execFuseSvn who svn s
  | .fuseLock who => Sys2Proof.Machine.execFuseLock who s
  | .fuseOperationComplete => Sys2Proof.Machine.execFuseOperationComplete s
  | .surgeLimitEngage => Sys2Proof.Machine.execSurgeLimitEngage s
  | .surgeLimiterOpen => Sys2Proof.Machine.execSurgeLimiterOpen s
  | .idealDiodeOn => Sys2Proof.Machine.execIdealDiodeOn s
  | .railStart => Sys2Proof.Machine.execRailStart s
  | .thermalWarn tmax src => Sys2Proof.Machine.execThermalWarn tmax src s
  | .thermalThrottleStep tmax src => Sys2Proof.Machine.execThermalThrottleStep tmax src s
  | .thermalTeStop tmax te => Sys2Proof.Machine.execThermalTeStop tmax te s
  | .thermalShutdown tmax src => Sys2Proof.Machine.execThermalShutdown tmax src s
  | .thermalRestart => Sys2Proof.Machine.execThermalRestart s
  | .monDisplay addr n line => Sys2Proof.Machine.execMonDisplay addr n line s
  | .monWriteWord addr val line => Sys2Proof.Machine.execMonWriteWord addr val line s
  | .monReadRegister ofs line => Sys2Proof.Machine.execMonReadRegister ofs line s
  | .monWriteRegister ofs val line => Sys2Proof.Machine.execMonWriteRegister ofs val line s
  | .monHalt te line => Sys2Proof.Machine.execMonHalt te line s
  | .monStep te line => Sys2Proof.Machine.execMonStep te line s
  | .monResume te line => Sys2Proof.Machine.execMonResume te line s
  | .monBreakpoint te k a c line => Sys2Proof.Machine.execMonBreakpoint te k a c line s
  | .monCoreRegister te r line => Sys2Proof.Machine.execMonCoreRegister te r line s
  | .monTraceDump n line => Sys2Proof.Machine.execMonTraceDump n line s
  | .monIslandStatus isl line => Sys2Proof.Machine.execMonIslandStatus isl line s
  | .monSlotStatus line => Sys2Proof.Machine.execMonSlotStatus line s
  | .monCxemu te e line => Sys2Proof.Machine.execMonCxemu te e line s
  | .monLineRate rate line => Sys2Proof.Machine.execMonLineRate rate line s
  | .monRateRevert => Sys2Proof.Machine.execMonRateRevert s
  | .breakpointHalt te => Sys2Proof.Machine.execBreakpointHalt te s
  | .diagnosticCheckPass pin cond => Sys2Proof.Machine.execDiagnosticCheckPass pin cond s
  | .dramZeroingComplete => Sys2Proof.Machine.execDramZeroingComplete s
  | .driveCstsCfs drv => Sys2Proof.Machine.execDriveCstsCfs drv s
  | .surgeLimitRelease => Sys2Proof.Machine.execSurgeLimitRelease s
  | .vbulkBelow3v => Sys2Proof.Machine.execVbulkBelow3v s

end Sys2Proof.Machine
end

