-- ==== Sys2Proof/Safety.lean ====
section
/-! DEFINITION. What a safe state of the block is, and the hypotheses and frames that the statements use. -/

namespace Sys2Proof.Safety

open Sys2Proof.Machine

/-- A run goes on: the step answers a next state. -/
def Runs (s : State) : Prop := ∃ t, step s = .next t

/-- Both byte memories are in their canonical form. -/
def MemOk (s : State) : Prop := Memory.wf s = true

/-- The keys of a table rise, so that no key is listed twice. -/
def KeysRise {α : Type} (t : Tbl α) : Prop := (t.map (·.1)).Pairwise (· < ·)

/-! ### Instructions of a core -/

/-- R336 step 1, R521: core k is at work, no breakpoint or single step stops it at this instruction, and the fetch of
`len` bytes at its PC raises nothing. -/
def CoreReady (s : State) (k len : Nat) : Prop :=
  coreGoes s k = true ∧ (k < 64 → bkptAt s k = none ∧ (s.dbg k).step = false) ∧ (fetchCheck s k len).2 = none ∧ s.posted = []

/-- R334, R254: a 32-bit instruction of core h.core is ready, its guard is true and the core's state shows no error. -/
def Ready32 (s : State) (h : Hdr) : Prop :=
  (CoreReady s h.core.val 4 ∧ h.ecc = 0) ∧ guardTrue h (s.core h.core.val) = true

/-- As Ready32, for a 16-bit instruction, which has no guard. -/
def Ready16 (s : State) (c : Short) : Prop := CoreReady s c.core.val 2 ∧ c.ecc = 0

/-- R351: as Ready32, and the core carries out its coprocessor instructions itself. -/
def ReadyCop (s : State) (h : Hdr) : Prop := Ready32 s h ∧ cxemu s h.core.val = false

/-- The state after the fetch of an instruction of len bytes. -/
def afterFetch (s : State) (k len : Nat) : State := (fetchCheck s k len).1

/-- What the fetch of an instruction may change in its core: the fetch buffer and the epoch cache. -/
def setFetch (x y : CoreSt) : CoreSt := { x with fbuf := y.fbuf, ecache := y.ecache, ecMiss := y.ecMiss }

/-- Of the monitor, a completed instruction changes at most the debug state of a TE and the trace. -/
def MonFrame (s t : State) : Prop :=
  { t.mon with te := s.mon.te, trace := s.mon.trace, traceWr := s.mon.traceWr, traceDrop := s.mon.traceDrop } = s.mon

/-- Nothing but core k and the debug and trace state of the monitor differs. -/
def CoreFrame (s t : State) (k : Nat) : Prop :=
  (∀ j, j ≠ k → t.core j = s.core j) ∧ { t with cores := s.cores, mon := s.mon } = s ∧ MonFrame s t

/-- Core k's instruction of len bytes completed without a transfer: f is what it did to the core, the loop check follows,
and nothing else changed. -/
def Retires (s t : State) (k len : Nat) (f : CoreSt → CoreSt) : Prop :=
  t.core k = setFetch (loopCheck (f (s.core k)) ((s.core k).pc + BitVec.ofNat 32 len)) (t.core k) ∧ CoreFrame s t k

/-- As Retires, with a taken transfer to `target` and no loop check. -/
def Transfers (s t : State) (k : Nat) (target : Word) (f : CoreSt → CoreSt) : Prop :=
  t.core k = setFetch { f (s.core k) with pc := target } (t.core k) ∧ CoreFrame s t k

/-! ### Register accesses -/

/-- R456 to R458, R537, R539: an initiator whose register accesses reach their register at once: a supervisor core at work, a
host function that serves requests after READY, and the units of the device. A channel core holds its register stores
until its commit point, and the monitor has commands of its own. -/
def Reaches (s : State) : Initiator → Prop
  | .te _ => False
  | .scS => coreGoes s 64 = true
  | .scV => coreGoes s 65 = true
  | .pf f => hostPeriod s = 3 ∧ fnServes s f.val = true
  | .monitor => False
  | _ => True

/-- A write of v to the register at off that reaches it and is not refused (R537, R539, R541). -/
def Writes (s : State) (who : Initiator) (off : Nat) (v : Word) : Prop :=
  Reaches s who ∧ regRefuses s who off v = false ∧ s.posted = []

/-- R84, R131, R300: no fence or HALT meets work whose unit is in progress: no SAMPLE captures, no descriptor is marked. -/
def Unswept (s : State) : Prop := (∀ n, (s.sub n).prog.phase ≠ .sampling) ∧ ∀ c, (s.dch c).fence = false

/-! ### Frames -/

/-- Raising events changes the event controller, the held messages of the host functions, and what they write to host
memory; nothing else differs. -/
def EventFrame (s t : State) : Prop := { t with ev := s.ev, host := s.host, hostMem := s.hostMem } = s

/-! ### Channel status words -/

/-- R120: completion ring k takes no entry now: it is in ERROR, or enabled and full. -/
def RingWaits (s : State) (k : Nat) : Prop :=
  (s.ring k).st = .error ∨ ((s.ring k).st = .enabled ∧ ringFull (s.ring k) = true)

/-- R89: what a CSW takes from its subchannel. -/
def cswSub (s : State) (n : Nat) : Csw :=
  let b := s.sub n
  { sub := n, reach := b.attr.reach, gen := b.gen.toNat, world := b.attr.world, kind := 0x01, time := s.now }

/-- R82, R89: what a CSW takes from the running program of its subchannel: its time is that of the commit point of the last
command, or, before it, now. -/
def cswProg (s : State) (n : Nat) : Csw :=
  let p := (s.sub n).prog
  { cswSub s n with
    tag := p.op.tag, op := p.op.code, ccwa := posAddr p.op p.pos, time := if p.committed = true then p.ctime else s.now }

/-- R84, R89: the CSW of a program that stops at a boundary, with the CCW, device status and residual of the command before. -/
def cswPrev (s : State) (n : Nat) : Csw :=
  let p := (s.sub n).prog
  { cswProg s n with ccwa := posAddr p.op p.prev.pos, dstat := p.prev.dstat, resid := p.prev.resid }

/-- Subchannel n holds nothing for a ring, and no operation waits for its program to end. -/
def HoldsNone (s : State) (n : Nat) : Prop :=
  (s.sub n).held = [] ∧ (s.sub n).toCreate = [] ∧ (s.sub n).halt = none ∧ (s.sub n).clear = [] ∧ (s.sub n).st ≠ .fenced

/-- R82, R86, R120: the program of subchannel n has ended with CSW c, which waits for its ring. -/
def EndsWith (s t : State) (n : Nat) (c : Csw) : Prop :=
  (t.sub n).prog.phase = .none ∧ (t.sub n).pend = none ∧ (t.sub n).st = .statusPending ∧ (t.sub n).gen = (s.sub n).gen ∧
  ∃ stamp, (t.sub n).held = [⟨ringOfQueue s (s.sub n).prog.op.queue, c, stamp⟩]

/-- Subchannel n runs a program that nothing stops: its ending CSW would wait for its ring. -/
def RunsFull (s : State) (n : Nat) : Prop :=
  HoldsNone s n ∧ RingWaits s (ringOfQueue s (s.sub n).prog.op.queue) ∧ s.posted = []

/-! ### Commands of the sequencer -/

/-- The current command of subchannel n is checked and has this code, and posts no CSW of its own before the ending one. -/
def Begins (s : State) (n code : Nat) : Prop :=
  readyFor s n code = true ∧ (s.sub n).prog.cur.pci = false ∧ s.posted = []

/-- R47, R69, R71: the data area of a CCW is one run of len bytes, which the command transfers. -/
def PlainArea (c : Ccw) (len : Nat) : Prop := c.ida = false ∧ c.cd = false ∧ c.skp = false ∧ c.count = len

/-- The address of a CCW's data area. -/
def areaAt (c : Ccw) : Addr := { asel := c.aselF, addr := c.dataAddr }

/-- R86, R90: subchannel n's command reached device end with these device status bits (beside channel end and device end)
and this detail. -/
def ReachesEnd (s t : State) (n dstat detail : Nat) : Prop :=
  (t.sub n).prog.phase = .deviceEnd ∧ (t.sub n).prog.dstat = (s.sub n).prog.dstat ||| dstat ||| 0x0C ∧
  (t.sub n).prog.detail = detail ∧ (t.sub n).prog.cstat = (s.sub n).prog.cstat ∧ (t.sub n).prog.committed = true ∧
  (t.sub n).st = (s.sub n).st ∧ (t.sub n).gen = (s.sub n).gen

/-! ### What every step keeps -/

/-- The shape of the state that every step keeps: both byte memories in canonical form, the subchannels and the event
sources listed once each, and every bank of registers at the spec's size: the 32 general registers (R329) and the 256
bit-plane values (R353) of a core, the eight positions of a Brook link, the four positions of a composite (R204), the two
classes of a Weir requester and the nine Weir targets (R438, R439), the two host functions with what was sent for them
(R421). -/
structure Inv (s : State) : Prop where
  mem : MemOk s
  subs : KeysRise s.subs
  src : KeysRise s.ev.src
  general : ∀ k, (s.core k).g.length = 32
  planes : ∀ k, (s.core k).sx.length = 256
  positions : ∀ k, (s.bk k).pos.length = 8
  view : s.vote.view.length = 4
  late : s.vote.late.length = 4
  weirClasses : ∀ k, (s.weirReq k).cnt.length = 2
  weirTargets : s.weir.ptrs.length = 9
  functions : s.host.fns.length = 2
  held : s.ev.vsent.length = 2

end Sys2Proof.Safety
end

