-- ==== Sys2Proof/Certificates/Slice0/Obligations.lean ====
section
/-! DEFINITION. The statements for the provers. -/

open Sys2Proof Sys2Proof.Machine Sys2Proof.Safety

/-- A command is executed on the queue's rest. -/
def Obligations.StepRunsFront : Prop :=
  ∀ (s : State) (c : Instr), step (s.pushFront c) = exec c s

/-- Every step keeps the shape of the state: canonical memories, tables listed once, banks of the spec's sizes. -/
def Obligations.StepKeepsShape : Prop :=
  ∀ s t : State, Inv s → step s = .next t → Inv t

/-- The state right after reset has the shape that every step keeps. -/
def Obligations.ResetHasShape : Prop := Inv State.reset

/-- R329, R334, R341, the register ALU table: each instruction of MAJOR 0x20 writes its result to g[RD] and nothing else. -/
def Obligations.RegisterAluResults : Prop :=
  ∀ (s : State) (h : Hdr) (rd rs1 rs2 : Fin 32), Ready32 s h →
    (∀ row ∈ ([
        (.add, fun a b => a + b), (.sub, fun a b => a - b), (.andR, fun a b => a &&& b), (.orR, fun a b => a ||| b),
        (.xorR, fun a b => a ^^^ b), (.andn, fun a b => a &&& ~~~b),
        (.sll, fun a b => a <<< (b &&& 31#32)), (.srl, fun a b => a >>> (b &&& 31#32)),
        (.sra, fun a b => a.sshiftRight (b.toNat % 32)), (.ror, fun a b => a.rotateRight (b.toNat % 32)),
        (.slt, fun a b => if a.toInt < b.toInt then 1#32 else 0#32),
        (.sltu, fun a b => if a.toNat < b.toNat then 1#32 else 0#32),
        (.min, fun a b => if a.toInt ≤ b.toInt then a else b), (.max, fun a b => if a.toInt ≤ b.toInt then b else a),
        (.minu, fun a b => if a.toNat ≤ b.toNat then a else b), (.maxu, fun a b => if a.toNat ≤ b.toNat then b else a),
        (.mul, fun a b => BitVec.ofNat 32 (a.toNat * b.toNat)),
        (.mulh, fun a b => BitVec.ofInt 32 (a.toInt * b.toInt / 2 ^ 32)),
        (.mulhu, fun a b => BitVec.ofNat 32 (a.toNat * b.toNat / 2 ^ 32)),
        (.div, fun a b => if b = 0 then 0xFFFFFFFF#32 else a.sdiv b),
        (.divu, fun a b => if b = 0 then 0xFFFFFFFF#32 else a.udiv b),
        (.rem, fun a b => if b = 0 then a else a.srem b),
        (.remu, fun a b => if b = 0 then a else a.umod b)] :
        List ((Hdr → Fin 32 → Fin 32 → Fin 32 → Instr) × (Word → Word → Word))),
      ∃ t, exec (row.1 h rd rs1 rs2) s = .next t ∧ Retires s t h.core.val 4 fun x =>
        gWrite x rd.val (row.2 (gRead x rs1.val) (gRead x rs2.val))) ∧
    (∀ row ∈ ([
        (.sextb, fun a => (a.setWidth 8).signExtend 32), (.sexth, fun a => (a.setWidth 16).signExtend 32),
        (.bswap, fun a => BitVec.ofNat 32 (a.toNat % 256 * 2 ^ 24 + a.toNat / 2 ^ 8 % 256 * 2 ^ 16 +
          a.toNat / 2 ^ 16 % 256 * 2 ^ 8 + a.toNat / 2 ^ 24))] :
        List ((Hdr → Fin 32 → Fin 32 → Instr) × (Word → Word))),
      ∃ t, exec (row.1 h rd rs1) s = .next t ∧ Retires s t h.core.val 4 fun x => gWrite x rd.val (row.2 (gRead x rs1.val))) ∧
    (∃ t n, exec (.clz h rd rs1) s = .next t ∧ n ≤ 32 ∧
      (∀ i, i < n → (gRead (s.core h.core.val) rs1.val).getLsbD (31 - i) = false) ∧
      (n < 32 → (gRead (s.core h.core.val) rs1.val).getLsbD (31 - n) = true) ∧
      Retires s t h.core.val 4 fun x => gWrite x rd.val (BitVec.ofNat 32 n)) ∧
    ∃ t, exec (.popc h rd rs1) s = .next t ∧ Retires s t h.core.val 4 fun x =>
      gWrite x rd.val (BitVec.ofNat 32 ((List.range 32).countP fun i => (gRead x rs1.val).getLsbD i))

/-- R329, the immediate and shift tables: ADDI to RORI, LUI and LLO write their result to g[RD] and nothing else. -/
def Obligations.ImmediateAluResults : Prop :=
  ∀ (s : State) (h : Hdr) (rd rs1 : Fin 32), Ready32 s h →
    (∀ imm : BitVec 10, ∀ row ∈ ([
        (.addi, fun a => a + imm.signExtend 32), (.andi, fun a => a &&& imm.signExtend 32),
        (.ori, fun a => a ||| imm.setWidth 32), (.xori, fun a => a ^^^ imm.setWidth 32)] :
        List ((Hdr → Fin 32 → Fin 32 → BitVec 10 → Instr) × (Word → Word))),
      ∃ t, exec (row.1 h rd rs1 imm) s = .next t ∧ Retires s t h.core.val 4 fun x =>
        gWrite x rd.val (row.2 (gRead x rs1.val))) ∧
    (∀ sh : Fin 32, ∀ row ∈ ([
        (.slli, fun a => a <<< sh.val), (.srli, fun a => a >>> sh.val), (.srai, fun a => a.sshiftRight sh.val),
        (.rori, fun a => a.rotateRight sh.val)] : List ((Hdr → Fin 32 → Fin 32 → Fin 32 → Instr) × (Word → Word))),
      ∃ t, exec (row.1 h rd rs1 sh) s = .next t ∧ Retires s t h.core.val 4 fun x =>
        gWrite x rd.val (row.2 (gRead x rs1.val))) ∧
    ∀ imm : Half,
      (∃ t, exec (.lui h rd imm) s = .next t ∧ Retires s t h.core.val 4 fun x => gWrite x rd.val (imm ++ 0#16)) ∧
      ∃ t, exec (.llo h rd imm) s = .next t ∧ Retires s t h.core.val 4 fun x =>
        gWrite x rd.val ((gRead x rd.val).extractLsb' 16 16 ++ imm)

/-- R329, R334, the ALU.S table: each 16-bit ALU instruction writes its result to g[RD] and nothing else. -/
def Obligations.ShortAluResults : Prop :=
  ∀ (s : State) (c : Short) (rd rs : Fin 16), Ready16 s c →
    (∀ row ∈ ([
        (.movS, fun _ b => b), (.addS, fun d b => d + b), (.subS, fun d b => d - b), (.andS, fun d b => d &&& b),
        (.orS, fun d b => d ||| b), (.xorS, fun d b => d ^^^ b), (.sllS, fun d b => d <<< (b &&& 31#32)),
        (.srlS, fun d b => d >>> (b &&& 31#32)), (.sraS, fun d b => d.sshiftRight (b.toNat % 32)),
        (.mulS, fun d b => BitVec.ofNat 32 (d.toNat * b.toNat)), (.negS, fun _ b => 0#32 - b), (.notS, fun _ b => ~~~b),
        (.slliS, fun d _ => d <<< (rs.val + 1)), (.srliS, fun d _ => d >>> (rs.val + 1)),
        (.sraiS, fun d _ => d.sshiftRight (rs.val + 1))] :
        List ((Short → Fin 16 → Fin 16 → Instr) × (Word → Word → Word))),
      ∃ t, exec (row.1 c rd rs) s = .next t ∧ Retires s t c.core.val 2 fun x =>
        gWrite x rd.val (row.2 (gRead x rd.val) (gRead x rs.val))) ∧
    ∀ imm : Byte,
      (∃ t, exec (.addiS c rd imm) s = .next t ∧ Retires s t c.core.val 2 fun x =>
        gWrite x rd.val (gRead x rd.val + imm.signExtend 32)) ∧
      ∃ t, exec (.liS c rd imm) s = .next t ∧ Retires s t c.core.val 2 fun x => gWrite x rd.val (imm.signExtend 32)

/-- R349: the packed-decimal instructions, digit by digit, and ST.DC. -/
def Obligations.DecimalResults : Prop :=
  ∀ (s : State) (h : Hdr) (rd rs1 rs2 : Fin 32), Ready32 s h →
    let a := gRead (s.core h.core.val) rs1.val
    let b := gRead (s.core h.core.val) rs2.val
    let dc := (s.core h.core.val).dc
    let done (c : Instr) (r : Word) (cy : Bool) : Prop :=
      ∃ t, exec c s = .next t ∧ Retires s t h.core.val 4 fun x => { gWrite x rd.val r with dc := cy }
    (∀ row ∈ ([(.dadd h rd rs1 rs2, false), (.daddc h rd rs1 rs2, dc)] : List (Instr × Bool)),
      ∃ (r : Word) (c : Nat → Bool), done row.1 r (c 8) ∧ c 0 = row.2 ∧ ∀ i, i < 8 →
        c (i + 1) = decide (10 ≤ nib a i + nib b i + b2n (c i)) ∧
        nib r i = if 10 ≤ nib a i + nib b i + b2n (c i) then (nib a i + nib b i + b2n (c i) - 10) % 16
          else nib a i + nib b i + b2n (c i)) ∧
    (∀ row ∈ ([(.dsub h rd rs1 rs2, false), (.dsubc h rd rs1 rs2, dc)] : List (Instr × Bool)),
      ∃ (r : Word) (c : Nat → Bool), done row.1 r (c 8) ∧ c 0 = row.2 ∧ ∀ i, i < 8 →
        let d : Int := nib a i - nib b i - b2n (c i)
        c (i + 1) = decide (d < 0) ∧ (nib r i : Int) = (if d < 0 then d + 10 else d) % 16) ∧
    (∀ n : Fin 32, 1 ≤ n.val → n.val ≤ 8 → ∃ (r : Word) (bad : Bool),
      done (.dadj h rd rs1 n) r bad ∧ (bad = true ↔ ∃ i, i < n.val ∧ 9 < nib a i) ∧
      ∀ i, i < 8 → nib r i = if n.val ≤ i ∨ 9 < nib a i then 0 else nib a i) ∧
    (∃ r : Word, done (.dcvtBd h rd rs1) r (decide (100000000 ≤ a.toNat)) ∧
      ∀ i, i < 8 → nib r i = a.toNat % 100000000 / 10 ^ i % 10) ∧
    ∃ bad : Bool, (bad = true ↔ ∃ i, i < 8 ∧ 9 < nib a i) ∧ done (.dcvtDb h rd rs1)
      (BitVec.ofNat 32 (nib a 0 + nib a 1 * 10 + nib a 2 * 100 + nib a 3 * 1000 + nib a 4 * 10000 + nib a 5 * 100000 +
        nib a 6 * 1000000 + nib a 7 * 10000000)) bad

/-- R342: CMP, CMPI and the predicate operations. -/
def Obligations.CompareAndPredicateResults : Prop :=
  ∀ (s : State) (h : Hdr), Ready32 s h →
    let k := h.core.val
    let holds (cond : Nat) (a b : Word) : Prop :=
      (cond = 0 ∧ a = b) ∨ (cond = 1 ∧ a ≠ b) ∨ (cond = 2 ∧ a.toInt < b.toInt) ∨ (cond = 3 ∧ b.toInt ≤ a.toInt) ∨
      (cond = 4 ∧ a.toNat < b.toNat) ∨ (cond = 5 ∧ b.toNat ≤ a.toNat) ∨ (cond = 6 ∧ a &&& b ≠ 0) ∨ (cond = 7 ∧ a &&& b = 0)
    (∀ (pd cond : Fin 8) (rs1 rs2 : Fin 32) (pcomb : Fin 4), pcomb.val ≠ 3 → ∃ t c,
      exec (.cmp h pd cond rs1 rs2 pcomb) s = .next t ∧
      (c = true ↔ holds cond.val (gRead (s.core k) rs1.val) (gRead (s.core k) rs2.val)) ∧
      Retires s t k 4 fun x => pWrite x pd.val
        (if pcomb.val = 0 then c else if pcomb.val = 1 then pRead x pd.val && c else pRead x pd.val || c)) ∧
    (∀ (pd cond : Fin 8) (rs1 : Fin 32) (imm : BitVec 9), ∃ t c,
      exec (.cmpi h pd cond rs1 imm) s = .next t ∧
      (c = true ↔ holds cond.val (gRead (s.core k) rs1.val) (imm.signExtend 32)) ∧
      Retires s t k 4 fun x => pWrite x pd.val c) ∧
    (∀ (pd pa pb : Fin 8), ∀ row ∈ ([
        (.pand h pd pa pb, fun a b => a && b), (.por h pd pa pb, fun a b => a || b), (.pxor h pd pa pb, fun a b => a ^^ b),
        (.pandn h pd pa pb, fun a b => a && !b), (.pnot h pd pa, fun a _ => !a), (.pmov h pd pa, fun a _ => a)] :
        List (Instr × (Bool → Bool → Bool))),
      ∃ t, exec row.1 s = .next t ∧ Retires s t k 4 fun x => pWrite x pd.val (row.2 (pRead x pa.val) (pRead x pb.val))) ∧
    ∀ gr : Fin 32,
      (∃ t v, exec (.prd h gr) s = .next t ∧ Retires s t k 4 (fun x => gWrite x gr.val v) ∧
        ∀ i, i < 32 → v.getLsbD i = (decide (i < 8) && pRead (s.core k) i)) ∧
      ∃ t v, exec (.pwr h gr) s = .next t ∧ Retires s t k 4 (fun x => { x with p := v }) ∧
        ∀ i, 1 ≤ i → i < 8 → v.getLsbD i = (gRead (s.core k) gr.val).getLsbD i

/-- R343 to R346: branches, calls, returns and the return stack, where they neither trap nor end a routine. -/
def Obligations.BranchAndStackResults : Prop :=
  (∀ (s : State) (h : Hdr) (off : BitVec 20) (r : Fin 32), Ready32 s h →
    let k := h.core.val
    let x := s.core k
    (∃ t, exec (.bra h off) s = .next t ∧ Transfers s t k (x.pc + off.signExtend 32 <<< 1) id) ∧
    (∃ t, exec (.jmpr h r) s = .next t ∧ Transfers s t k (gRead x r.val) id) ∧
    (x.rs.length < 8 ∨ rstrap s x.world = false →
      (∃ t, exec (.call h off) s = .next t ∧
        Transfers s t k (x.pc + off.signExtend 32 <<< 1) fun y => { y with rs := (x.pc + 4) :: y.rs.take 7 }) ∧
      (∃ t, exec (.callr h r) s = .next t ∧
        Transfers s t k (gRead x r.val) fun y => { y with rs := (x.pc + 4) :: y.rs.take 7 }) ∧
      ∃ t, exec (.rspush h r) s = .next t ∧ Retires s t k 4 fun y => { y with rs := gRead y r.val :: y.rs.take 7 }) ∧
    (∀ v st, x.rs = v :: st →
      (¬(k < 64 ∧ v = 0xFFFFFFF0#32) → ∃ t, exec (.ret h) s = .next t ∧ Transfers s t k v fun y => { y with rs := st }) ∧
      ∃ t, exec (.rspop h r) s = .next t ∧ Retires s t k 4 fun y => gWrite { y with rs := st } r.val v) ∧
    ∃ t, exec (.rsdepth h r) s = .next t ∧ Retires s t k 4 fun y => gWrite y r.val (BitVec.ofNat 32 y.rs.length)) ∧
  ∀ (s : State) (c : Short) (off : BitVec 13) (r : Fin 16) (p : Fin 8) (o6 : BitVec 6), Ready16 s c →
    let k := c.core.val
    let x := s.core k
    (∃ t, exec (.braS c off) s = .next t ∧ Transfers s t k (x.pc + off.signExtend 32 <<< 1) id) ∧
    (∃ t, exec (.nopS c) s = .next t ∧ Retires s t k 2 id) ∧
    (∃ t, exec (.jmprS c r) s = .next t ∧ Transfers s t k (gRead x r.val) id) ∧
    (x.rs.length < 8 ∨ rstrap s x.world = false → ∃ t, exec (.callrS c r) s = .next t ∧
      Transfers s t k (gRead x r.val) fun y => { y with rs := (x.pc + 2) :: y.rs.take 7 }) ∧
    (∀ v st, x.rs = v :: st → ¬(k < 64 ∧ v = 0xFFFFFFF0#32) →
      ∃ t, exec (.retS c) s = .next t ∧ Transfers s t k v fun y => { y with rs := st }) ∧
    (∃ t, exec (.btS c p o6) s = .next t ∧
      if pRead x p.val = true then Transfers s t k (x.pc + o6.signExtend 32 <<< 1) id else Retires s t k 2 id) ∧
    ∃ t, exec (.bfS c p o6) s = .next t ∧
      if pRead x p.val = true then Retires s t k 2 id else Transfers s t k (x.pc + o6.signExtend 32 <<< 1) id

/-- R347: LOOP sets up a level, or skips a body of count 0. -/
def Obligations.LoopSetsUpALevel : Prop :=
  ∀ (s : State) (h : Hdr) (lvl : Fin 4) (ci : Bool) (cnt : BitVec 7) (rs : Fin 32) (endoff : BitVec 10), Ready32 s h →
    let k := h.core.val
    let x := s.core k
    let start := x.pc + 4
    let e := start + BitVec.ofNat 32 (2 * endoff.toNat)
    let count := if ci = true then cnt.setWidth 32 else gRead x rs.val
    lvl.val < 3 → ¬(ci = true ∧ cnt = 0) → endoff ≠ 0 → (∀ i, lvl.val ≤ i → i < 3 → nth 0 x.lc i = 0) →
    (0 < lvl.val → nth 0 x.lc (lvl.val - 1) ≠ 0 ∧ e.toNat < (nth 0 x.le (lvl.val - 1)).toNat) →
    ∃ t, exec (.loop h lvl ci cnt rs endoff) s = .next t ∧
      if count = 0 then
        Transfers s t k e fun y => { y with ls := setNth y.ls lvl.val start, le := setNth y.le lvl.val e }
      else
        Retires s t k 4 fun y => { y with
          ls := setNth y.ls lvl.val start, le := setNth y.le lvl.val e, lc := setNth y.lc lvl.val count }

/-- R348: the loop check: at most one level acts, the highest active one whose end is the next address. -/
def Obligations.LoopCheckRule : Prop :=
  ∀ (x : CoreSt) (next : Word), x.loopinh = false →
    ((∀ k, k < 3 → nth 0 x.lc k ≠ 0 → nth 0 x.le k ≠ next) → loopCheck x next = { x with pc := next }) ∧
    ∀ k, k < 3 → nth 0 x.lc k ≠ 0 → nth 0 x.le k = next →
      (∀ j, k < j → j < 3 → nth 0 x.lc j ≠ 0 → nth 0 x.le j ≠ next) →
      loopCheck x next = { x with
        lc := setNth x.lc k (nth 0 x.lc k - 1), pc := if nth 0 x.lc k = 1 then next else nth 0 x.ls k }

/-- R337, R338, R249: a load from memory that passes its checks reads the bytes at its address, with the held stores of its
command over them, and extends them; a word load from the register space reads the register. -/
def Obligations.LoadResults : Prop :=
  ∀ (s : State) (k len rd : Nat) (i : Instr) (at' : Nat × Word) (size : Nat) (ext : Nat → Word), CoreReady s k len →
    ((∃ h : Hdr, ∃ (r rs : Fin 32) (disp : BitVec 12), Ready32 s h ∧ k = h.core.val ∧ len = 4 ∧ rd = r.val ∧
        at' = memAddr s k rs.val disp ∧
        ((i = .lb h r rs disp ∧ size = 1 ∧ ext = fun v => (BitVec.ofNat 8 v).signExtend 32) ∨
         (i = .lbu h r rs disp ∧ size = 1 ∧ ext = BitVec.ofNat 32) ∨
         (i = .lh h r rs disp ∧ size = 2 ∧ ext = fun v => (BitVec.ofNat 16 v).signExtend 32) ∨
         (i = .lhu h r rs disp ∧ size = 2 ∧ ext = BitVec.ofNat 32) ∨
         (i = .lw h r rs disp ∧ size = 4 ∧ ext = BitVec.ofNat 32))) ∨
      ∃ (c : Short) (r rs : Fin 16) (d5 : Fin 32), Ready16 s c ∧ k = c.core.val ∧ len = 2 ∧ rd = r.val ∧
        at' = (0, gRead (s.core k) rs.val + BitVec.ofNat 32 (4 * d5.val)) ∧
        i = .lwS c r rs d5 ∧ size = 4 ∧ ext = BitVec.ofNat 32) →
    at'.2.toNat % size = 0 → (capData (afterFetch s k len) k at'.1 at'.2 size [0]).2 = none →
    (∀ d own, coreMap s k at'.2.toNat = .mem d own →
      (leveeCheck s (coreWho k) (s.core k).world (coreCol s k) .read (coreTable s own) d).2 = true → ueHit s d size = none →
      ∃ t, exec i s = .next t ∧ Retires s t k len fun x =>
        gWrite x rd (ext (ofBytes (sbMerge (if holds s k own d then (s.te k).held else {}) d (peekMem s d size))))) ∧
    (∀ off, coreMap s k at'.2.toNat = .reg off → size = 4 → readRefused s (coreWho k) (regAt off) = false →
      ∃ t u, exec i s = .next t ∧ u = (capData (afterFetch s k len) k at'.1 at'.2 size [0]).1 ∧
        t.core k = setFetch (loopCheck (gWrite (s.core k) rd (readReg u (coreWho k) off).2)
          ((s.core k).pc + BitVec.ofNat 32 len)) (t.core k) ∧
        { t with mon := s.mon, cores := s.cores } = { (readReg u (coreWho k) off).1 with mon := s.mon, cores := s.cores })

/-- R337, R338, R246, R248: a store that passes its checks. Into memory that is not held back, its bytes stand at its address
and every other byte is as before, the tags of the granules it touches are cleared, and what other initiators had
reserved there is lost. Into a region that a channel core holds its stores to, the store waits in its buffer and no
memory changes. Into the register space, a channel core holds it and a supervisor core performs it. -/
def Obligations.StoreResults : Prop :=
  ∀ (s : State) (k len rt : Nat) (i : Instr) (at' : Nat × Word) (size : Nat), CoreReady s k len →
    ((∃ h : Hdr, ∃ (r rs : Fin 32) (disp : BitVec 12), Ready32 s h ∧ k = h.core.val ∧ len = 4 ∧ rt = r.val ∧
        at' = memAddr s k rs.val disp ∧
        ((i = .sb h r rs disp ∧ size = 1) ∨ (i = .sh h r rs disp ∧ size = 2) ∨ (i = .sw h r rs disp ∧ size = 4))) ∨
      ∃ (c : Short) (r rs : Fin 16) (d5 : Fin 32), Ready16 s c ∧ k = c.core.val ∧ len = 2 ∧ rt = r.val ∧
        at' = (0, gRead (s.core k) rs.val + BitVec.ofNat 32 (4 * d5.val)) ∧ i = .swS c r rs d5 ∧ size = 4) →
    at'.2.toNat % size = 0 → (capData (afterFetch s k len) k at'.1 at'.2 size [1]).2 = none →
    let v := gRead (s.core k) rt
    (∀ d own, coreMap s k at'.2.toNat = .mem d own →
      (leveeCheck s (coreWho k) (s.core k).world (coreCol s k) .write (coreTable s own) d).2 = true →
      (holds s k own d = false → uePart s d size = none → MemOk s → ∃ t, exec i s = .next t ∧
        (∀ a, cellGet t.mem a = if d ≤ a ∧ a < d + size then BitVec.ofNat 8 (v.toNat / 256 ^ (a - d)) else cellGet s.mem a) ∧
        (∀ g, g ∈ t.tags ↔ g ∈ s.tags ∧ ¬(g < d + size ∧ d < g + 16)) ∧
        t.core k = setFetch (loopCheck (s.core k) ((s.core k).pc + BitVec.ofNat 32 len)) (t.core k) ∧
        (∀ j, j ≠ k → { t.core j with rsv := (s.core j).rsv } = s.core j) ∧
        (∀ n, { t.te n with held := (s.te n).held } = s.te n) ∧
        (∀ n, { t.sub n with prog := (s.sub n).prog } = s.sub n) ∧ MonFrame s t ∧
        { t with mem := s.mem, tags := s.tags, ue := s.ue, cores := s.cores, tes := s.tes, subs := s.subs, vote := s.vote, mon := s.mon } = s) ∧
      (holds s k own d = true → ∀ h', sbPut (s.te k).held d (toBytes size v.toNat) none = some h' → ∃ t, exec i s = .next t ∧
        t.core k = setFetch (loopCheck (s.core k) ((s.core k).pc + BitVec.ofNat 32 len)) (t.core k) ∧
        t.te k = { s.te k with held := h' } ∧ (∀ n, n ≠ k → t.te n = s.te n) ∧ (∀ j, j ≠ k → t.core j = s.core j) ∧
        MonFrame s t ∧ { t with cores := s.cores, tes := s.tes, mon := s.mon } = s)) ∧
    (∀ off, coreMap s k at'.2.toNat = .reg off → size = 4 → regRefuses s (coreWho k) off v = false →
      (k < 64 → ∀ h', sbReg (s.te k).held off v = some h' → ∃ t, exec i s = .next t ∧
        t.core k = setFetch (loopCheck (s.core k) ((s.core k).pc + BitVec.ofNat 32 len)) (t.core k) ∧
        t.te k = { s.te k with held := h' } ∧ { t with cores := s.cores, tes := s.tes, mon := s.mon } = s) ∧
      (64 ≤ k → ∃ u, Retires s u k len id ∧ exec i s = .next (drain { u with posted := [(coreWho k, off, v)] })))

/-- R339, R250: LR reads its word and reserves the granule; SC stores and gives 0 when the reservation is held, and otherwise
stores nothing and gives 1. (Level scheme.) -/
def Obligations.ReservationResults : Prop :=
  ∀ (s : State) (h : Hdr) (rd rs2 rs1 : Fin 32), Ready32 s h →
    let k := h.core.val
    let x := s.core k
    let ea := gRead x rs1.val
    let d := Config.basinBase + (ea.toNat - 0x10000000)
    schemeCap s x.world = false → 0x10000000 ≤ ea.toNat → ea.toNat < 0x11000000 → ea.toNat % 4 = 0 →
    (k < 64 → bitOf (attrOf s false d) 13 = true) → coreMap s k ea.toNat = .mem d false →
    ((leveeCheck s (coreWho k) x.world (coreCol s k) .read (coreTable s false) d).2 = true → ueHit s d 4 = none →
      (64 ≤ k → ∃ t, exec (.lr h rd rs1) s = .next t ∧ Retires s t k 4 fun y =>
        gWrite { y with rsv := some (d / 16 * 16) } rd.val (BitVec.ofNat 32 (ofBytes (peekMem s d 4)))) ∧
      (k < 64 → ∀ l, reserve (s.te k).held.rsv (d / 16 * 16) = some l → ∃ t, exec (.lr h rd rs1) s = .next t ∧
        t.core k = setFetch (loopCheck (gWrite x rd.val
          (BitVec.ofNat 32 (ofBytes (sbMerge (s.te k).held d (peekMem s d 4))))) (x.pc + 4)) (t.core k) ∧
        t.te k = { s.te k with held := { (s.te k).held with rsv := l } } ∧ (∀ n, n ≠ k → t.te n = s.te n) ∧
        { t with cores := s.cores, tes := s.tes, mon := s.mon } = s)) ∧
    ((leveeCheck s (coreWho k) x.world (coreCol s k) .write (coreTable s false) d).2 = true →
      (rsvHeld s k (d / 16 * 16) = false → ∃ t, exec (.sc h rd rs2 rs1) s = .next t ∧ Retires s t k 4 fun y => gWrite y rd.val 1) ∧
      (rsvHeld s k (d / 16 * 16) = true → 64 ≤ k → uePart s d 4 = none → MemOk s → ∃ t, exec (.sc h rd rs2 rs1) s = .next t ∧
        (∀ a, cellGet t.mem a =
          if d ≤ a ∧ a < d + 4 then BitVec.ofNat 8 ((gRead x rs2.val).toNat / 256 ^ (a - d)) else cellGet s.mem a) ∧
        t.core k = setFetch (loopCheck (gWrite x rd.val 0) (x.pc + 4)) (t.core k)) ∧
      (rsvHeld s k (d / 16 * 16) = true → k < 64 →
        ∀ h', sbPut (s.te k).held d (toBytes 4 (gRead x rs2.val).toNat) none = some h' → ∃ t,
        exec (.sc h rd rs2 rs1) s = .next t ∧ t.mem = s.mem ∧ (t.te k).held.stores = h'.stores ∧
        (∀ r ∈ (t.te k).held.rsv, r.granule = d / 16 * 16 → r.scDone = true) ∧
        t.core k = setFetch (loopCheck (gWrite x rd.val 0) (x.pc + 4)) (t.core k)))

/-- R332, R401: MFC reads a control register that is assigned and that the core may access. -/
def Obligations.ControlRegisterReads : Prop :=
  ∀ (s : State) (h : Hdr) (rd : Fin 32) (cr : Fin 1024), Ready32 s h →
    let k := h.core.val
    let x := s.core k
    crAssigned (schemeCap s x.world) cr.val = true → (crPrivileged cr.val = true → isSupervisor s k = true) →
    ∃ t v, exec (.mfc h rd cr) s = .next t ∧ Retires s t k 4 (fun y => gWrite y rd.val v) ∧
      (cr.val = 0x000 → v.toNat = b2n x.sm + 2 * b2n x.dc + 4 * b2n (x.lvl && !schemeCap s x.world) +
        8 * (if x.world = .service then 1 else 0) + 16 * b2n (schemeCap s x.world) + 32 * b2n (cxemu s k) +
        64 * b2n (rstrap s x.world)) ∧
      (cr.val = 0x001 → v.toNat = if k < 64 then k else if k = 64 then 0x80 else 0xC0) ∧
      (∀ l, l < 3 → (cr.val = 0x010 + 4 * l → v = nth 0 x.ls l) ∧ (cr.val = 0x011 + 4 * l → v = nth 0 x.le l) ∧
        (cr.val = 0x012 + 4 * l → v = nth 0 x.lc l)) ∧
      (cr.val = 0x040 → v = x.evbase) ∧ (cr.val = 0x041 → v = x.cause) ∧ (cr.val = 0x042 → v = x.faddr) ∧
      (cr.val = 0x043 → v = x.rax) ∧ (cr.val = 0x044 → v = x.stx) ∧
      (cr.val = 0x045 → v.toNat = x.mlvl % 8 + 8 * b2n x.fesc + 16 * b2n x.hf) ∧
      (∀ i, i < 4 → cr.val = 0x048 + i → v = nth 0 x.xscr i) ∧
      (∀ i, i < 4 → cr.val = 0x080 + i → v = (x.pcc.body >>> (32 * i)).setWidth 32) ∧
      (cr.val = 0x090 → v = x.gtbase) ∧ (cr.val = 0x091 → v = BitVec.ofNat 32 x.gtcount) ∧
      (cr.val = 0x092 → v = x.gauth) ∧ (cr.val = 0x094 → v = 0)

/-- R332, R401: MTC writes a control register that is assigned and that the core may access; the rows that name one
register move a capability register through c7, or empty the epoch cache. -/
def Obligations.ControlRegisterWrites : Prop :=
  ∀ (s : State) (h : Hdr) (rs : Fin 32), Ready32 s h →
    let k := h.core.val
    let x := s.core k
    let v := gRead x rs.val
    let cap := schemeCap s x.world
    (∀ row ∈ ([
        (0x000, fun y => { y with sm := v.getLsbD 0, dc := v.getLsbD 1 }), (0x001, fun y => y),
        (0x010, fun y => { y with ls := setNth y.ls 0 v }), (0x011, fun y => { y with le := setNth y.le 0 v }),
        (0x012, fun y => { y with lc := setNth y.lc 0 v }), (0x014, fun y => { y with ls := setNth y.ls 1 v }),
        (0x015, fun y => { y with le := setNth y.le 1 v }), (0x016, fun y => { y with lc := setNth y.lc 1 v }),
        (0x018, fun y => { y with ls := setNth y.ls 2 v }), (0x019, fun y => { y with le := setNth y.le 2 v }),
        (0x01A, fun y => { y with lc := setNth y.lc 2 v })] : List (Fin 1024 × (CoreSt → CoreSt))),
      ∃ t, exec (.mtc h row.1 rs) s = .next t ∧ Retires s t k 4 row.2) ∧
    (isSupervisor s k = true →
      (∀ row ∈ ([
          (0x040, fun y => { y with evbase := v &&& 0xFFFFFFC0#32 }), (0x041, fun y => { y with cause := v &&& 0x00FFFFFF#32 }),
          (0x042, fun y => { y with faddr := v }), (0x043, fun y => { y with rax := v &&& 0xFFFFFFFE#32 }),
          (0x044, fun y => { y with stx := v &&& 0x3F07#32 }),
          (0x045, fun y => { y with mlvl := v.toNat % 8, fesc := v.getLsbD 3 }),
          (0x046, fun y => { y with loopinh := v.getLsbD 0 }), (0x048, fun y => { y with xscr := setNth y.xscr 0 v }),
          (0x049, fun y => { y with xscr := setNth y.xscr 1 v }), (0x04A, fun y => { y with xscr := setNth y.xscr 2 v }),
          (0x04B, fun y => { y with xscr := setNth y.xscr 3 v })] : List (Fin 1024 × (CoreSt → CoreSt))),
        ∃ t, exec (.mtc h row.1 rs) s = .next t ∧ Retires s t k 4 row.2) ∧
      (∃ t, exec (.ecinval h rs) s = .next t ∧
        { t with cores := s.cores, mon := s.mon } = s ∧
        (v.getLsbD 31 = true → (t.core k).ecache = []) ∧
        (v.getLsbD 31 = false → ∀ e ∈ (t.core k).ecache, e.1 ≠ v.toNat % 4096)) ∧
      (cap = true →
        let c7 := nth {} x.c 7
        ∀ row ∈ ([
            (.cxpcc h rs, fun y => { y with c := setNth y.c 7 y.xpcc, xpcc := c7 }),
            (.cepcc h rs, fun y => { y with c := setNth y.c 7 y.epcc, epcc := c7 }),
            (.cxc0 h rs, fun y => { y with c := setNth y.c 7 y.xc0, xc0 := c7 }),
            (.cec0 h rs, fun y => { y with c := setNth y.c 7 y.ec0, ec0 := c7 })] : List (Instr × (CoreSt → CoreSt))),
          ∃ t, exec row.1 s = .next t ∧ Retires s t k 4 row.2)) ∧
    (cap = true → ∃ t, exec (.cpcc h rs) s = .next t ∧ Retires s t k 4 fun y => { y with c := setNth y.c 7 y.pcc })

/-- R340, R343, R360: FENCE, IFLUSH, XRET and BRK. -/
def Obligations.SystemInstructionResults : Prop :=
  ∀ (s : State) (h : Hdr), Ready32 s h →
    let k := h.core.val
    let x := s.core k
    (∃ t, exec (.fence h) s = .next t ∧ Retires s t k 4 id) ∧
    (∃ t, exec (.iflush h) s = .next t ∧ Retires s t k 4 id ∧ (t.core k).fbuf = []) ∧
    (64 ≤ k ∨ (s.dbg k).brkEn = false → ∃ t, exec (.brk h) s = .next t ∧ Retires s t k 4 id) ∧
    (k < 64 → (s.dbg k).brkEn = true → ∃ t, exec (.brk h) s = .next t ∧ (t.dbg k).halted = true ∧ (t.dbg k).why = 3 ∧
      Retires s t k 4 id) ∧
    (isSupervisor s k = true → schemeCap s x.world = false → ∃ t, exec (.xret h) s = .next t ∧
      Transfers s t k x.rax fun y => { y with
        sm := x.stx.getLsbD 0, dc := x.stx.getLsbD 1, lvl := x.stx.getLsbD 2, mlvl := x.stx.toNat / 2 ^ 8 % 8,
        fesc := x.stx.getLsbD 11, hf := x.stx.getLsbD 12, loopinh := x.stx.getLsbD 13, rsv := none }) ∧
    (isSupervisor s k = true → schemeCap s x.world = true → ∃ t, exec (.xret h) s = .next t ∧
      Transfers s t k x.rax fun y => { y with
        sm := x.stx.getLsbD 0, dc := x.stx.getLsbD 1, mlvl := x.stx.toNat / 2 ^ 8 % 8,
        fesc := x.stx.getLsbD 11, hf := x.stx.getLsbD 12, loopinh := x.stx.getLsbD 13, rsv := none,
        pcc := x.xpcc, c := setNth x.c 0 x.xc0 })

/-- R350, R398 to R400: the capability operations in registers, where their checks pass. -/
def Obligations.CapabilityRegisterResults : Prop :=
  ∀ (s : State) (h : Hdr) (cd ca : Fin 8) (rs1 rs2 : Fin 32), Ready32 s h →
    let k := h.core.val
    let x := s.core k
    let c := cRead x ca.val
    schemeCap s x.world = true →
    (∃ t, exec (.cmov h cd ca) s = .next t ∧ Retires s t k 4 fun y => cWrite y cd.val c) ∧
    (∃ t, exec (.cclr h cd) s = .next t ∧ Retires s t k 4 fun y => cWrite y cd.val { body := 0, tag := false }) ∧
    (c.tag = true → capSealed c = false →
      (capBase c ≤ (gRead x rs1.val).toNat → (gRead x rs1.val).toNat + (gRead x rs2.val).toNat ≤ capBase c + capLen c →
        ∃ t n, exec (.csetb h cd ca rs1 rs2) s = .next t ∧ Retires s t k 4 (fun y => cWrite y cd.val n) ∧ n.tag = true ∧
          capBase n = (gRead x rs1.val).toNat ∧ capLen n = (gRead x rs2.val).toNat ∧ fld n.body 127 64 = fld c.body 127 64) ∧
      (∃ t n, exec (.candp h cd ca rs1) s = .next t ∧ Retires s t k 4 (fun y => cWrite y cd.val n) ∧ n.tag = true ∧
        capPerms n = capPerms c &&& (gRead x rs1.val).toNat % 65536 ∧ fld n.body 63 0 = fld c.body 63 0 ∧
        fld n.body 127 80 = fld c.body 127 80) ∧
      (capPerm x.pcc 5 = true → (gRead x rs1.val).toNat % 4096 = capOtype x.pcc →
        ∃ t n, exec (.cseal h cd ca rs1) s = .next t ∧ Retires s t k 4 (fun y => cWrite y cd.val n) ∧ n.tag = true ∧
          capSealed n = true ∧ capOtype n = (gRead x rs1.val).toNat % 4096 ∧ fld n.body 79 0 = fld c.body 79 0)) ∧
    (∀ a : Fin 8, c.tag = true → capSealed c = true → capOtype (cRead x a.val) = capOtype c →
      (capUse (afterFetch s k 4) k (cRead x a.val) none [6]).2 = none →
      ∃ t n, exec (.cunseal h cd ca (a.castLE (by decide))) s = .next t ∧ Retires s t k 4 (fun y => cWrite y cd.val n) ∧
        n.tag = true ∧ capSealed n = false ∧ fld n.body 92 0 = fld c.body 92 0 ∧ fld n.body 127 94 = fld c.body 127 94) ∧
    (∀ sel : Fin 32, sel.val < 6 → ∃ t v, exec (.cget h rs1 ca sel) s = .next t ∧
      Retires s t k 4 (fun y => gWrite y rs1.val v) ∧
      (sel.val = 0 → v.toNat = capBase c) ∧ (sel.val = 1 → v.toNat = capLen c) ∧ (sel.val = 2 → v.toNat = capPerms c) ∧
      (sel.val = 3 → v.toNat = capOtype c) ∧ (sel.val = 4 → v.toNat = capEpoch c) ∧
      (sel.val = 5 → v.toNat = b2n c.tag + 2 * b2n (capSealed c) + 4 * (if capWorld c = .service then 1 else 0))) ∧
    ((capUse (afterFetch s k 4) k c none [2]).2 = none → ∃ t, exec (.cjmp h ca rs2) s = .next t ∧
      Transfers s t k (gRead x rs2.val) fun y => { y with pcc := c })

/-- R350, R396, R397: CLC loads a capability with its granule's tag; CSC stores one and sets the tag. -/
def Obligations.CapabilityMemoryResults : Prop :=
  ∀ (s : State) (h : Hdr) (cd cs : Fin 8) (rs : Fin 32) (disp : BitVec 9) (d : Nat) (own : Bool), Ready32 s h →
    let k := h.core.val
    let x := s.core k
    let ea := gRead x rs.val + disp.signExtend 32 <<< 4
    schemeCap s x.world = true → ea.toNat % 16 = 0 → coreMap s k ea.toNat = .mem d own → holds s k own d = false →
    (tagged s d = true → (capData (afterFetch s k 4) k cs.val ea 16 [0]).2 = none →
      (leveeCheck s (coreWho k) x.world .p .read (coreTable s own) d).2 = true → ueHit s d 16 = none →
      ∃ t n, exec (.clc h cd rs cs disp) s = .next t ∧ Retires s t k 4 (fun y => cWrite y cd.val n) ∧
        n.body = BitVec.ofNat 128 (ofBytes (peekMem s d 16)) ∧
        (n.tag = true ↔ d / 16 * 16 ∈ s.tags ∧ capSound n = true ∧ capPerm (cRead x cs.val) 3 = true)) ∧
    (tagged s d = true → bitOf (attrOf s own d) 15 = true →
      (capData (afterFetch s k 4) k cs.val ea 16 (if (cRead x cd.val).tag = true then [1, 4] else [1])).2 = none →
      (leveeCheck s (coreWho k) x.world .p .write (coreTable s own) d).2 = true → uePart s d 16 = none → MemOk s → d % 16 = 0 →
      ∃ t, exec (.csc h cd rs cs disp) s = .next t ∧
        (∀ a, cellGet t.mem a = if d ≤ a ∧ a < d + 16 then BitVec.ofNat 8 ((cRead x cd.val).body.toNat / 256 ^ (a - d)) else cellGet s.mem a) ∧
        (∀ g, g % 16 = 0 → (g ∈ t.tags ↔
          if g = d then (cRead x cd.val).tag = true ∧ capSound (cRead x cd.val) = true else g ∈ s.tags)) ∧
        t.core k = setFetch (loopCheck x (x.pc + 4)) (t.core k))

/-- R407 to R409: GATE reads its descriptor, checks its arguments, writes a frame, and switches level or authority; GRET
switches back. -/
def Obligations.GateResults : Prop :=
  ∀ (s : State) (h : Hdr), Ready32 s h →
    let k := h.core.val
    let x := s.core k
    let s1 := afterFetch s k 4
    (∀ (n : Fin 1024) (d : List Byte) (u w : State), x.g.length = 32 → schemeCap s x.world = false → n.val < x.gtcount →
      loadIn s1 k .p (x.gtbase + BitVec.ofNat 32 (32 * n.val)) 32 = (s1, .ok d) → gateValid d = true →
      x.gates.length < 4 → (∀ r ∈ x.gates, r.num ≠ n.val) → wordAt d 1 ≠ 0 →
      gateCheck s1 k d gateArgs = (u, none) →
      storeIn u k .p (wordAt d 1 - 16) (gateFrame (u.core k) false n.val (x.pc + 4)) none = (w, none) → w.posted = [] →
      ∃ t, exec (.gate h n) s = .next t ∧ { t with cores := s.cores, mon := s.mon } = { w with cores := s.cores, mon := s.mon } ∧
        (t.core k).pc = wordAt d 0 &&& 0xFFFFFFFE#32 ∧ (t.core k).lvl = (wordAt d 2).getLsbD 0 ∧
        gRead (t.core k) 31 = wordAt d 1 - 16 ∧
        (t.core k).gates = { num := n.val, frame := wordAt d 1 - 16 } :: (w.core k).gates) ∧
    ∀ (r : GateRec) (rest : List GateRec) (f : List Byte), schemeCap s x.world = false → x.gates = r :: rest →
      loadIn s1 k .p r.frame 16 = (s1, .ok f) → fld (wordAt f 2) 9 0 = r.num →
      ∃ t, exec (.gret h) s = .next t ∧ Transfers s t k (wordAt f 0) fun y =>
        { gWrite { y with gates := rest } 31 (wordAt f 1) with lvl := (wordAt f 2).getLsbD 10 }

/-- R352: the digest and CRC operations, bit by bit as the spec's steps give them. -/
def Obligations.DigestResults : Prop :=
  ∀ (s : State) (h : Hdr) (rd rs1 rs2 : Fin 32), ReadyCop s h →
    let k := h.core.val
    let x := s.core k
    let a := gRead x rs1.val
    let b := gRead x rs2.val
    let crc16 (a : Half) (b : Byte) : Half := Nat.rec (a ^^^ (b.setWidth 16 <<< 8))
      (fun _ v => if v.getLsbD 15 = true then (v <<< 1) ^^^ 0x1021#16 else v <<< 1) 8
    let crc32c (a : Word) (b : Byte) : Word := Nat.rec (a ^^^ b.setWidth 32)
      (fun _ v => if v.getLsbD 0 = true then (v >>> 1) ^^^ 0x82F63B78#32 else v >>> 1) 8
    let crc64 (a : DWord) (b : Byte) : DWord := Nat.rec (a ^^^ (b.setWidth 64 <<< 56))
      (fun _ v => if v.getLsbD 63 = true then (v <<< 1) ^^^ 0x42F0E1EBA9EA3693#64 else v <<< 1) 8
    let b0 : Byte := b.setWidth 8
    let b1 : Byte := (b >>> 8).setWidth 8
    let b2 : Byte := (b >>> 16).setWidth 8
    let b3 : Byte := (b >>> 24).setWidth 8
    (∀ row ∈ ([
        (.crc16B h rd rs1 rs2, (crc16 (a.setWidth 16) b0).setWidth 32),
        (.crc16W h rd rs1 rs2, (crc16 (crc16 (crc16 (crc16 (a.setWidth 16) b0) b1) b2) b3).setWidth 32),
        (.crc32cB h rd rs1 rs2, crc32c a b0), (.crc32cW h rd rs1 rs2, crc32c (crc32c (crc32c (crc32c a b0) b1) b2) b3),
        (.c64lo h rd, x.acc.setWidth 32), (.c64hi h rd, (x.acc >>> 32).setWidth 32)] : List (Instr × Word)),
      ∃ t, exec row.1 s = .next t ∧ Retires s t k 4 fun y => gWrite y rd.val row.2) ∧
    (∃ t, exec (.c64init h) s = .next t ∧ Retires s t k 4 fun y => { y with acc := 0 }) ∧
    ∃ t, exec (.c64W h rs2) s = .next t ∧ Retires s t k 4 fun y => { y with acc := crc64 (crc64 (crc64 (crc64 y.acc b0) b1) b2) b3 }

/-- R353: the bit-plane buffer of a core. -/
def Obligations.BitPlaneResults : Prop :=
  ∀ (s : State) (h : Hdr) (rd rs1 rs2 : Fin 32), ReadyCop s h →
    let k := h.core.val
    let x := s.core k
    let v := gRead x rs1.val
    let plane := v.toNat % 16
    let m := v.toNat / 16 % 8
    (∃ t, exec (.sxclr h) s = .next t ∧ Retires s t k 4 fun y => { y with sx := List.replicate 256 0, idx := 0 }) ∧
    (∃ t, exec (.sxput h rs1) s = .next t ∧ Retires s t k 4 fun y =>
      if y.idx ≤ 254 then
        { y with sx := setNth (setNth y.sx y.idx (v.setWidth 16)) (y.idx + 1) ((v >>> 16).setWidth 16), idx := y.idx + 2 }
      else y) ∧
    (∃ t w, exec (.sxpln h rd rs1) s = .next t ∧ Retires s t k 4 (fun y => gWrite y rd.val w) ∧
      ∀ i, i < 32 → w.getLsbD i = (nth 0 x.sx (32 * m + i)).getLsbD plane) ∧
    (∃ t w, exec (.sxmsk h rd) s = .next t ∧ Retires s t k 4 (fun y => gWrite y rd.val w) ∧
      ∀ j, j < 16 → (w.getLsbD j = true ↔ ∀ e ∈ x.sx, e.getLsbD j = false) ∧
        (w.getLsbD (16 + j) = true ↔ ∀ e ∈ x.sx, e.getLsbD j = true)) ∧
    (x.sx.length = 256 → ∃ t l, exec (.sxppl h rs1 rs2) s = .next t ∧ Retires s t k 4 (fun y => { y with sx := l }) ∧
      l.length = 256 ∧ ∀ n b, b < 16 → (nth 0 l n).getLsbD b =
        if b = plane ∧ n / 32 = m ∧ n < 256 then (gRead x rs2.val).getLsbD (n % 32) else (nth 0 x.sx n).getLsbD b) ∧
    (∃ t, exec (.sxget h rd) s = .next t ∧ Retires s t k 4 fun y =>
      if y.idx ≤ 254 then
        { gWrite y rd.val ((nth 0 x.sx x.idx).setWidth 32 ||| (nth 0 x.sx (x.idx + 1)).setWidth 32 <<< 16) with idx := y.idx + 2 }
      else gWrite y rd.val 0) ∧
    ∃ t, exec (.sxset h rs1) s = .next t ∧ Retires s t k 4 fun y => { y with idx := Nat.min (v.toNat % 512 / 2 * 2) 256 }

/-- R354 to R356: the field image and the timebase as a core reads them, and the held output entries. -/
def Obligations.FieldAndTimebaseResults : Prop :=
  ∀ (s : State) (h : Hdr) (rd rs1 : Fin 32), ReadyCop s h →
    let k := h.core.val
    let x := s.core k
    let v := gRead x rs1.val
    (∀ row ∈ ([(.fird h rd rs1, 4), (.firdh h rd rs1, 2), (.firdb h rd rs1, 1)] : List (Instr × Nat)), ∀ bs,
      v.toNat % row.2 = 0 → snapBytes (fieldImage (afterFetch s k 4) k) v.toNat row.2 = some bs →
      ∃ t, exec row.1 s = .next t ∧ Retires s t k 4 fun y => gWrite y rd.val (BitVec.ofNat 32 (ofBytes bs))) ∧
    (k < 64 →
      (∃ t, exec (.fiout h rs1) s = .next t ∧
        t.core k = setFetch (loopCheck x (x.pc + 4)) (t.core k) ∧
        (∀ n, n ≠ k → t.te n = s.te n) ∧ { t.te k with held := (s.te k).held, fiOvf := (s.te k).fiOvf } = s.te k ∧
        { t with cores := s.cores, tes := s.tes, mon := s.mon } = s ∧
        let e := (v.toNat % 65536, v.toNat / 65536)
        let old := (s.te k).held.outs
        ((∃ o ∈ old, o.1 = e.1) → (t.te k).held.outs = old.map fun o => if o.1 = e.1 then e else o) ∧
        ((∀ o ∈ old, o.1 ≠ e.1) → old.length < 1024 → (t.te k).held.outs = old ++ [e]) ∧
        ((∀ o ∈ old, o.1 ≠ e.1) → 1024 ≤ old.length → (t.te k).held.outs = old ∧ (t.te k).fiOvf = true)) ∧
      ∃ t w, exec (.fioutr h rd rs1) s = .next t ∧ Retires s t k 4 (fun y => gWrite y rd.val w) ∧
        ((s.te k).held.outs.find? (fun o => o.1 == v.toNat % 65536) = none → 96 ≤ v.toNat % 65536 → v.toNat % 65536 < 32768 → w = 0) ∧
        ∀ o, (s.te k).held.outs.find? (fun o => o.1 == v.toNat % 65536) = some o → w = BitVec.ofNat 32 o.2) ∧
    (∃ t, exec (.tblo h rd) s = .next t ∧ Retires s t k 4 fun y =>
      { gWrite y rd.val (s.now.setWidth 32) with tbHi := (s.now >>> 32).setWidth 32 }) ∧
    ∃ t, exec (.tbhi h rd) s = .next t ∧ Retires s t k 4 fun y => gWrite y rd.val y.tbHi

/-- R359, R363, R364, R367 to R369: what a supervisor core at work takes on an interrupt and on its watchdogs. -/
def Obligations.SupervisorEntries : Prop :=
  ∀ (s : State) (k : Fin 2), scRuns s k.val = true → s.posted = [] →
    let c := 64 + k.val
    let x := s.core c
    let cap := schemeCap s x.world
    let saved : Word := BitVec.ofNat 32 (b2n x.sm + 2 * b2n x.dc + 4 * b2n (x.lvl && !cap) + 256 * (x.mlvl % 8) +
      2048 * b2n x.fesc + 4096 * b2n x.hf + 8192 * b2n x.loopinh)
    let entry (code orig arg : Nat) (y : CoreSt) : CoreSt :=
      let z := { y with
        rax := x.pc, faddr := 0, cause := BitVec.ofNat 32 (code + 256 * orig + 65536 * arg), stx := saved, mlvl := 7,
        fesc := true, loopinh := true, hf := y.hf || code == 0x18, rsv := none, pc := y.evbase }
      if cap = true then { z with xpcc := y.pcc, pcc := y.epcc, xc0 := nth {} y.c 0, c := setNth y.c 0 y.ec0 }
      else { z with lvl := true }
    let counted (hard : Bool) (y : ScSt) : ScSt :=
      { y with faults := satInc 0xFFFF y.faults, hard := if hard = true then satInc 255 y.hard else y.hard }
    (∀ l, presented s k.val = some l → 1 ≤ l → l ≤ 7 →
      (x.mlvl < l → exec (.interruptTake k) s = .next (s.modCore c (entry (0x20 + l) 0 0))) ∧
      (l ≤ x.mlvl → exec (.interruptTake k) s = .next s)) ∧
    (x.hf = false → x.fesc = false →
      exec (.progressWatchdog (Fin.ofNat 66 c)) s =
        .next ((s.modSc k.val (counted false)).modCore c (entry 0x16 0 1))) ∧
    (x.hf = false → x.fesc = true →
      exec (.progressWatchdog (Fin.ofNat 66 c)) s =
        .next ((s.modSc k.val (counted true)).modCore c (entry 0x18 0x16 1))) ∧
    (x.hf = false → x.fesc = false → wdogEn s k.val = true → (s.sc k.val).expired = false →
      (s.sc k.val).kick.toNat + wdogPer s k.val ≤ s.now.toNat →
      exec (.supervisorWatchdogExpiry k) s = .next
        ((s.modSc k.val fun y => counted false { y with expired := true, kick := s.now }).modCore c (entry 0x16 0 2))) ∧
    (k.val = 1 ∨ voteMode s ≠ 0 → wdogEn s k.val = true → (s.sc k.val).expired = true → (s.sc k.val).kick.toNat + wdogPer s k.val ≤ s.now.toNat →
      ∃ t, exec (.supervisorWatchdogExpiry k) s = .next t ∧ (t.sc k.val).locked = true ∧ (t.sc k.val).lcause = 0x16 ∧
        (t.sc k.val).lockPc = x.pc ∧ (t.core c).run = false ∧ t.vote.lock = true) ∧
    (∀ v : Word, v.toNat % 65536 = 0xA5C3 →
      exec (.scWdogKick (if k.val = 0 then .scS else .scV) k v) s =
        .next (s.modSc k.val fun y => { y with kick := s.now, expired := false }))

/-- R358, R359, R364, R365: the faults of a supervisor core: the cause, its argument and address, the level or authority, and
where the PC goes; a second fault escalates, and a fault in a hard fault locks the core. -/
def Obligations.SupervisorFaults : Prop :=
  ∀ (s : State) (k code arg : Nat) (rax faddr : Word), k < 2 → scRuns s k = true → code < 256 → arg < 256 →
    let c := 64 + k
    let x := s.core c
    let t := trap s c code arg rax faddr
    (x.hf = false →
      (t.core c).rax = rax ∧ (t.core c).faddr = faddr ∧ (t.core c).pc = x.evbase ∧ (t.core c).mlvl = 7 ∧ (t.core c).fesc = true ∧
      (t.core c).loopinh = true ∧ (t.core c).g = x.g ∧ (t.core c).p = x.p ∧ (t.core c).rs = x.rs ∧ (t.core c).ls = x.ls ∧
      (t.core c).le = x.le ∧ (t.core c).lc = x.lc ∧ (t.core c).xscr = x.xscr ∧ (t.core c).rsv = none ∧
      (x.fesc = false → (t.core c).cause = BitVec.ofNat 32 (code + 65536 * arg) ∧ (t.core c).hf = decide (code = 0x18)) ∧
      (x.fesc = true → (t.core c).cause = BitVec.ofNat 32 (0x18 + 256 * code + 65536 * arg) ∧ (t.core c).hf = true) ∧
      (schemeCap s x.world = false → (t.core c).lvl = true ∧ (t.core c).pcc = x.pcc ∧ (t.core c).c = x.c) ∧
      (schemeCap s x.world = true → (t.core c).pcc = x.epcc ∧ (t.core c).xpcc = x.pcc) ∧
      (∀ j, j ≠ c → t.core j = s.core j) ∧ { t with cores := s.cores, scS := s.scS, scV := s.scV } = s) ∧
    (x.hf = true → (k = 1 ∨ voteMode s ≠ 0 ∨ s.sluice = []) → (t.sc k).locked = true ∧ (t.sc k).lcause = code ∧ (t.sc k).lorig = x.cause.toNat % 256 ∧
      (t.sc k).lockPc = rax ∧ (t.sc k).lockFaddr = faddr ∧ (t.core c).run = false ∧ t.vote.lock = true ∧
      (k = 1 → t.mon.run = false) ∧ (k = 0 → voteMode s = 0 → t.cu.safeOnly = true ∧
        ∀ n, n < 96 → isOutMode (pinMode s n) = true → (t.pin n).atSafe = true ∧ (t.pin n).value = pinSafeValue s n ∧
          ((s.pin n).atSafe = false → (t.pin n).latchOff = true)))

/-- R334, R336 step 3: an instruction whose guard is false has no effect but to advance the PC, under the loop check. -/
def Obligations.FalseGuardHasNoEffect : Prop :=
  ∀ (s : State) (h : Hdr) (a b c : Fin 32) (p q : Fin 8) (d : BitVec 12) (i : BitVec 10) (o : BitVec 20) (m : Half),
    CoreReady s h.core.val 4 → h.ecc = 0 → guardTrue h (s.core h.core.val) = false → h.pg.val ≠ 0 →
    ∀ j ∈ ([.lb h a b d, .lbu h a b d, .lh h a b d, .lhu h a b d, .lw h a b d, .sb h a b d, .sh h a b d, .sw h a b d,
        .add h a b c, .sub h a b c, .mul h a b c, .div h a b c, .clz h a b, .bswap h a b, .addi h a b i, .andi h a b i,
        .slli h a b c, .rori h a b c, .lui h a m, .llo h a m, .cmpi h p q a (d.setWidth 9), .pand h p q q, .prd h a, .pwr h a,
        .bra h o, .call h o, .jmpr h a, .callr h a, .ret h, .rspush h a, .rspop h a, .rsdepth h a, .gret h, .fence h, .iflush h,
        .lr h a b, .sc h a b c, .xret h, .brk h, .dadd h a b c, .dsubc h a b c, .dcvtBd h a b,
        .crc16B h a b c, .c64W h a, .sxput h a, .sxget h a, .fird h a b, .tblo h a, .tbhi h a] : List Instr),
      ∃ t, exec j s = .next t ∧ Retires s t h.core.val 4 id

/-- R254, R334 to R336, R339, R341, R344, R347, R351, R358: faults that instructions of a supervisor core raise, at the level
scheme, outside a handler: the cause, its argument, FADDR and RAX. -/
def Obligations.InstructionFaults : Prop :=
  ∀ (s : State) (h : Hdr) (a b c : Fin 32) (disp : BitVec 12), CoreReady s h.core.val 4 → 64 ≤ h.core.val →
    let k := h.core.val
    let x := s.core k
    let faults (i : Instr) (code arg : Nat) (faddr : Word) : Prop := ∃ t, exec i s = .next t ∧
      (t.core k).cause = BitVec.ofNat 32 (code + 65536 * arg) ∧ (t.core k).faddr = faddr ∧ (t.core k).rax = x.pc ∧
      (t.core k).pc = x.evbase ∧ (t.core k).lvl = true ∧ (t.core k).g = x.g ∧ t.mem = s.mem ∧
      (t.sc (k - 64)).faults = satInc 0xFFFF (s.sc (k - 64)).faults
    schemeCap s x.world = false → x.hf = false → x.fesc = false →
    (h.pg.val = 0 → h.inv = true → faults (.add h a b c) 0x01 0
      (BitVec.ofNat 32 (3 * 2 ^ 30 + 2 ^ 29 + 0x20 * 2 ^ 20 + a.val * 2 ^ 15 + b.val * 2 ^ 10 + c.val * 2 ^ 5))) ∧
    (¬(h.pg.val = 0 ∧ h.inv = true) → h.ecc ≠ 0 → faults (.add h a b c) 0x15 h.ecc.val
      (if h.ecc.val = 6 ∨ h.ecc.val = 7 then x.pc &&& ~~~15#32 else 0)) ∧
    (h.ecc = 0 → guardTrue h x = true →
      let ea := gRead x b.val + disp.signExtend 32
      (ea.toNat % 4 ≠ 0 → faults (.lw h a b disp) 0x05 0 ea ∧ faults (.sw h a b disp) 0x05 0 ea) ∧
      (ea.toNat % 4 = 0 → coreMap s k ea.toNat = .nothing → faults (.lw h a b disp) 0x07 1 ea ∧ faults (.sw h a b disp) 0x07 1 ea) ∧
      (x.rs = [] → faults (.ret h) 0x10 0 0 ∧ faults (.rspop h a) 0x10 0 0) ∧
      (x.rs.length = 8 → rstrap s x.world = true → faults (.rspush h b) 0x0F 0 (gRead x b.val)) ∧
      (x.lvl = false → faults (.xret h) 0x13 0 (BitVec.ofNat 32 (3 * 2 ^ 30 + 2 ^ 29 * b2n h.inv + 2 ^ 26 * h.pg.val + 0x2B * 2 ^ 20 + 0x0E))) ∧
      ((gRead x b.val).toNat < 0x10000000 ∨ 0x11000000 ≤ (gRead x b.val).toNat →
        faults (.lr h a b) 0x12 0 (gRead x b.val) ∧ faults (.sc h a c b) 0x12 0 (gRead x b.val)) ∧
      (∀ n : Fin 1024, x.gtcount ≤ n.val → faults (.gate h n) 0x0E 0 (BitVec.ofNat 32 n.val)) ∧
      (x.gates = [] → faults (.gret h) 0x14 0 0) ∧
      (∀ ci cnt, ¬(ci = true ∧ cnt = 0) → faults (.loop h 0 ci cnt a 0) 0x11 0 (x.pc + 4)) ∧
      (cxemu s k = true → faults (.crc16B h a b c) 0x02 0
        (BitVec.ofNat 32 (3 * 2 ^ 30 + 2 ^ 29 * b2n h.inv + 2 ^ 26 * h.pg.val + 0x38 * 2 ^ 20 + a.val * 2 ^ 15 + b.val * 2 ^ 10 + c.val * 2 ^ 5))))

/-- R386 to R388: the region table: the lowest-numbered valid entry that covers a page decides; no entry refuses; a refusal
counts and changes no memory. -/
def Obligations.LeveeDecides : Prop :=
  ∀ (s : State) (who : Initiator) (w : World) (c : Col) (a : Acc) (t : Nat → Rgn) (d : Nat),
    let covers (i : Nat) : Prop := bitOf (t i).2.2 0 = true ∧ (t i).1 ≤ d / 4096 ∧ d / 4096 ≤ (t i).2.1
    let right := 1 + (if w = .service then 6 else 0) + (match c with
      | .u => 0
      | .p => 2
      | .e => 4) + (if a = .write then 1 else 0)
    (∀ i, i < 64 → covers i → (∀ j, j < i → ¬covers j) →
      (leveeCheck s who w c a t d).2 = bitOf (t i).2.2 right) ∧
    ((∀ i, i < 64 → ¬covers i) → (leveeCheck s who w c a t d).2 = false) ∧
    ((leveeCheck s who w c a t d).2 = true → (leveeCheck s who w c a t d).1 = s) ∧
    ((leveeCheck s who w c a t d).2 = false → (leveeCheck s who w c a t d).1.mem = s.mem ∧
      (leveeCheck s who w c a t d).1.levee.refuseCnt = BitVec.ofNat 32 (satInc 0xFFFFFFFF s.levee.refuseCnt.toNat))

/-- R387, R391, R402, R403: LEVEE_COMMIT, the end of its copies, LEVEE_REVOKE and the end of its invalidations. -/
def Obligations.LeveeCommands : Prop :=
  (∀ (s : State) (who : Initiator), Writes s who 0x2404 1 →
    (∀ i r, tableFault (dramPages s) (rgnShadow s) = some (i, r) →
      exec (.leveeCommit who) s = .next (s.modLevee fun l => { l with result := r, entry := i })) ∧
    (tableFault (dramPages s) (rgnShadow s) = none → ∃ t, exec (.leveeCommit who) s = .next t ∧
      t.levee.busy = true ∧ t.levee.result = 0 ∧ (∀ i, i < 64 → rgnNow t i = rgnShadow s i ∧ rgnOwn t i = rgnNow s i) ∧
      (t.levee.overlap = true ↔ ∃ i j, i < j ∧ j < 64 ∧ bitOf (rgnShadow s i).2.2 0 = true ∧ bitOf (rgnShadow s j).2.2 0 = true ∧
        (rgnShadow s i).1 ≤ (rgnShadow s j).2.1 ∧ (rgnShadow s j).1 ≤ (rgnShadow s i).2.1) ∧
      { t with regs := s.regs, shadow := s.shadow, levee := s.levee } = s)) ∧
  (∀ s : State, s.levee.busy = true → ∃ t, exec .leveeCopiesUpdated s = .next t ∧ t.levee.busy = false ∧
    (∀ i, rgnOwn t i = rgnNow s i) ∧ { t with levee := s.levee } = s) ∧
  (∀ (s : State) (who : Initiator) (o : BitVec 12), Writes s who 0x2424 (BitVec.ofNat 32 (2 ^ 31 + o.toNat)) → MemOk s →
    let a := 0x800000000 + fld (s.reg 0x241C) 23 14 * 0x4000 + 4 * o.toNat
    let w := peekWord s a
    ∃ t, exec (.leveeRevoke who o) s = .next t ∧ t.levee.revBusy = true ∧ t.levee.otype = o.toNat ∧
      (fld w 7 0 < 255 → peekWord t a = setFld w 7 0 (fld w 7 0 + 1) ∧ t.levee.exh = false ∧ t.levee.epoch = fld w 7 0 + 1) ∧
      (fld w 7 0 = 255 → peekWord t a = setBit w 8 true ∧ t.levee.exh = true ∧ t.levee.epoch = 255) ∧
      (∀ b, (b < a ∨ a + 4 ≤ b) → cellGet t.mem b = cellGet s.mem b)) ∧
  ∀ s : State, s.levee.revBusy = true → ∃ t, exec .revokeInvalidationDone s = .next t ∧ t.levee.revBusy = false ∧
    (∀ k, ∀ e ∈ (t.core k).ecache, e.1 ≠ s.levee.otype) ∧ (∀ k, { t.core k with ecache := (s.core k).ecache } = s.core k) ∧
    { t with cores := s.cores, levee := s.levee } = s

/-- R12, R16 to R18, R20, R21 and the field tables of R19: islands, their watchdogs, the loss of the die-to-die link and of
the keep-alive, the timebase. -/
def Obligations.IslandAndTimebaseCommands : Prop :=
  (∀ s : State, dieRuns s = true → refLink s = none → exec .timebaseTick s = .next { s with now := s.now + 10 }) ∧
  (∀ (s : State) (k : Nat), dieRuns s = true → refLink s = some k → ∃ t, exec .timebaseTick s = .next t ∧
    { t with now := s.now, vote := s.vote, cfls := s.cfls } = s ∧ { t.vote with trim := s.vote.trim } = s.vote ∧
    (s.vote.trim < 999 → t.now = s.now + 10 ∧ t.cfls = s.cfls) ∧
    (999 ≤ s.vote.trim → (s.cfl k).off < 0 → t.now = s.now + 9 ∧ t.cfl k = { s.cfl k with off := (s.cfl k).off + 1 }) ∧
    (999 ≤ s.vote.trim → 0 < (s.cfl k).off → t.now = s.now + 11 ∧ t.cfl k = { s.cfl k with off := (s.cfl k).off - 1 })) ∧
  (∀ (s : State) (i : Fin 212) (f : BitVec 12), (s.island i).clk ≠ 0 → (s.island i).freqAt.toNat + 10000 ≤ s.now.toNat → ∃ t, exec (.islandFreqUpdate i f) s = .next t ∧
    { t with islands := s.islands } = s ∧ (∀ j, j ≠ i.val → t.island j = s.island j) ∧
    { t.island i with freqAt := (s.island i).freqAt, freq := (s.island i).freq, slow := (s.island i).slow } = s.island i ∧
    (t.island i).freq = f.toNat ∧ (i.val < 64 → ((t.island i).slow = true ↔ f.toNat < 540)) ∧
    (64 ≤ i.val → i.val < 160 → ((t.island i).slow = true ↔ f.toNat < 360)) ∧
    (176 ≤ i.val → i.val ≤ 178 → ((t.island i).slow = true ↔ f.toNat ≤ 140)) ∧
    (i.val = 183 ∨ i.val = 184 → ((t.island i).slow = true ↔ f.toNat < 720))) ∧
  (∀ (s : State) (i : Fin 212), (s.island i).clk = 3 →
    exec (.handshakeCompleteAfterStall i) s = .next (s.modIsland i fun x => { x with clk := 2 })) ∧
  (∀ (s : State) (i : Fin 212), (s.island i).clk ≠ 0 → s.posted = [] → ∃ t, exec (.handshakeWatchdog i .nothing) s = .next t ∧
    (t.island i).clk = 3 ∧ (t.island i).wdog = true ∧ (t.island i).cnt = Nat.min 255 ((s.island i).cnt + 1) ∧
    bitOf (readReg t .scS (0x180 + 4 * (i.val / 32))).2 (i.val % 32) = true ∧ (t.evSrc 1222).count ≠ 0 ∧
    (∀ j, j ≠ i.val → t.island j = s.island j) ∧ (∀ n, n ≠ 1222 → n ≠ 1226 → t.evSrc n = s.evSrc n) ∧
    { t with islands := s.islands, ev := s.ev, host := s.host, hostMem := s.hostMem } = s) ∧
  (∀ (s : State) (i : Fin 212) (k : Fin 66) (a : Word), (s.island i).clk ≠ 0 → s.posted = [] → 64 ≤ k.val →
    coreGoes s k = true → (s.core k).hf = false → (s.core k).fesc = false →
    (∃ t, exec (.handshakeWatchdog i (.coreFetch k)) s = .next t ∧ (t.core k).cause = 0x30006 ∧
      (t.core k).faddr = (s.core k).pc ∧ (t.core k).rax = (s.core k).pc ∧ (t.core k).pc = (s.core k).evbase) ∧
    ∃ t, exec (.handshakeWatchdog i (.coreData k a)) s = .next t ∧ (t.core k).cause = 0x30007 ∧ (t.core k).faddr = a ∧
      (t.core k).pc = (s.core k).evbase ∧ (t.island i).clk = 3) ∧
  (∀ (s : State) (who : Initiator) (i : Fin 212), Writes s who (islOff i) 8 → ∃ t, exec (.wdogClear who i) s = .next t ∧
    t = (s.modIsland i fun x => { x with wdog := false }) ∧
    bitOf (readReg t .scS (0x180 + 4 * (i.val / 32))).2 (i.val % 32) = false) ∧
  (∀ s : State, s.boot.st ≠ .off → s.posted = [] → s.sluice = [] → bitOf (s.reg Reg.pinStormBase) 0 = false →
    (∀ n, (s.sub n).prog.phase ≠ .sampling ∧ builtinRuns s n 0x11 = false) →
    voteMode s = 0 ∨ s.vote.st = .down ∨ s.vote.st = .forming ∨ s.vote.st = .excluded ∨ (s.subs = [] ∧ s.vote.votes = []) →
    ∃ t, exec .linkFrameLossSafe s = .next t ∧ t.fd.linkLost = true ∧
    (∀ n, n < 96 → isOutMode (pinMode s n) = true → (t.pin n).value = (if bitOf (s.reg (0x40000 + 0x40 * n)) 4 = true then 1 else 0) ∧
      (t.pin n).atSafe = true ∧ (t.pin n).pwmHold = none ∧ (t.pin n).fifo = [] ∧
      (voteMode s = 0 ∨ s.vote.st = .down ∨ s.vote.st = .forming ∨ s.vote.st = .excluded → (t.pin n).latchOff = (s.pin n).latchOff)) ∧
    (∀ n, isOutMode (pinMode s n) = false → t.pin n = s.pin n) ∧
    (voteMode s = 0 ∨ s.vote.st = .down ∨ s.vote.st = .forming ∨ s.vote.st = .excluded →
      { t with pins := s.pins, fd := s.fd } = s) ∧
    (voteMode s ≠ 0 → s.vote.st = .inService ∨ s.vote.st = .standby ∨ s.vote.st = .rejoining →
      t.vote.st = .excluded ∧ (s.vote.exclLog = 0 → fld t.vote.exclLog 7 4 = 4))) ∧
  (∀ (s : State) (n : Fin 96), isOutMode (pinMode s n) = true → s.sluice = [] → ∃ t, exec (.keepaliveLoss n) s = .next t ∧
    (t.pin n).value = (if bitOf (s.reg (0x40000 + 0x40 * n.val)) 4 = true then 1 else 0) ∧ (t.pin n).atSafe = true ∧
    (t.pin n).lost = true ∧ t.fd.reports = s.fd.reports ++ [⟨n, 9, s.now, !(s.pin n).atSafe⟩] ∧
    (∀ m, m ≠ n.val → t.pin m = s.pin m) ∧ { t with pins := s.pins, fd := s.fd } = s)

/-- R8, R10, R23, R246, R457, R536, R539, R541: what a register write and a latching read do, by access code, and what
meets a refused one. -/
def Obligations.RegisterAccesses : Prop :=
  (∀ (s : State) (who : Initiator) (off : BitVec 22) (v : Word), off.toNat < 0x200000 → Writes s who off.toNat v → ∃ t,
    exec (.registerWrite who off v) s = .next t ∧
    (off.toNat = 0x424 → t = s.setReg 0x424 v) ∧
    (off.toNat = 0x414 → (t.reg 0x414) &&& 0x3FF#32 = v &&& 0x3FF#32 ∧ t.reg 0x414 &&& ~~~0x3FF#32 = s.reg 0x414 &&& ~~~0x3FF#32 ∧
      { t with regs := s.regs } = s) ∧
    (off.toNat ∈ [0, 0x180, 0x318, 0x90000] → t = s) ∧
    (off.toNat % 4 = 0 → regAt off.toNat = .none → t = s) ∧
    (∀ i, i < 64 → off.toNat = 0x2000 + 16 * i → t.shadowReg off.toNat = v &&& 0xFFFFFF#32 ∧ { t with shadow := s.shadow } = s) ∧
    (off.toNat = 0x4014 → 76 ≤ v.toNat % 128 → fld (t.reg 0x4014) 6 0 = fld (s.reg 0x4014) 6 0) ∧
    (off.toNat = 0x4014 → v.toNat % 128 < 76 → fld (t.reg 0x4014) 6 0 = v.toNat % 128) ∧
    (off.toNat = 0x508 → initWorld s who = .service → bitOf (t.reg 0x508) 0 = bitOf (s.reg 0x508) 0 ∧
      bitOf (t.reg 0x508) 1 = bitOf v 1)) ∧
  (∀ (s : State) (who : Initiator) (i : Fin 212), Writes s who (islOff i) 8 → exec (.wdogClear who i) s =
    .next (s.modIsland i fun x => { x with wdog := false })) ∧
  (∀ (s : State) (off : BitVec 22) (v : Word), worldCode (regAt off.toNat) = .s → off.toNat % 4 = 0 → s.posted = [] →
    (coreGoes s 65 = true → (s.core 65).hf = false →
      exec (.registerWrite .scV off v) s =
        .next (trap s 65 0x07 5 (s.core 65).pc (BitVec.ofNat 32 (0x20000000 + off.toNat)))) ∧
    (hostPeriod s = 3 → fnServes s 1 = true →
      exec (.registerWrite (.pf 1) off v) s = .next (s.modHostFn 1 fun h => { h with filtered := satInc 0xFFFF h.filtered })) ∧
    (∀ n, (s.sub n.val).attr.world = .service → exec (.registerWrite (.seq n) off v) s = .next s)) ∧
  (∀ (s : State) (n : Fin 64) (off : BitVec 22) (v : Word), coreGoes s n = true → s.posted = [] →
    regRefuses s (.te n) off.toNat v = false → off.toNat % 4 = 0 → (s.te n).held = {} →
    exec (.registerWrite (.te n) off v) s = .next (s.modTe n fun t => { t with held := { regs := [(off.toNat, v)] } })) ∧
  (∀ (s : State) (f : Fin 2) (r : Fin 32), hostPeriod s = 3 → fnServes s f.val = true →
    let p := s.page (f.val * 32 + r.val)
    let stat : BitVec 22 := BitVec.ofNat 22 (0x20000C + 0x1000 * r.val)
    (∃ v : Word, exec (.latchingRead (.pf f) stat) s = .next { s with ans := [v] } ∧ (p.refused < 2 ^ 16 → fld v 15 0 = p.refused) ∧
      bitOf v 16 = p.seen ∧ (bitOf v 17 = true ↔ (s.reach r.val).reqs ≠ []) ∧ fld v 31 18 = 0) ∧
    (∀ v : Word, s.posted = [] → Unswept s → exec (.registerWrite (.pf f) stat v) s =
      .next (if bitOf v 16 = true then s.modPage (f.val * 32 + r.val) fun _ => { refused := 0, seen := false } else s)) ∧
    ∀ (o : Fin 0x1000) (v : Word), 0x10 ≤ o.val → o.val % 4 = 0 → s.posted = [] → Unswept s →
      let off : BitVec 22 := BitVec.ofNat 22 (0x200000 + 0x1000 * r.val + o.val)
      exec (.latchingRead (.pf f) off) s = .next { s with ans := [0] } ∧ exec (.registerWrite (.pf f) off v) s = .next s) ∧
  ∀ (s : State) (who : Initiator), Reaches s who ∨ (∃ n, who = .te n ∧ coreGoes s n = true) →
    (∃ t, exec (.latchingRead who 0x90000) s = .next t ∧ t.ans = [s.now.setWidth 32] ∧
      { t with ans := s.ans, latch := s.latch } = s ∧
      ∀ u, Reaches u who ∨ (∃ n, who = .te n ∧ coreGoes u n = true) → u.latch = t.latch →
        exec (.latchingRead who 0x90004) u = .next { u with ans := [(s.now >>> 32).setWidth 32] }) ∧
    (s.latch = [] → exec (.latchingRead who 0x90004) s = .next { s with ans := [0] })

/-- R82 to R87, R125: the five operations by the state of their subchannel: what is accepted and what it leads to, and what
is rejected under its own tag with nothing else changed. -/
def Obligations.OperationResults : Prop :=
  ∀ (s : State) (o : Op),
    let n := o.sub
    let b := s.sub n
    let k := ringOfQueue s o.queue
    let csw (code : Nat) (u : State) : Csw := { cswSub u n with tag := o.tag, op := code }
    let room : Prop := b.held.length < 2 ∧ b.toCreate = []
    b.attr.valid = true → s.posted = [] → b.st ≠ .fenced → clearWindow b = false → ownerGone s n = false →
    (∀ m, (s.sub m).prog.phase ≠ .sampling) →
    (inTurn s o 1 = false → exec (.start o) s = .next s) ∧ (inTurn s o 2 = false → exec (.resume o) s = .next s) ∧
    (inTurn s o 3 = false → exec (.halt o) s = .next s) ∧ (inTurn s o 4 = false → exec (.clear o) s = .next s) ∧
    (inTurn s o 5 = false → exec (.cancel o) s = .next s) ∧
    (b.st ≠ .idle → b.held.length = 2 → RingWaits s k → exec (.start o) s = .next s) ∧
    (inTurn s o 1 = true → b.st = .idle → b.attr.movable = false ∨ ownerOut s n = false → ∃ t, exec (.start o) s = .next t ∧
      (t.sub n).st = .startPending ∧ (t.sub n).pend = some { o with code := 1 } ∧ (t.sub n).wmark = s.now ∧
      (t.sub n).lastQ = some o.queue ∧ (t.sub n).gen = b.gen ∧ (t.sub n).attr = b.attr ∧ (t.sub n).held = b.held ∧
      (∀ m, m ≠ n → t.sub m = s.sub m) ∧ { t with subs := s.subs, q := s.q } = s) ∧
    (inTurn s o 1 = true → b.st ≠ .idle → room → exec (.start o) s = .next (drain (postCsw (arrive s o 1) n k { csw 1 s with dstat := 0x10 }))) ∧
    (inTurn s o 2 = true → b.st = .suspended → ∃ t, exec (.resume o) s = .next t ∧ (t.sub n).st = .resumePending ∧ (t.sub n).wmark = s.now ∧
      (t.sub n).pend = some { o with code := 2 } ∧ (t.sub n).prog = b.prog ∧ (∀ m, m ≠ n → t.sub m = s.sub m) ∧
      { t with subs := s.subs, q := s.q } = s) ∧
    (inTurn s o 2 = true → b.st = .idle → room →
      exec (.resume o) s = .next (drain (postCsw (arrive s o 2) n k { csw 2 s with cstat := 4, detail := 0x0701 }))) ∧
    (inTurn s o 2 = true → b.st ≠ .idle → b.st ≠ .suspended → room →
      exec (.resume o) s = .next (drain (postCsw (arrive s o 2) n k { csw 2 s with dstat := 0x10 }))) ∧
    (inTurn s o 3 = true → b.st = .idle ∨ b.st = .haltPending ∨ b.st = .statusPending → room →
      exec (.halt o) s = .next (drain (stopSamples (postCsw (arrive s o 3) n k { csw 3 s with cstat := 4, detail := 0x0701 })))) ∧
    (inTurn s o 3 = true → b.st = .active → b.prog.phase = .onCore → exec (.halt o) s =
      .next ((arrive s o 3).modSub n fun b => { b with st := .haltPending, halt := some ⟨3, o.tag, o.queue⟩ })) ∧
    (inTurn s o 3 = true → b.st = .active → b.prog.phase = .fetch → b.prog.prev.dstat % 4 = 0 → b.prog.cstat = 0 → b.cue = false →
      b.prog.committed = false → HoldsNone s n →
      RingWaits s k → RingWaits s (ringOfQueue s b.prog.op.queue) → ∃ t x y, exec (.halt o) s = .next t ∧
      (t.sub n).st = .statusPending ∧ (t.sub n).prog.phase = .none ∧
      (t.sub n).held = [⟨ringOfQueue s b.prog.op.queue, { cswPrev s n with detail := 0x0703 }, x⟩,
        ⟨k, csw 3 s, y⟩]) ∧
    (inTurn s o 4 = true → b.st = .idle → b.genDue = [] → b.genAt = none → HoldsNone s n → RingWaits s k → ∃ t x, exec (.clear o) s = .next t ∧
      (t.sub n).gen = b.gen + 1 ∧ (t.sub n).genAt = some s.now ∧ (t.sub n).aslot = 0 ∧ (t.sub n).st = .statusPending ∧
      (t.sub n).held = [⟨k, { csw 4 s with gen := (b.gen + 1).toNat }, x⟩]) ∧
    (inTurn s o 4 = true → b.st = .active → b.prog.committed = true → b.prog.phase ≠ .deviceEnd → ∃ t, exec (.clear o) s = .next t ∧
      (t.sub n).st = .active ∧ (t.sub n).clear = b.clear ++ [⟨4, o.tag, o.queue⟩] ∧ (t.sub n).prog = b.prog ∧ (t.sub n).gen = b.gen ∧
      (∀ m, m ≠ n → t.sub m = s.sub m)) ∧
    (inTurn s o 4 = true → b.st = .active → b.prog.phase = .fetch → b.prog.committed = false → b.genDue = [] → b.genAt = none → HoldsNone s n →
      b.prog.direct = [] → b.prog.prev.dstat % 4 = 0 → b.prog.cstat = 0 → b.cue = false →
      RingWaits s k → RingWaits s (ringOfQueue s b.prog.op.queue) → ∃ t x y, exec (.clear o) s = .next t ∧
      (t.sub n).gen = b.gen + 1 ∧ (t.sub n).prog.phase = .none ∧ (t.sub n).st = .statusPending ∧
      (t.sub n).held = [⟨ringOfQueue s b.prog.op.queue, { cswPrev s n with detail := 0x0704 }, x⟩,
        ⟨k, { csw 4 s with gen := (b.gen + 1).toNat }, y⟩]) ∧
    (∀ p, inTurn s o 5 = true → b.st = .startPending → b.pend = some p → HoldsNone s n → RingWaits s k → RingWaits s (ringOfQueue s p.queue) →
      ∃ t x y, exec (.cancel o) s = .next t ∧ (t.sub n).st = .statusPending ∧ (t.sub n).pend = none ∧ (t.sub n).held =
        [⟨ringOfQueue s p.queue, { cswSub s n with tag := p.tag, op := p.code, detail := 0x0702 }, x⟩, ⟨k, csw 5 s, y⟩]) ∧
    (∀ p, inTurn s o 5 = true → b.st = .resumePending → b.pend = some p → HoldsNone s n → RingWaits s k → RingWaits s (ringOfQueue s p.queue) →
      ∃ t, exec (.cancel o) s = .next t ∧ (t.sub n).st = .suspended ∧ (t.sub n).pend = none ∧ (t.sub n).prog = b.prog) ∧
    (inTurn s o 5 = true → b.st ≠ .startPending → b.st ≠ .resumePending → room →
      exec (.cancel o) s = .next (drain (postCsw (arrive s o 5) n k { csw 5 s with cstat := 4, detail := 0x0701 })))

/-- R58, R60, R65 to R68, R72, R79: the commands that the sequencer executes by itself, and what follows a command: the next
CCW, the one after it, or the end of the program. -/
def Obligations.SequencerCommandResults : Prop :=
  ∀ (s : State) (m : Fin 4096),
    let n := m.val
    let b := s.sub n
    let p := b.prog
    let ended (u : State) (dstat detail : Nat) : State := u.modSub n fun b => { b with prog := { b.prog with
      committed := true, ctime := s.now, phase := .deviceEnd, dstat := b.prog.dstat ||| dstat ||| 0x0C, detail := detail } }
    let goesOn : Prop := b.st = .active ∧ b.clear = [] ∧ b.held = [] ∧ s.mig.busy = false ∧
      (s.te b.attr.owner).st ≠ .retiring ∧ p.pre = [] ∧ s.posted = []
    let next (pos : CcwPos) (cnt : Nat) (t : State) : Prop := (t.sub n).prog.pos = pos ∧ (t.sub n).prog.cnt = cnt ∧
      (t.sub n).st = .active ∧ (t.sub n).prog.phase = if chainLimit b < cnt + 1 then .runaway else .fetch
    (Begins s n 0x16 → exec (.nop m) s = .next (ended s 0 0)) ∧
    (Begins s n 0x18 → exec (.signal m) s = .next (ended (raiseEvent s p.cur.arg) 0 0)) ∧
    (∀ u, Begins s n 0x17 → PlainArea p.cur 8 →
      memWriteN s (moverOf n) (areaAt p.cur) (toBytes 8 s.now.toNat) = (u, 8, none) → u.posted = [] → u.sub n = b →
      ∃ t, exec (.mark m) s = .next t ∧ ReachesEnd s t n 0 0 ∧ t.mem = u.mem ∧ t.hostMem = u.hostMem ∧ (t.sub n).prog.resid = 0) ∧
    (∀ u, Begins s n 0x04 → PlainArea p.cur 32 →
      memWriteN s (moverOf n) (areaAt p.cur) (wordsBytes ([pack [(0, 16, b.sense.detail), (16, 8, b.sense.cmd)],
        b.sense.time.setWidth 32, (b.sense.time >>> 32).setWidth 32] ++ padTo 0 5 b.sense.dev)) = (u, 32, none) →
      b.sense.dev.length ≤ 5 → u.posted = [] → u.sub n = b →
      ∃ t, exec (.sense m) s = .next t ∧ ReachesEnd s t n 0 0 ∧ t.mem = u.mem ∧ t.hostMem = u.hostMem ∧ (t.sub n).prog.resid = 0) ∧
    (Begins s n 0x08 → goesOn → ∃ t, exec (.tic m) s = .next t ∧ next (.mem (areaAt p.cur)) p.cnt t ∧
      (t.sub n).prog.afterTic = true ∧ (∀ j, j ≠ n → t.sub j = s.sub j) ∧ { t with subs := s.subs } = s) ∧
    (Begins s n 0x12 → ∃ t, exec (.waitev m) s = .next t ∧ (t.sub n).prog.phase = .waitev ∧ (t.sub n).waitAt = s.now ∧
      (t.sub n).prog.wsrc = (if bitOf p.cur.w2 11 = true then none else some (p.cur.w2.toNat % 2048)) ∧
      (p.cur.param = 0x8005 → (t.sub n).prog.wdead = BitVec.ofNat 64 (s.now.toNat + 50000000)) ∧
      (p.cur.param % 16384 = 0 → (t.sub n).prog.wdead = 0) ∧ { t with subs := s.subs } = s) ∧
    (∀ x a, p.phase = .waitev → p.wsrc = some x → (s.evSrc x).last = some a → b.wmark.toNat ≤ a.toNat → p.cur.pci = false →
      s.posted = [] → ∃ t, exec (.waitevArrival m) s = .next t ∧ ReachesEnd s t n 0x40 0 ∧ (t.sub n).wmark = s.now ∧
      (t.sub n).prog.cnt = 0 ∧ (t.sub n).prog.pre = []) ∧
    (∀ x a, p.phase = .waitev → p.wsrc = some x → (s.evSrc x).last = some a → a.toNat < b.wmark.toNat →
      s.posted = [] → exec (.waitevArrival m) s = .next s) ∧
    (p.phase = .waitev → p.wdead ≠ 0 → p.wdead.toNat ≤ s.now.toNat → p.cur.pci = false → s.posted = [] →
      ∃ t, exec (.waitevTimeout m) s = .next t ∧ ReachesEnd s t n 0 0x0803 ∧ (t.sub n).wmark = s.now ∧
      (t.sub n).prog.cnt = 0) ∧
    (p.phase = .ready → b.resident = true → routineCode p.cur.code = true → s.posted = [] →
      let e := lookupEntry s n p.cur.code
      (entryStageIn e = false → entryStageOut e = false → ∃ t, exec (.routineCommand m) s = .next t ∧
        (t.sub n).prog.phase = .waitCore ∧ (t.te b.attr.owner).waitq = (s.te b.attr.owner).waitq ++ [n] ∧
        (∀ j, j ≠ b.attr.owner → t.te j = s.te j) ∧ { t with subs := s.subs, tes := s.tes } = s) ∧
      (entryValid e = true → entryStageIn e = true → p.cur.aselF < 2 →
        exec (.routineCommand m) s = .next (s.modSub n fun b =>
          { b with mover := b.mover ++ [b.gen.toNat], prog := { b.prog with phase := .staging } }))) ∧
    (p.phase = .deviceEnd → b.resident = true → goesOn → p.cur.cc = true → p.dstat &&& 0x13 = 0 → p.cstat &&& 0x1FBFE#32 = 0 →
      p.cstat.toNat < 131072 → fieldCode p.first.code = false → routineCode p.first.code = false →
      (s.te b.attr.owner).recovWin = 0 → ∃ t, exec (.commandEnd m) s = .next t ∧ { t with subs := s.subs } = s ∧
      next (posPlus p.op p.pos (if p.dstat &&& 0x40 = 0 then 1 else 2)) (if p.moved = true then 0 else p.cnt) t) ∧
    (p.phase = .deviceEnd → RunsFull s n → b.resident = true → b.st = .active → b.clear = [] → p.cur.cc = false →
      b.attr.errSafe = false → b.cue = false → (s.te b.attr.owner).recovWin = 0 → (s.te b.attr.owner).st ≠ .retiring →
      ∃ t, exec (.commandEnd m) s = .next t ∧ EndsWith s t n { cswProg s n with
        cstat := p.cstat ||| (if p.cur.pci = true ∧ p.pciDone = false then 1 else 0), dstat := p.dstat, detail := p.detail,
        resid := p.resid }) ∧
    (p.phase = .runaway → RunsFull s n → b.attr.errSafe = false → b.cue = false → p.dstat = 0 → p.cstat = 0 →
      ∃ t, exec (.runawayChain m) s = .next t ∧
        EndsWith s t n { cswProg s n with cstat := 0x1000, detail := 0x0C01, resid := p.resid })

/-- R74, R80, R104, R143, R563: a subchannel becomes resident; a CCW fetch returns, and the CCW is checked in order; a fetch or a
data access stays without an answer. -/
def Obligations.FetchAndContextResults : Prop :=
  (∀ (s : State) (m : Fin 4096) (o : Op),
    let n := m.val
    let b := s.sub n
    let te := b.attr.owner
    ctxFirst s n = true → b.swapEnd = none → b.pend = some o → s.posted = [] →
    ((s.te te).st = .inService ∨ (s.te te).st = .slow → (s.te te).slots.length < 16 → o.deadline = 0 ∨ s.now.toNat ≤ o.deadline.toNat →
      b.prog.pre = [] → b.prog.cnt + 1 ≤ chainLimit b → ∃ t, exec (.contextGrant m) s = .next t ∧ (t.sub n).st = .active ∧
      (t.sub n).resident = true ∧ (t.sub n).pend = none ∧ (t.sub n).prog.phase = .fetch ∧ (t.sub n).prog.pos = b.prog.pos ∧
      (t.te te).slots = (s.te te).slots ++ [n] ∧ (o.code = 1 → (t.sub n).prog.op = o) ∧
      (∀ j, j ≠ n → t.sub j = s.sub j) ∧ { t with subs := s.subs, tes := s.tes } = s) ∧
    ((s.te te).st = .inService → (s.te te).slots.length < 16 → b.st = .resumePending → o.deadline ≠ 0 → o.deadline.toNat < s.now.toNat → HoldsNone s n →
      RingWaits s (ringOfQueue s o.queue) →
      ∃ t x, exec (.contextGrant m) s = .next t ∧ (t.sub n).st = .suspended ∧
      (t.sub n).pend = none ∧
      (t.sub n).held = [⟨ringOfQueue s o.queue, { cswSub s n with tag := o.tag, op := o.code, detail := 0x0702 }, x⟩])) ∧
  (∀ (s u : State) (m : Fin 4096) (a : Addr) (bs : List Byte),
    let n := m.val
    let b := s.sub n
    let c := ccwOfBytes bs
    b.prog.phase = .fetch → b.resident = true → b.prog.pos = .mem a → s.vote.rejoin.holdSub ≠ some n → memRead s (seqOf n) a 16 = (u, .ok bs) →
    u.subs = s.subs → u.q = s.q → u.now = s.now → u.posted = [] → s.posted = [] →
    let checked : Prop := b.attr.world = .service ∧ b.attr.chkEn = false ∨ c.chk = ccwCheck c n b.attr.world
    let endsWith (cstat : Word) (dstat detail : Nat) : Prop := ∃ t, exec (.ccwFetchComplete m) s = .next t ∧
      EndsWith s t n { cswProg s n with cstat := cstat, dstat := dstat, detail := detail, resid := wholeCount c }
    (c.code = 0x16 → c.w2 = 0 → c.param = 0 → c.sus = false → c.vot = false → c.skp = false → checked →
      ∃ t, exec (.ccwFetchComplete m) s = .next t ∧ (t.sub n).prog.phase = .ready ∧ (t.sub n).prog.cur = c ∧
        (t.sub n).prog.cnt = b.prog.cnt + 1 ∧ (t.sub n).prog.resid = 0 ∧ (t.sub n).st = b.st ∧ { t with subs := s.subs } = { u with subs := s.subs }) ∧
    (RunsFull s n → RunsFull u n → b.attr.errSafe = false → b.cue = false → b.prog.dstat = 0 → b.prog.cstat = 0 → c.sus = false →
      (¬checked → endsWith 4 0 0x0104) ∧
      (checked → 4 ≤ c.aselF → endsWith 4 0 0x0101) ∧
      (checked → c.aselF < 4 → knownCode c.code = false → endsWith 0 2 0x0201) ∧
      (checked → c.aselF < 4 → c.code = 0x08 → c.dataAddr % 16 ≠ 0 → endsWith 4 0 0x0105) ∧
      (checked → c.aselF < 4 → c.code = 0x08 → c.dataAddr % 16 = 0 → b.prog.afterTic = true → endsWith 4 0 0x0103) ∧
      (checked → c.aselF < 4 → c.code = 0x16 → c.skp = true → endsWith 4 0 0x0107) ∧
      (checked → c.code = 0x17 → c.vot = false → c.skp = false → c.aselF = 2 → endsWith 4 0 0x010C) ∧
      (checked → c.code = 0x17 → c.vot = false → c.skp = false → c.aselF < 2 → c.ida = false → c.arg ≠ 0 → endsWith 4 0 0x0108) ∧
      (checked → c.code = 0x17 → c.vot = false → c.skp = false → c.aselF < 2 → c.ida = false → c.arg = 0 → c.param = 0 →
        c.count = 0 → endsWith 4 0 0x0106))) ∧
  ∀ (s : State) (m : Fin 4096) (a : Addr),
    let n := m.val
    let b := s.sub n
    RunsFull s n → b.resident = true → b.attr.errSafe = false → b.cue = false → b.prog.dstat = 0 → b.prog.cstat = 0 →
    let cto := (s.hostFn (if b.attr.world = .safety then 0 else 1)).cto
    let limit (asel : Nat) : Nat := if asel ≠ 0 then 10000
      else if cto = 1 then 80000 else if cto = 2 then 8000000 else if cto = 6 then 160000000 else 40000000
    (b.prog.phase = .fetch → b.prog.pos = .mem a → b.prog.askAt.toNat ≤ s.now.toNat → s.now.toNat < b.prog.askAt.toNat + limit a.asel →
      exec (.ccwFetchTimeout m) s = .next s) ∧
    (b.prog.phase = .fetch → b.prog.pos = .mem a → b.prog.askAt.toNat + limit a.asel ≤ s.now.toNat → ∃ t, exec (.ccwFetchTimeout m) s = .next t ∧ EndsWith s t n
      { cswProg s n with cstat := 0x20, detail := if a.asel = 0 then 0x0502 else 0x0501, resid := b.prog.resid }) ∧
    (∀ moved, b.prog.phase = .exchange → b.prog.cmdAt.toNat + limit b.prog.cur.aselF ≤ s.now.toNat → b.prog.first.code = 0x01 → PlainArea b.prog.cur b.prog.cur.count → b.prog.cur.pci = false →
      moved.length ≤ b.prog.cur.count →
      ∃ t, exec (.dataAccessTimeout m moved) s = .next t ∧ EndsWith s t n { cswProg s n with
        cstat := 0x20, detail := if b.prog.cur.aselF = 0 then 0x0504 else 0x0503, resid := b.prog.cur.count - moved.length })

/-- R49, R314 to R316: WRITE, READ and CONTROL hand a request to the link of the bound satellite, or end with an interface check
while its position is not ONLINE. R62, R63: ARCHIVE takes its payload; FETCHSTORE reads its descriptors and issues its first
reads. -/
def Obligations.LinkAndStoreCommandResults : Prop :=
  ∀ (s : State) (m : Fin 4096) (k p : Nat),
    let n := m.val
    let b := s.sub n
    let c := b.prog.cur
    let ask (ty : Nat) (payload : List Byte) : Exchange := {
      kind := .sub n, pos := p, ty := ty, gen := b.gen.toNat, arg := b.prog.first.arg, param := b.prog.first.param,
      payload := payload }
    let asked (t : State) (ty : Nat) (payload : List Byte) (done : Bool) : Prop := (t.sub n).prog.phase = .exchange ∧
      (t.bk k).waiting = (s.bk k).waiting ++ [ask ty payload] ∧ (∀ j, j ≠ k → t.bk j = s.bk j) ∧
      (t.sub n).prog.committed = done ∧ (t.sub n).st = b.st ∧ t.mem = s.mem
    let reads (u : State) (len : Nat) (bs : List Byte) : Prop := PlainArea c len ∧ c.aselF < 2 ∧ 0 < len ∧
      memReadN u (moverOf n) (areaAt c) len = (u, bs, none) ∧ bs.length = len
    (bindSat b.attr.binding = some (k, p) → bkPosSt s k p = .online → b.prog.committed = false →
      (∀ len bs, Begins s n 0x01 → reads (startSnap s n) len bs → len ≤ 256 →
        ∃ t, exec (.write m) s = .next t ∧ asked t 0x10 bs true ∧ (t.sub n).prog.resid = 0) ∧
      (Begins s n 0x02 → ∃ t, exec (.read m) s = .next t ∧ asked t 0x12 [] false) ∧
      (Begins s n 0x03 → 0x100 ≤ c.arg ∨ c.arg = 2 ∨ c.arg = 3 → c.count = 0 → c.ida = false →
        ∃ t, exec (.control m) s = .next t ∧ asked t 0x14 [] true)) ∧
    (bindSat b.attr.binding = some (k, p) → bkPosSt s k p ≠ .online → Begins s n 0x02 → RunsFull s n → b.attr.errSafe = false →
      b.cue = false → b.prog.dstat = 0 → b.prog.cstat = 0 → ∃ t, exec (.read m) s = .next t ∧
      EndsWith s t n { cswProg s n with cstat := 0x40, detail := 0x0901, resid := b.prog.resid }) ∧
    (∀ len, Begins s n 0x14 → arState s (c.arg % 256) = 2 → PlainArea c len → 0 < len → len ≤ 16777216 →
      (bitOf c.w2 8 = false → ∃ t, exec (.archive m) s = .next t ∧ (t.sub n).prog.phase = .archive ∧
        (t.sub n).prog.work = { ring := c.arg % 256, t0 := s.now, olen := len, unread := true, arr := s.silt.stamp } ∧
        (t.sub n).prog.dstat = b.prog.dstat ∧ t.mem = s.mem) ∧
      (∀ bs, bitOf c.w2 8 = true → reads (startSnap s n) len bs → ∃ t, exec (.archive m) s = .next t ∧
        (t.sub n).prog.phase = .archive ∧ (t.sub n).prog.dstat = b.prog.dstat ||| 8 ∧ (t.sub n).prog.resid = 0 ∧
        (t.sub n).prog.work = { ring := c.arg % 256, t0 := s.now, olen := len, raw := bs, kind := siftKind c, arr := s.silt.stamp } ∧
        t.mem = s.mem)) ∧
    (∀ bs, Begins s n 0x15 → b.st = .active → reads s 32 bs → bitOf (wordAt bs 1) 16 = true → fld (wordAt bs 1) 31 18 = 0 →
      fld (wordAt bs 3) 31 17 = 0 → wordAt bs 7 = 0 → (wordAt bs 0).toNat % 4096 = 0 → (wordAt bs 4).toNat % 4096 = 0 →
      4096 ≤ (wordAt bs 4).toNat →
      extFault s b.attr.world false true ((wordAt bs 0).toNat + 2 ^ 32 * fld (wordAt bs 1) 15 0) ((wordAt bs 4).toNat / 4096) = none →
      bounceFits s ((wordAt bs 4).toNat / 4096) = true →
      (∀ x ∈ cutRuns ((wordAt bs 4).toNat / 4096) s ((wordAt bs 0).toNat + 2 ^ 32 * fld (wordAt bs 1) 15 0) 0
        ((wordAt bs 4).toNat / 4096), (s.drv x.1).st = .ready) →
      ∃ t, exec (.fetchstore m) s = .next t ∧ (t.sub n).prog.phase = .fetching ∧ (t.sub n).prog.work.begun = true ∧
        s.silt.nv.length < t.silt.nv.length ∧ t.silt.nv.take s.silt.nv.length = s.silt.nv ∧
        (∀ x ∈ t.silt.nv.drop s.silt.nv.length, x.use = .fetch n b.gen.toNat ∧ x.write = false ∧ x.done = false) ∧
        t.mem = s.mem) ∧
    (∀ len, Begins s n 0x15 → PlainArea c len → 0 < len → len % 32 ≠ 0 → RunsFull s n → b.attr.errSafe = false →
      b.cue = false → b.prog.dstat = 0 → b.prog.cstat = 0 → b.prog.phase = .ready → ∃ t, exec (.fetchstore m) s = .next t ∧
      EndsWith s t n { cswProg s n with cstat := 4, detail := 0x0106, resid := len })

/-- R52 to R57, R61, R67, R153, R177, R185, R566: DRIVE, PROVE and SAMPLE by their built-in routines: the data area is read
before the request for the core, and on the core the routine makes its output writes, its results, its captures. -/
def Obligations.FieldCommandResults : Prop :=
  ∀ (s : State) (m : Fin 4096),
    let n := m.val
    let b := s.sub n
    let c := b.prog.cur
    let te := b.attr.owner
    let w := b.prog.work
    let queued (t : State) : Prop := (t.sub n).prog.phase = .waitCore ∧ (t.te te).waitq = (s.te te).waitq ++ [n] ∧
      (t.sub n).st = b.st ∧ t.mem = s.mem
    let left (t : State) : Prop := (t.te te).running = none ∧ (t.sub n).st = b.st
    (∀ (len : Nat) (bs : List Byte), PlainArea c len → c.aselF < 2 → 0 < len →
      memReadN s (moverOf n) (areaAt c) len = (s, bs, none) →
      (Begins s n 0x10 → len % 4 = 0 → len ≤ 4096 → entryValid (lookupEntry s n 0x10) = false →
        ∃ t, exec (.drive m) s = .next t ∧ queued t ∧ (t.sub n).prog.work.bytes = bs) ∧
      (Begins s n 0x11 → len % 8 = 0 → len ≤ 768 → b.prog.first.param ≤ 1024 → entryValid (lookupEntry s n 0x11) = false →
        ∃ t, exec (.prove m) s = .next t ∧ queued t ∧ (t.sub n).prog.work.bytes = bs ∧ (t.sub n).prog.work.begun = false)) ∧
    (∀ len, Begins s n 0x13 → PlainArea c len → c.aselF < 2 → len % 2 = 0 → 10 ≤ len → entryValid (lookupEntry s n 0x13) = false →
      ∃ t, exec (.sample m) s = .next t ∧ queued t ∧ (t.sub n).prog.work.left = (len - 8) / 2) ∧
    (∀ (pin v : Nat), builtinRuns s n 0x10 = true → w.bytes = toBytes 4 (pin + 65536 * v) → pin < 96 → v ≤ 1 →
      pinMode s pin = 5 ∨ pinMode s pin = 6 → pinOwner s pin = some n → b.st = .active → (s.te te).held = {} →
      (s.te te).stageOut = false → (s.te te).fiOvf = false → s.posted = [] →
      (b.attr.world = .safety ∨ pinSafety s pin = false → v = (pinSafeValue s pin).toNat ∨ (b.prog.first.vot = true ∧
          voteMode s = 0 ∧ s.cu.safeOnly = false ∧ s.unprov = false) →
        ∃ t, exec (.drive m) s = .next t ∧ left t ∧ (t.sub n).prog.phase = .commitReq ∧
          (t.sub n).prog.held = { outs := [(pin, v)] } ∧ t.pins = s.pins) ∧
      (b.attr.world = .service → pinSafety s pin = true → RunsFull s n → b.attr.errSafe = false → b.cue = false →
        b.prog.cur.pci = false → b.prog.direct = [] → (s.te te).st ≠ .retiring →
        ∃ t, exec (.drive m) s = .next t ∧ t.pins = s.pins ∧ EndsWith s t n { cswProg s n with
          dstat := b.prog.dstat, cstat := b.prog.cstat ||| 8, detail := 0x0403, resid := b.prog.resid }) ∧
      (b.attr.world = .safety → v ≠ (pinSafeValue s pin).toNat → b.prog.first.vot = false → RunsFull s n →
        b.attr.errSafe = false → b.cue = false → b.prog.cur.pci = false →
        b.prog.direct = [] → ∃ t, exec (.drive m) s = .next t ∧ t.pins = s.pins ∧ EndsWith s t n { cswProg s n with
          dstat := b.prog.dstat, cstat := b.prog.cstat ||| 4, detail := 0x0109, resid := b.prog.resid })) ∧
    (∀ (u : State) (it : ProveItem) (v : Int) (g : Seg), builtinRuns s n 0x11 = true → w.begun = true → w.prove = [it] →
      it.n = w.interval → 0 < it.n → it.qty = 0 → 2 * (4 * it.n * v - 5 * it.sum).natAbs < 4 * it.n → -32768 ≤ v → v ≤ 32767 →
      w.segs = [g] → 4 ≤ g.len → g.skp = false → memWriteN s (moverOf n) { asel := g.asel, addr := g.addr } (toBytes 4 (setFld (setBit (wordAt w.bytes 0) 7
        (decide (v < it.low ∨ it.high < v))) 31 16 (v % 65536).toNat).toNat) = (u, 4, none) → u.sub n = b → u.tes = s.tes →
      u.posted = [] → g.asel < 2 → w.bytes.length = 8 → b.prog.first.arg % 2 = 0 → b.st = .active → (s.te te).held = {} → (s.te te).fiOvf = false →
      (s.te te).stageOut = false → s.posted = [] → ∃ t, exec (.prove m) s = .next t ∧ left t ∧ t.mem = u.mem ∧
        (t.sub n).prog.phase = .commitReq ∧
        (t.sub n).prog.dstat = b.prog.dstat ||| (if v < it.low ∨ it.high < v then 0 else 0x40)) ∧
    (builtinRuns s n 0x13 = true → b.prog.first.arg % 128 < 96 → scanned s (b.prog.first.arg % 128) = true → s.posted = [] →
      b.prog.first.aselF < 2 → ∃ t, exec (.sample m) s = .next t ∧ left t ∧ (t.sub n).prog.phase = .sampling ∧
        (t.sub n).prog.work.pin = b.prog.first.arg % 128 ∧ (t.sub n).prog.work.interval = b.prog.first.param ∧
        (t.sub n).prog.work.left = w.left ∧ t.mem = s.mem)

/-- R24 to R26, R80, R81, R388 to R390, R396, R449, R455, R459, R469: the accesses that the units of the device make, within one
page: bytes read, bytes stored, tags cleared, and what they meet instead. -/
def Obligations.MemoryAccesses : Prop :=
  ∀ (s : State) (who : Initiator) (a len : Nat) (bs : List Byte), MemOk s → 0 < len → a % 4096 + len ≤ 4096 → bs.length = len →
    let dev : Addr := { asel := 1, addr := a }
    let host : Addr := { asel := 0, addr := a }
    let w := initWorld s who
    let check (k : Acc) : State × Bool := leveeCheck s who w .e k (rgnNow s) a
    let meets (x : Addr) (u v : State) (e : MemErr) : Prop := memRead s who x len = (u, .error e) ∧ memWriteN s who x bs = (v, 0, some e)
    (2 ^ 36 ≤ a → meets dev s s .unmapped) ∧
    (a < 2 ^ 36 → placeOf s a = .nowhere → meets dev s s .unmapped) ∧
    (a < 2 ^ 36 → placeOf s a ≠ .nowhere → placeOf s a ≠ .regs → who ≠ .device →
      ((check .read).2 = true → ueHit s a len = none →
        memRead s who dev len = (s, .ok ((List.range len).map fun i => cellGet s.mem (a + i)))) ∧
      ((check .read).2 = false → memRead s who dev len = ((check .read).1, .error .refused)) ∧
      ((check .read).2 = true → ∀ g, ueHit s a len = some g → ∃ u, memRead s who dev len = (u, .error .uncorrectable) ∧
        u.memErrs.ueCount = satInc 255 s.memErrs.ueCount ∧ u.mem = s.mem) ∧
      ((check .write).2 = true → uePart s a len = none → ∃ t, memWriteN s who dev bs = (t, len, none) ∧ MemOk t ∧
        (∀ i, i < len → cellGet t.mem (a + i) = nth 0 bs i) ∧ (∀ b, b < a ∨ a + len ≤ b → cellGet t.mem b = cellGet s.mem b) ∧
        (∀ g, g ∈ t.tags ↔ g ∈ s.tags ∧ (g + 16 ≤ a ∨ a + len ≤ g)) ∧
        { t with mem := s.mem, tags := s.tags, ue := s.ue, cores := s.cores, tes := s.tes, subs := s.subs, vote := s.vote } = s) ∧
      ((check .write).2 = false → memWriteN s who dev bs = ((check .write).1, 0, some .refused) ∧ (check .write).1.mem = s.mem)) ∧
    (bitOf (s.reg 0x800) 0 = false → meets host s s .unmapped) ∧
    (bitOf (s.reg 0x800) 0 = true → mayIssue s (worldFn w) = false → meets host s s .urca) ∧
    (bitOf (s.reg 0x800) 0 = true → mayIssue s (worldFn w) = true →
      memRead s who host len = (s, .ok ((List.range len).map fun i => cellGet s.hostMem (a + i))) ∧
      ∃ t, memWriteN s who host bs = (t, len, none) ∧ MemOk t ∧ { t with hostMem := s.hostMem } = s ∧
        (∀ i, i < len → cellGet t.hostMem (a + i) = nth 0 bs i) ∧
        ∀ b, b < a ∨ a + len ≤ b → cellGet t.hostMem b = cellGet s.hostMem b)

/-- R536: an offset that names no register reads 0 and ignores writes, whoever the initiator; such an access raises no
exception and no error, and is not counted. -/
def Obligations.UnnamedOffsets : Prop :=
  (∀ (s : State) (who : Initiator) (off : BitVec 22) (v : Word), off.toNat < 0x200000 → regAt off.toNat = .none → off.toNat % 4 = 0 →
    regRefuses s who off.toNat v = false ∧ readRefused s who (regAt off.toNat) = false ∧ refuseCount s who off.toNat v = s ∧
    regEffect s who off.toNat v = s ∧ readReg s who off.toNat = (s, 0) ∧
    (Reaches s who → s.posted = [] → exec (.registerWrite who off v) s = .next s) ∧
    (Reaches s who → exec (.latchingRead who off) s = .next { s with ans := [0] }) ∧
    ∀ n, who = .te n → coreGoes s n = true → s.posted = [] → (s.te n).held = {} →
      exec (.latchingRead who off) s = .next { s with ans := [0] } ∧
      exec (.registerWrite who off v) s = .next (s.modTe n fun t => { t with held := { regs := [(off.toNat, v)] } })) ∧
  (∀ o, 0xD0000 ≤ o → o < 0x200000 → regAt o = .none) ∧
  (∀ o, 0x41800 ≤ o → o < 0x42000 → regAt o = .none) ∧
  (∀ n o, n < 96 → o ∈ [0x30, 0x34, 0x38, 0x3C] → regAt (0x40000 + 0x40 * n + o) = .none) ∧
  (∀ k, 66 ≤ k → k < 76 → regAt (0x600 + 4 * k) = .none)

/-- R89, R117, R120, R128: a CSW is written at its ring's tail, is held, or is discarded; the words of a CSW. -/
def Obligations.CswPosts : Prop :=
  (∀ (s : State) (n k : Nat) (c : Csw),
    let g := s.ring k
    let b := s.sub n
    (g.st = .disabled → ∃ t, postCsw s n k c = t ∧ (t.ring k).dropped = Nat.min 255 (g.dropped + 1) ∧ t.sub n = b ∧ t.mem = s.mem ∧
      (∀ j, j ≠ k → t.ring j = s.ring j) ∧ (0 < g.dropped → { t with q := s.q } = s)) ∧
    (RingWaits s k ∨ g.st = .fenced → ∃ t, postCsw s n k c = t ∧ (t.sub n).st = b.st ∧ (t.sub n).prog = b.prog ∧
      (b.held.length < 2 → b.toCreate = [] → (t.sub n).held = b.held ++ [⟨k, c, s.q.stamp⟩] ∧ (t.sub n).toCreate = []) ∧
      (2 ≤ b.held.length ∨ b.toCreate ≠ [] → (t.sub n).held = b.held ∧ (t.sub n).toCreate = b.toCreate ++ [⟨k, c, s.q.stamp⟩]) ∧
      (∀ j, j ≠ n → t.sub j = s.sub j) ∧ { t with subs := s.subs, q := s.q } = s ∧ { t.q with stamp := s.q.stamp } = s.q) ∧
    (g.st = .enabled → ringFull g = false → (∀ h ∈ b.held ++ b.toCreate, h.ring ≠ k) → ∀ u,
      memWriteN s (.commit g.desc.world) { g.desc.base with addr := g.desc.base.addr + 32 * g.tail } (wordsBytes (cswWords c)) =
        (u, 32, none) → u.q = s.q → u.now = s.now → ∃ t, postCsw s n k c = t ∧ { t with q := u.q } = u ∧ t.q.sq = s.q.sq ∧
        (∀ j, j ≠ k → t.ring j = s.ring j) ∧
        t.ring k = { g with tail := (g.tail + 1) % 2 ^ g.desc.log2, unsig := g.unsig ++ [s.now], uncov := g.uncov + 1 })) ∧
  ∀ c : Csw, c.sub < 4096 → c.reach < 32 → c.gen < 16 → c.kind < 256 → c.tag < 65536 → c.dstat < 256 → c.op < 256 →
    c.detail < 65536 → c.ccwa.addr < 2 ^ 48 → c.ccwa.asel < 16 →
    let w (i : Nat) : Word := nth 0 (cswWords c) i
    (cswWords c).length = 8 ∧ fld (w 0) 11 0 = c.sub ∧ fld (w 0) 16 12 = c.reach ∧ fld (w 0) 20 17 = c.gen ∧
    (bitOf (w 0) 21 = true ↔ c.world = .service) ∧ fld (w 0) 31 24 = c.kind ∧ fld (w 1) 15 0 = c.tag ∧ fld (w 1) 23 16 = c.dstat ∧
    fld (w 1) 31 24 = c.op ∧ w 2 = c.cstat ∧ fld (w 3) 15 0 = Nat.min c.resid 0xFFFF ∧ fld (w 3) 31 16 = c.detail ∧
    (w 4).toNat + 2 ^ 32 * fld (w 5) 15 0 = c.ccwa.addr ∧ fld (w 5) 19 16 = c.ccwa.asel ∧
    (w 6).toNat + 2 ^ 32 * (w 7).toNat = c.time.toNat

/-- R105, R107, R109, R111, R112, R119: doorbells and the index reads they cause. -/
def Obligations.DoorbellCommands : Prop :=
  (∀ (s : State) (f : Fin 2) (page : Fin 32) (k : Fin 1024) (aligned : Bool), hostPeriod s = 3 → fnServes s f.val = true →
    let w : World := if f.val = 0 then .safety else .service
    let q := s.sq k.val
    let g := s.ring k.val
    let refused : State := s.modPage (f.val * 32 + page.val) fun p => { refused := Nat.min 0xFFFF (p.refused + 1), seen := true }
    exec (.dbellSq f page k aligned) s = .next (if aligned = true ∧ q.st = .enabled ∧ q.desc.reach = page.val ∧ q.desc.world = w
      then s.modSq k.val fun x => { x with reading := true, again := x.reading || x.again, readAt := if x.reading = true then x.readAt else s.now } else refused) ∧
    exec (.dbellCq f page k aligned) s = .next (if aligned = true ∧ g.st = .enabled ∧ g.desc.reach = page.val ∧ g.desc.world = w
      then s.modRing k.val fun x => { x with reading := true, again := x.reading || x.again, readAt := if x.reading = true then x.readAt else s.now } else refused)) ∧
  (∀ (s : State) (c : Fin 66) (k : Fin 1024), 64 ≤ c.val → coreGoes s c.val = true → s.posted = [] →
    let w : World := if c.val = 64 then .safety else .service
    let q := s.sq k.val
    let g := s.ring k.val
    (q.st = .enabled → q.desc.world = w → exec (.dbellCoreSq c k) s =
      .next (s.modSq k.val fun x => { x with reading := true, again := x.reading || x.again, readAt := if x.reading = true then x.readAt else s.now })) ∧
    (g.st = .enabled → g.desc.world = w → exec (.dbellCoreCq c k) s =
      .next (s.modRing k.val fun x => { x with reading := true, again := x.reading || x.again, readAt := if x.reading = true then x.readAt else s.now })) ∧
    (q.st ≠ .enabled ∨ q.desc.world ≠ w → exec (.dbellCoreSq c k) s =
      .next (trap s c.val 0x07 5 (s.core c.val).pc 0x200C0100)) ∧
    (g.st ≠ .enabled ∨ g.desc.world ≠ w → exec (.dbellCoreCq c k) s =
      .next (trap s c.val 0x07 5 (s.core c.val).pc 0x200C0104))) ∧
  ∀ (s : State) (k : Fin 1024) (bs : List Byte),
    let q := s.sq k.val
    let g := s.ring k.val
    let v := (wordAt bs 0).toNat
    (q.st = .enabled → q.reading = true → memRead s (.queue q.desc.world) q.desc.tailA 4 = (s, .ok bs) → v < 2 ^ q.desc.log2 →
      exec (.tailIndexReadComplete k) s = .next (s.modSq k.val fun x => { x with tail := v, reading := x.again, again := false, readAt := s.now })) ∧
    (g.st = .enabled → g.reading = true → memRead s (.queue g.desc.world) g.desc.headA 4 = (s, .ok bs) → v < 2 ^ g.desc.log2 →
      exec (.headIndexReadComplete k) s =
        .next (s.modRing k.val fun x => { x with head := v, reading := x.again, again := false, readAt := s.now })) ∧
    (g.st = .enabled → g.reading = true → memRead s (.queue g.desc.world) g.desc.headA 4 = (s, .ok bs) → 2 ^ g.desc.log2 ≤ v →
      ∃ t, exec (.headIndexReadComplete k) s = .next t ∧ (t.ring k.val).st = .error ∧ (t.ring k.val).err = 2 ∧
        (∀ j, j ≠ k.val → t.ring j = s.ring j) ∧ t.q.sq = s.q.sq ∧ t.mem = s.mem) ∧
    (g.st ≠ .enabled → exec (.headIndexReadComplete k) s = .next s) ∧ (q.st ≠ .enabled → exec (.tailIndexReadComplete k) s = .next s)

/-- R109: a tail index read of S or more, or with a non-zero bits [31:16], puts the queue in ERROR; a tail that has wrapped
past head reads as fewer entries. -/
def Obligations.TailIndexOutOfRange : Prop :=
  ∀ (s : State) (k : Fin 1024) (bs : List Byte),
    let q := s.sq k.val
    q.st = .enabled → q.reading = true → memRead s (.queue q.desc.world) q.desc.tailA 4 = (s, .ok bs) → q.desc.log2 ≤ 16 →
    (2 ^ q.desc.log2 ≤ fld (wordAt bs 0) 15 0 ∨ fld (wordAt bs 0) 31 16 ≠ 0 → ∃ t, exec (.tailIndexReadComplete k) s = .next t ∧
      (t.sq k.val).st = .error ∧ (t.sq k.val).err = 2 ∧ (t.sq k.val).head = q.head ∧ (t.sq k.val).tail = q.tail ∧
      (∀ j, j ≠ k.val → t.sq j = s.sq j) ∧ t.q.cq = s.q.cq ∧ (t.evSrc 1223).count ≠ 0) ∧
    (fld (wordAt bs 0) 15 0 < 2 ^ q.desc.log2 → fld (wordAt bs 0) 31 16 = 0 → ∃ t, exec (.tailIndexReadComplete k) s = .next t ∧
      (t.sq k.val).st = .enabled ∧ (q.issued = [] → q.head < 2 ^ q.desc.log2 →
        available (t.sq k.val) = (fld (wordAt bs 0) 15 0 + 2 ^ q.desc.log2 - q.head) % 2 ^ q.desc.log2))

/-- R99 to R102, R110, R113 to R115, R117, R118, R121, R126: slots and entry copies, malformed entries, tail writes, ring
events, held CSWs. -/
def Obligations.QueueServiceCommands : Prop :=
  (∀ (s : State) (w : World) (q left : Nat), bitOf (s.reg 0xC0000) 0 = true → readsOut s < 32 → s.cu.pl = .none →
    s.q.slotAt.toNat + 10 ≤ s.now.toNat →
    let x := s.sq q
    let share := if fld (s.reg 0xC0000) 7 4 = 0 then 16 else fld (s.reg 0xC0000) 7 4
    (roundOf s w).visit = some (q, left) → 0 < left → 0 < available x →
    (w = .safety → worldHasEntry s .safety = true ∧ (s.q.safeTaken < share ∨ worldHasEntry s .service = false)) →
    (w = .service → worldHasEntry s .service = true ∧ (worldHasEntry s .safety = false ∨ share ≤ s.q.safeTaken)) →
    ∃ t, exec .entrySlot s = .next t ∧ { t with q := s.q } = s ∧ (∀ j, j ≠ q → t.sq j = s.sq j) ∧
      t.sq q = { x with issued := x.issued ++ [((x.head + x.issued.length) % 2 ^ x.desc.log2, left == 1, s.now)] } ∧ t.q.slotAt = s.now ∧
      t.q.slot = (if s.q.slot = 15 then 0 else s.q.slot + 1) ∧
      (s.q.slot ≠ 15 → t.q.safeTaken = s.q.safeTaken + (if w = .safety then 1 else 0)) ∧ (s.q.slot = 15 → t.q.safeTaken = 0) ∧
      (roundOf t w).visit = (if left = 1 then none else some (q, left - 1))) ∧
  (∀ s : State, bitOf (s.reg 0xC0000) 0 = false ∨ 32 ≤ readsOut s ∨
    (s.q.slotAt.toNat ≤ s.now.toNat ∧ s.now.toNat < s.q.slotAt.toNat + 10) → exec .entrySlot s = .next s) ∧
  (∀ (s : State) (k : Fin 1024) (idx : Nat) (last : Bool) (at_ : DWord) (rest : List (Nat × Bool × DWord)) (bs : List Byte),
    let x := s.sq k.val
    let slot : Addr := { x.desc.base with addr := x.desc.base.addr + 64 * idx }
    let w0 := wordAt bs 0
    let w3 := wordAt bs 3
    let b := s.sub (fld w0 27 16)
    let op := fld w0 7 0
    let plain : Prop := 1 ≤ op ∧ op ≤ 5 ∧ fld w0 9 8 ≠ 3 ∧ fld w0 15 10 = 0 ∧ fld w0 31 28 = 0 ∧ fld (wordAt bs 1) 31 16 = 0 ∧
      fld w3 31 20 = 0
    let bad (code : Nat) : Prop := ∃ t, exec (.entryCopyComplete k) s = .next t ∧ (t.sq k.val).st = .error ∧
      (t.sq k.val).err = code ∧ (t.sq k.val).head = x.head ∧ t.q.handed = s.q.handed ∧
      (∀ j, j ≠ k.val → t.sq j = s.sq j) ∧ (x.desc.evEn = true → srcExists x.desc.evsrc = true → (t.evSrc x.desc.evsrc).count ≠ 0)
    x.st = .enabled → x.issued = (idx, last, at_) :: rest → s.posted = [] → x.desc.headA.asel = 0 → bitOf (s.reg 0x800) 0 = true →
    mayIssue s (worldFn x.desc.world) = true → memRead s (.queue x.desc.world) slot 64 = (s, .ok bs) →
    (op = 0 ∨ 5 < op → bad 4) ∧ (op = 1 ∧ fld w0 9 8 = 3 → bad 4) ∧ (1 ≤ op ∧ op ≤ 5 ∧ fld w0 15 10 ≠ 0 → bad 4) ∧
    (plain → b.attr.valid = false ∨ b.attr.reach ≠ x.desc.reach ∨ b.attr.world ≠ x.desc.world → bad 3) ∧
    (plain → b.attr.valid = true → b.attr.reach = x.desc.reach → b.attr.world = x.desc.world →
      (op = 1 → 1 < fld w3 19 16 ∨ (wordAt bs 2).toNat % 16 ≠ 0 → bad 4) ∧
      (op ≠ 1 ∨ (fld w3 19 16 ≤ 1 ∧ (wordAt bs 2).toNat % 16 = 0) → ∃ t o, exec (.entryCopyComplete k) s = .next t ∧
        t.q.handed = s.q.handed ++ [o] ∧ o.code = op ∧ o.sub = fld w0 27 16 ∧ o.tag = fld (wordAt bs 1) 15 0 ∧ o.queue = k.val ∧
        (op = 1 → o.chain = { asel := fld w3 19 16, addr := (wordAt bs 2).toNat + 2 ^ 32 * fld w3 15 0 } ∧
          o.inl.length = fld w0 9 8 ∧ ∀ i, i < fld w0 9 8 → nth {} o.inl i = ccwOfBytes (bs.drop (32 + 16 * i))) ∧
        o.parm.toNat = (wordAt bs 4).toNat + 2 ^ 32 * (wordAt bs 5).toNat ∧
        o.deadline.toNat = (wordAt bs 6).toNat + 2 ^ 32 * (wordAt bs 7).toNat ∧
        (t.sq k.val).head = (idx + 1) % 2 ^ x.desc.log2 ∧ (t.sq k.val).issued = rest ∧ t.mem = s.mem ∧
        (last = false → t.hostMem = s.hostMem) ∧ (last = true → x.desc.headEv = false →
          t.hostMem = cellsSet s.hostMem x.desc.headA.addr (toBytes 4 ((idx + 1) % 2 ^ x.desc.log2)))))) ∧
  (∀ (s : State) (k : Fin 1024),
    let g := s.ring k.val
    s.posted = [] → 0 < g.uncov → g.desc.tailA.asel = 0 → bitOf (s.reg 0x800) 0 = true →
    mayIssue s (worldFn g.desc.world) = true →
    let u : State := { s with hostMem := cellsSet s.hostMem g.desc.tailA.addr (toBytes 4 g.tail) }
    let due : Prop := (if g.desc.evCount = 0 then 1 else g.desc.evCount) ≤ g.unsig.length ∨
      ∃ t0 ts, g.unsig = t0 :: ts ∧ t0.toNat + 1000 * g.desc.evTime ≤ s.now.toNat
    (¬due → exec (.ringTailWrite k) s = .next (u.modRing k.val fun r => { r with uncov := 0 })) ∧
    (due → exec (.ringTailWrite k) s = .next (raiseEvent (u.modRing k.val fun r => { r with uncov := 0, unsig := [] }) k.val))) ∧
  (∀ (s : State) (k : Fin 1024) (t0 : DWord) (ts : List DWord), (s.ring k.val).unsig = t0 :: ts →
    (t0.toNat + 1000 * (s.ring k.val).desc.evTime ≤ s.now.toNat → (s.ring k.val).uncov = 0 → exec (.ringEventTimeout k) s =
      .next (raiseEvent (s.modRing k.val fun r => { r with unsig := [] }) k.val)) ∧
    (s.now.toNat < t0.toNat + 1000 * (s.ring k.val).desc.evTime → exec (.ringEventTimeout k) s = .next s)) ∧
  ∀ (s : State) (k : Fin 1024) (n stamp : Nat) (c : Csw) (b : Sub),
    let g := s.ring k.val
    s.posted = [] → KeysRise s.subs → tget? s.subs n = some b → (∀ x ∈ s.subs, x.1 ≠ n → ∀ h ∈ x.2.held, h.ring ≠ k.val) →
    b.held = [⟨k.val, c, stamp⟩] → b.toCreate = [] → b.st = .statusPending → b.resident = false → b.prog.phase = .none →
    b.clearWin = false → g.st = .enabled →
    ringFull g = false → (∀ r, (s.reach r).reqs = []) → g.desc.base.asel = 0 → bitOf (s.reg 0x800) 0 = true →
    mayIssue s (worldFn g.desc.world) = true →
    exec (.heldCswPost k) s = .next
      (({ s with hostMem := cellsSet s.hostMem (g.desc.base.addr + 32 * g.tail) (wordsBytes (cswWords c)) }.modRing k.val fun r =>
        { r with tail := (r.tail + 1) % 2 ^ r.desc.log2, unsig := r.unsig ++ [s.now], uncov := r.uncov + 1 }).modSub n fun x =>
        { x with held := [], st := .idle, old := false })

/-- R95 to R98, R126 to R128: ENABLE, DISABLE and RESTART by the supervisor core of a world. -/
def Obligations.QueueControlCommands : Prop :=
  ∀ (s : State) (w : World) (k : Nat) (isRing : Bool) (bs : List Byte),
    let who : Initiator := if w = .safety then .scS else .scV
    let off : Nat := if w = .safety then 0xC0014 else 0xC0054
    let q := s.sq k
    let g := s.ring k
    let desc : Addr := { asel := 1, addr := 0x800000000 + 65536 * fld (s.reg (if isRing = true then 0xC000C else 0xC0008)) 23 16 + 64 * k }
    let d := parseDesc isRing bs
    let hostOk : Prop := bitOf (s.reg 0x800) 0 = true ∧ mayIssue s (worldFn d.world) = true
    selected s w = (k, isRing) →
    (Writes s who off 1 → memRead s .device desc 64 = (s, .ok bs) →
      (isRing = true → g.st = .disabled → descOk true bs = true → d.tailA.asel = 0 → hostOk → ∃ t, exec (.queueEnable w) s = .next t ∧
        t.ring k = { desc := d, st := .enabled, err := g.err } ∧ t.hostMem = cellsSet s.hostMem d.tailA.addr (toBytes 4 0) ∧
        (t.evSrc k).world = d.world ∧ ((t.evSrc k).en = true ↔ (s.evSrc k).en = true ∧
          (d.world = .safety ↔ (s.evSrc k).target % 2 = 0)) ∧
        (∀ j, j ≠ k → t.ring j = s.ring j ∧ t.evSrc j = s.evSrc j) ∧ { t with q := s.q, ev := s.ev, hostMem := s.hostMem } = s) ∧
      (isRing = false → q.st = .disabled → descOk false bs = true → d.headA.asel = 0 → hostOk → (s.ring d.cq).st ≠ .disabled →
        (s.ring d.cq).desc.reach = d.reach → (s.ring d.cq).desc.world = d.world → exec (.queueEnable w) s =
        .next { (s.modSq k fun x => { desc := d, st := .enabled, err := x.err }) with hostMem := cellsSet s.hostMem d.headA.addr (toBytes 4 0) }) ∧
      (isRing = true → g.st = .disabled → descOk true bs = false → ∃ t, exec (.queueEnable w) s = .next t ∧
        (t.ring k).st = .error ∧ (t.ring k).err = 1 ∧ (∀ j, j ≠ k → t.ring j = s.ring j) ∧ t.q.sq = s.q.sq ∧ t.mem = s.mem) ∧
      (isRing = false → q.st = .disabled → descOk false bs = false ∨ (s.ring d.cq).desc.reach ≠ d.reach ∨
          (s.ring d.cq).desc.world ≠ d.world → q.headDue = false → ∃ t, exec (.queueEnable w) s = .next t ∧ (t.sq k).st = .error ∧
        (t.sq k).err = 1 ∧ (∀ j, j ≠ k → t.sq j = s.sq j) ∧ t.q.cq = s.q.cq ∧ t.mem = s.mem)) ∧
    (Writes s who off 1 → (isRing = true → g.st ≠ .disabled) → (isRing = false → q.st ≠ .disabled) → exec (.queueEnable w) s = .next s) ∧
    (Writes s who off 2 →
      (isRing = false → q.st = .enabled ∨ q.st = .error → q.headDue = false → exec (.queueDisable w) s =
        .next (s.modSq k fun x => { x with st := .disabled, reading := false, again := false, issued := [] })) ∧
      (isRing = true → g.st = .enabled ∨ g.st = .error → (∀ n, ∀ h ∈ (s.sub n).held ++ (s.sub n).toCreate, h.ring ≠ k) →
        KeysRise s.subs → exec (.queueDisable w) s = .next (s.modRing k fun x => { x with
          st := .disabled, reading := false, again := false, dropped := 0 })) ∧
      (isRing = true → g.st = .enabled ∨ g.st = .error → ∀ n h, (s.sub n).held = [h] → (s.sub n).toCreate = [] → h.ring = k →
        (s.sub n).st = .statusPending → (s.sub n).resident = false → (s.sub n).prog.phase = .none →
        (∀ m, m ≠ n → ∀ h ∈ (s.sub m).held ++ (s.sub m).toCreate, h.ring ≠ k) → KeysRise s.subs →
        ∃ t, exec (.queueDisable w) s = .next t ∧ (t.ring k).st = .disabled ∧ (t.ring k).dropped = 1 ∧ (t.sub n).st = .idle ∧
          (t.sub n).held = [] ∧ (∀ m, m ≠ n → t.sub m = s.sub m) ∧ t.mem = s.mem)) ∧
    (Writes s who off 3 →
      (isRing = false → q.st = .error → q.err ≠ 1 → exec (.queueRestart w) s =
        .next (s.modSq k fun x => { x with st := .enabled, reading := true, again := x.reading || x.again, readAt := if x.reading = true then x.readAt else s.now })) ∧
      (isRing = true → g.st = .error → g.err ≠ 1 → exec (.queueRestart w) s =
        .next (s.modRing k fun x => { x with st := .enabled, reading := true, again := x.reading || x.again, readAt := if x.reading = true then x.readAt else s.now })) ∧
      ((isRing = true → g.st ≠ .error) → (isRing = false → q.st ≠ .error) → exec (.queueRestart w) s = .next s))

/-- R86, R125, R129 to R134, R137, R138: the reach reset, deferred generation increments, and the deadlock detector. -/
def Obligations.ReachResetCommands : Prop :=
  (∀ (s : State) (f : Fin 2) (r : Fin 32) (tag : Half) (qreset : Bool), f.val = 0 ∨ reachHasSafety s r.val = false →
    let w : World := if f.val = 0 then .safety else .service
    let ask : ResetReq := ⟨w, tag.toNat, qreset⟩
    let mine (b : Sub) : Prop := b.attr.valid = true ∧ b.attr.reach = r.val
    let fenced (t : State) : Prop := (t.reach r.val).reqs = [ask] ∧ t.mem = s.mem ∧ (∀ n, mine (s.sub n) → (t.sub n).st = .fenced ∧
        (t.sub n).gen = (s.sub n).gen) ∧ (∀ n, ¬mine (s.sub n) → t.sub n = s.sub n) ∧
      (∀ k, (s.ring k).desc.reach = r.val → (s.ring k).st = .enabled ∨ (s.ring k).st = .error →
        (t.ring k).st = .fenced ∧ (t.ring k).tail = (s.ring k).tail) ∧
      (∀ k, (s.sq k).desc.reach = r.val → (s.sq k).st = .enabled ∨ (s.sq k).st = .error →
        (t.sq k).st = .fenced ∧ (t.sq k).head = (s.sq k).head) ∧
      (∀ k, (s.ring k).desc.reach ≠ r.val → t.ring k = s.ring k) ∧ (∀ k, (s.sq k).desc.reach ≠ r.val → t.sq k = s.sq k) ∧
      ∀ n p, n < 96 → pinOwner s n = some p → mine (s.sub p) → isOutMode (pinMode s n) = true →
        (t.pin n).value = pinSafeValue s n ∧ (t.pin n).atSafe = true
    (s.posted = [] → (s.reach r.val).reqs = [] → KeysRise s.subs → (∀ n, (s.sub n).prog.phase = .none) →
      (∀ n, mine (s.sub n) → (s.sub n).st = .idle ∨ (s.sub n).st = .statusPending ∨ (s.sub n).st = .fenced) →
      (∀ o ∈ s.q.handed, (s.sub o.sub).attr.reach ≠ r.val) → s.sluice = [] →
      (∀ c, (s.dch c).desc = none ∧ (s.dch c).fence = false) → (∀ k, (s.sq k).headDue = false) →
      (hostPeriod s = 3 → fnServes s f.val = true → ∃ t, exec (.dbellReset f r tag qreset) s = .next t ∧ fenced t) ∧
      (Writes s (if w = .safety then .scS else .scV) 0xC0030
          (BitVec.ofNat 32 (2 ^ 31 + r.val * 65536 + (if qreset = true then 2 ^ 21 else 0) + tag.toNat)) →
        ∃ t, exec (.dbellReachReset w r tag qreset) s = .next t ∧ fenced t)) ∧
    (s.posted = [] → (s.reach r.val).reqs ≠ [] → Unswept s → hostPeriod s = 3 → fnServes s f.val = true →
      (qreset = false → exec (.dbellReset f r tag qreset) s = .next (s.modReach r.val fun x => { x with reqs := x.reqs ++ [ask] })) ∧
      (qreset = true → ∃ t, exec (.dbellReset f r tag qreset) s = .next t ∧ { t with reaches := s.reaches, q := s.q } = s ∧
        t.reach r.val = { s.reach r.val with reqs := (s.reach r.val).reqs ++ [ask], qreset := true } ∧
        (∀ k, (s.ring k).desc.reach = r.val → (s.ring k).st = .enabled ∨ (s.ring k).st = .error → (t.ring k).st = .fenced)))) ∧
  (∀ (s : State) (r : Fin 32) (tag : Half) (qreset : Bool), s.posted = [] → reachHasSafety s r.val = true →
    Unswept s → hostPeriod s = 3 → fnServes s 1 = true → exec (.dbellReset 1 r tag qreset) s =
      .next (s.modPage (32 + r.val) fun p => { refused := Nat.min 0xFFFF (p.refused + 1), seen := true })) ∧
  (∀ (s : State) (r : Fin 32) (q : ResetReq),
    let x := s.reach r.val
    let k := defaultRing s r.val q.world
    let g := s.ring k
    let mine (b : Sub) : Prop := b.attr.valid = true ∧ b.attr.reach = r.val
    s.posted = [] → x.reqs = [q] → x.drained = false → reachDrained s r.val = true → KeysRise s.subs → (∀ n, (s.sub n).held = [] ∧ (s.sub n).toCreate = [] ∧
      (s.sub n).resident = false) → (∀ n, mine (s.sub n) → (s.sub n).prog.phase = .none ∧ (s.sub n).genDue = [] ∧ (s.sub n).genAt = none) →
    (∀ e ∈ s.q.cq, e.2.st ≠ .fenced) → (∀ e ∈ s.q.sq, e.2.st ≠ .fenced) → g.st = .enabled → ringFull g = false →
    g.desc.base.asel = 0 → bitOf (s.reg 0x800) 0 = true → mayIssue s (worldFn g.desc.world) = true →
    ∃ t, exec (.reachResetDrainComplete r) s = .next t ∧ (t.reach r.val).reqs = [] ∧ t.mem = s.mem ∧
      (∀ n, mine (s.sub n) → (t.sub n).st = .idle ∧ (t.sub n).gen = (s.sub n).gen + 1 ∧ (t.sub n).aslot = 0 ∧ (t.sub n).pend = none) ∧
      (∀ n, ¬mine (s.sub n) → t.sub n = s.sub n) ∧ t.hostMem = cellsSet s.hostMem (g.desc.base.addr + 32 * g.tail)
        (wordsBytes (cswWords ⟨0, r.val, 0, q.world, 0x06, q.tag, 0, 0, 0x10000, Nat.min 0xFFFF x.produced, 0x0C04, {}, s.now⟩)) ∧
      (t.ring k).tail = (g.tail + 1) % 2 ^ g.desc.log2) ∧
  (∀ (s : State) (r : Fin 32) (n : Nat), KeysRise s.subs → s.posted = [] → (s.sub n).attr.valid = true → (s.sub n).attr.reach = r.val →
    (s.sub n).prog.phase ≠ .none → exec (.reachResetDrainComplete r) s = .next s) ∧
  (∀ (s : State) (m : Fin 4096) (t0 : DWord), (s.sub m.val).genAt = some t0 → s.posted = [] →
    (s.now.toNat < t0.toNat + 70000 → exec (.generationIncrement m) s = .next s) ∧
    (t0.toNat + 70000 ≤ s.now.toNat → (s.sub m.val).genDue = [.reset] → (s.sub m.val).held = [] → (s.sub m.val).toCreate = [] →
      (s.sub m.val).resident = false → (s.reach (s.sub m.val).attr.reach).reqs = [] → exec (.generationIncrement m) s =
      .next (s.modSub m.val fun b => { b with gen := b.gen + 1, genAt := some s.now, genDue := [], aslot := 0, st := .idle, old := false })) ∧
    (t0.toNat + 70000 ≤ s.now.toNat → ∀ r : OpRef, (s.sub m.val).genDue = [.clear r] → (s.sub m.val).held = [] →
      (s.sub m.val).toCreate = [] → (s.sub m.val).st = .idle → RingWaits s (ringOfQueue s r.queue) →
      ∃ t, exec (.generationIncrement m) s = .next t ∧ (t.sub m.val).gen = (s.sub m.val).gen + 1 ∧
        (t.sub m.val).st = .statusPending ∧ (t.sub m.val).genDue = [] ∧ (∀ j, j ≠ m.val → t.sub j = s.sub j) ∧
        ∃ stamp, (t.sub m.val).held = [⟨ringOfQueue s r.queue,
          { cswSub s m.val with gen := ((s.sub m.val).gen + 1).toNat, tag := r.tag, op := r.op }, stamp⟩])) ∧
  (∀ (s : State) (r : Fin 32) (t0 : DWord), (s.reach r.val).examAt = some t0 → s.now.toNat < t0.toNat + 250000 →
    exec (.deadlockExamination r) s = .next s) ∧
  (∀ (s : State) (r : Fin 32), (∀ t0, (s.reach r.val).examAt = some t0 → t0.toNat + 250000 ≤ s.now.toNat) →
    ∃ t, exec (.deadlockExamination r) s = .next t ∧ { t with reaches := s.reaches } = s ∧
    (∀ j, j ≠ r.val → t.reach j = s.reach j) ∧ (t.reach r.val).examAt = some s.now ∧
    ((t.reach r.val).quiet = Nat.min 3 ((s.reach r.val).quiet + 1) ∨ (t.reach r.val).quiet = 0) ∧
    (KeysRise s.subs → (∀ n, (s.sub n).attr.valid = true → (s.sub n).attr.reach = r.val → softWait (s.sub n) = false) →
      (t.reach r.val).quiet = 0) ∧
    (KeysRise s.subs → (∃ n, (s.sub n).attr.valid = true ∧ (s.sub n).attr.reach = r.val ∧ (s.sub n).st = .startPending) →
      (t.reach r.val).quiet = 0) ∧
    (∀ n src, KeysRise s.subs → (s.sub n).attr.valid = true → (s.sub n).attr.reach = r.val → softWait (s.sub n) = true →
      (s.sub n).prog.wsrc = some src → bitOf (s.reg (0xC0400 + 4 * ((src - 1280) / 32))) ((src - 1280) % 32) = false →
      (s.evSrc src).last = none →
      (∀ m, m ≠ n → (s.sub m).attr.valid = true → (s.sub m).attr.reach = r.val → (s.sub m).st = .idle ∨ (s.sub m).st = .suspended) →
      (∀ x ∈ s.q.sq, x.2.desc.reach ≠ r.val) → s.q.handed = [] → (t.reach r.val).quiet = Nat.min 3 ((s.reach r.val).quiet + 1))) ∧
  (∀ (s : State) (r : Fin 32), (s.reach r.val).quiet < 3 → s.posted = [] → exec (.deadlockEnd r) s = .next s) ∧
  ∀ (s : State) (r : Fin 32) (n : Nat), 3 ≤ (s.reach r.val).quiet → KeysRise s.subs → (s.sub n).attr.valid = true →
    (s.sub n).attr.reach = r.val → softWait (s.sub n) = true → (∀ m, m ≠ n → softWait (s.sub m) = false) → RunsFull s n →
    (∃ t0, (s.reach r.val).examAt = some t0 ∧ (s.sub n).waitAt.toNat ≤ t0.toNat) →
    (∀ x, (s.sub n).prog.wsrc = some x → sourceArmed s x = false) → (s.sub n).attr.errSafe = false → (s.sub n).cue = false → (s.sub n).prog.dstat = 0 → (s.sub n).prog.cstat = 0 →
    (s.sub n).prog.cur.pci = false → ∃ t, exec (.deadlockEnd r) s = .next t ∧ (t.reach r.val).quiet = 0 ∧
      EndsWith s t n { cswProg s n with kind := 0x05, cstat := 0x8000, dstat := 0x0C, detail := 0x0C03 }

/-- R413 to R416, R418, R419, R421 to R424, R461: arrivals, the winner of a target, its claim and completion, the configuration of
a source, and the message of a host function. -/
def Obligations.EventCommands : Prop :=
  (∀ (s : State) (n : Nat) (t : DWord), srcExists n = true →
    let e := s.evSrc n
    let r := raiseEventAt s n t
    let spills : Prop := e.count = 255 ∧ e.ovf = false ∧ s.ev.ovfSeen = false
    EventFrame s r ∧ (∀ j, j ≠ n → j ≠ 1226 → r.evSrc j = s.evSrc j) ∧
    (n ≠ 1226 → r.evSrc n = { e with
      count := Nat.min 255 (e.count + 1), ovf := e.ovf || e.count == 255,
      last := some (match e.last with
        | some u => if t.toNat < u.toNat then u else t
        | none => t) }) ∧
    (spills → n ≠ 1226 → r.ev.ovfSeen = true ∧ r.ev.ovfSrc = n ∧ (r.evSrc 1226).count = Nat.min 255 ((s.evSrc 1226).count + 1)) ∧
    (¬spills → n ≠ 1226 → r.ev.ovfSeen = s.ev.ovfSeen ∧ r.ev.ovfSrc = s.ev.ovfSrc ∧ r.evSrc 1226 = s.evSrc 1226)) ∧
  (∀ (s : State) (n : Nat) (t : DWord), srcExists n = false → raiseEventAt s n t = s) ∧
  (∀ (s : State) (who : Initiator) (n : Fin 2048), Writes s who 0x8008 (BitVec.ofNat 32 n.val) →
    1280 ≤ n.val ∧ (s.evSrc n.val).world = initWorld s who ∧ exec (.evtSet who n) s = .next (raiseEventAt s n.val s.now)) ∧
  (∀ (s : State) (who : Initiator) (k : Fin 4) (n : Nat) (e : EvSrc), Reaches s who → KeysRise s.ev.src → n < 2048 →
    let group (x : EvSrc) : Nat := x.prio / 2 ^ nth 0 s.ev.split k.val
    let may (x : EvSrc) : Prop := x.target = k.val ∧ x.en = true ∧ 0 < x.count ∧ x.active = none ∧
      ∀ j, (s.evSrc j).active = some k.val → group (s.evSrc j) < group x
    isTarget who k.val = true →
    (s.evSrc n = e → may e → (∀ m, m ≠ n → may (s.evSrc m) → (s.evSrc m).prio < e.prio ∨ ((s.evSrc m).prio = e.prio ∧ n < m)) →
      (activeAt s k.val).length < 8 → e.count < 256 → ∃ t, exec (.evtClaim who k) s = .next t ∧ EventFrame { s with ans := t.ans } t ∧
        t.ans = [BitVec.ofNat 32 (n + 65536 * (e.count - 1) + 2 ^ 24 * b2n e.ovf + 2 ^ 31)] ∧
        t.evSrc n = { e with active := some k.val, count := e.count - 1 } ∧ ∀ j, j ≠ n → t.evSrc j = s.evSrc j) ∧
    ((∀ m, ¬may (s.evSrc m)) ∨ 8 ≤ (activeAt s k.val).length → exec (.evtClaim who k) s = .next { s with ans := [0] })) ∧
  (∀ (s : State) (who : Initiator) (k : Fin 4), Reaches s who → isTarget who k.val = false →
    exec (.evtClaim who k) s = .next { s with ans := [0] }) ∧
  (∀ (s : State) (who : Initiator) (k : Fin 4) (n : Fin 2048), Writes s who (0x8040 + 4 * k.val) (BitVec.ofNat 32 n.val) →
    isTarget who k.val = true → ((s.evSrc n.val).active = some k.val → ∃ t, exec (.evtDone who k n) s = .next t ∧ EventFrame s t ∧
        t.evSrc n.val = { s.evSrc n.val with active := none } ∧ (∀ j, j ≠ n.val → t.evSrc j = s.evSrc j)) ∧
      ((s.evSrc n.val).active ≠ some k.val → exec (.evtDone who k n) s = .next (s.modEv fun v => { v with doneErr := true }))) ∧
  (∀ (s : State) (who : Initiator) (n : Fin 2048) (v : Word), Writes s who (0x10000 + 4 * n.val) v →
    ∃ t, exec (.evtSrcConfig who n v) s = .next t ∧ EventFrame s t ∧ (∀ j, j ≠ n.val → t.evSrc j = s.evSrc j) ∧
      t.evSrc n.val = { s.evSrc n.val with
        prio := fld v 7 0,
        target := if fld v 8 8 = (if srcWorld s n.val = .safety then 0 else 1) then fld v 9 8 else (s.evSrc n.val).target,
        en := bitOf v 10, vector := fld v 16 11, ovf := (s.evSrc n.val).ovf && !bitOf v 20 && !bitOf v 21,
        count := if bitOf v 21 = true then 0 else (s.evSrc n.val).count }) ∧
  (∀ (s : State) (who : Initiator) (n : Fin 2048), Writes s who (0x10000 + 4 * n.val) 0 →
    (s.evSrc n.val).prio < 256 → (s.evSrc n.val).vector < 64 → (s.evSrc n.val).target < 4 →
    ∃ t, exec (.evtSrcClr who n) s = .next t ∧ EventFrame s t ∧ (∀ j, j ≠ n.val → t.evSrc j = s.evSrc j) ∧
      t.evSrc n.val = { s.evSrc n.val with count := 0, ovf := false }) ∧
  ∀ (s : State) (n : Nat) (f : Fin 2) (addr : Nat) (data : Word), srcExists n = true → n ≠ 1226 → s.ev.ovfSeen = true →
    let e := s.evSrc n
    let h := s.hostFn f.val
    KeysRise s.ev.src → s.ev.en = true → e.en = true → e.target = 2 + f.val → e.active = none → e.vector < 64 →
    (∀ m, m ≠ n → (s.evSrc m).target < 2 ∧ (s.evSrc m).active = none) → bitOf (nth 0 s.ev.vsent f.val) e.vector = false →
    s.ev.vsent.length = 2 → s.host.fns.length = 2 → h.msixEn = true → h.funcMask = false → h.bme = true → h.d3 = false →
    tget (0, 0, true) h.table e.vector = (addr, data, false) →
    (raiseEventAt s n s.now).hostMem = cellsSet s.hostMem addr (toBytes 4 data.toNat) ∧
    bitOf (nth 0 (raiseEventAt s n s.now).ev.vsent f.val) e.vector = true

/-- R426 to R434: mailbox words, doorbells, acknowledges and resets, and what notifies the other end. -/
def Obligations.MailboxCommands : Prop :=
  ∀ (s : State) (who : Initiator) (ch : Fin 16) (c : Bool) (v : Word),
    let off (o : Nat) : Nat := 0x20000 + 0x100 * ch.val + (if c = true then 0x80 else 0) + o
    let here := s.mb ch.val c
    let there := s.mb ch.val (!c)
    let source : Nat := if c = true then there.hsrc else 1136 + ch.val
    let told (t : State) (bit : Nat) : Prop :=
      (bitOf (BitVec.ofNat 4 there.ie) bit = true → srcExists source = true → (t.evSrc source).count = Nat.min 255 ((s.evSrc source).count + 1) ∨
        source = 1226) ∧ (bitOf (BitVec.ofNat 4 there.ie) bit = false → t.ev = s.ev)
    let mbFrame (t : State) : Prop := EventFrame { s with mbx := t.mbx } t ∧
      ∀ j e, j < 16 → ¬(j = ch.val) → t.mb j e = s.mb j e
    (Writes s who (off 0) v → ∃ t, exec (.mbxTx who ch c v) s = .next t ∧ mbFrame t ∧ told t 0 ∧ there.inq.length < 8 ∧
      t.mb ch.val (!c) = { there with inq := there.inq ++ [v] } ∧ t.mb ch.val c = here) ∧
    (∀ k, who = coreInit k → 64 ≤ k.val → coreGoes s k.val = true → mbxOwner who ch.val c = true → s.ready = true →
      8 ≤ there.inq.length → s.posted = [] → exec (.mbxTx who ch c v) s = .next
        (trap (s.modMb ch.val c fun e => { e with reject := true, rejectCnt := satInc 0xFFFF e.rejectCnt }) k.val 0x07 5
          (s.core k.val).pc (BitVec.ofNat 32 (0x20000000 + off 0)))) ∧
    (Reaches s who → mbxOwner who ch.val c = true →
      (∀ w ws, here.inq = w :: ws → ∃ t, exec (.mbxRx who ch c) s = .next t ∧ t.ans = [w] ∧ EventFrame { s with mbx := t.mbx, ans := [w] } t ∧
        t.mb ch.val c = { here with inq := ws } ∧ t.mb ch.val (!c) = there ∧ (ws.length = 7 → told t 3) ∧ (ws.length ≠ 7 → t.ev = s.ev)) ∧
      (here.inq = [] → exec (.mbxRx who ch c) s =
        .next { s.modMb ch.val c fun e => { e with underrun := true } with ans := [0] })) ∧
    (Writes s who (off 0x14) v → ∃ t, exec (.mbxDbSet who ch c v) s = .next t ∧ mbFrame t ∧ t.mb ch.val c = here ∧
      t.mb ch.val (!c) = { there with db := if ch.val = 15 then there.db else there.db ||| (v &&& 0x7FFFFFFF) } ∧
      (ch.val = 15 ∨ v &&& 0x7FFFFFFF &&& ~~~there.db &&& ~~~there.mask = 0 → t.ev = s.ev) ∧
      (ch.val ≠ 15 → (v &&& 0x7FFFFFFF &&& ~~~there.db &&& ~~~there.mask) ≠ 0 → bitOf (BitVec.ofNat 4 there.ie) 1 = true →
        srcExists source = true → (t.evSrc source).count ≠ 0)) ∧
    (Writes s who (off 0x10) v → ∃ t, exec (.mbxDbMask who ch c v) s = .next t ∧ mbFrame t ∧ t.mb ch.val (!c) = there ∧
      t.mb ch.val c = { here with mask := v } ∧ (here.db &&& here.mask &&& ~~~v = 0 → t.ev = s.ev)) ∧
    (Writes s who (off 0x18) v → (fld v 15 0 ≠ 0xFFFF → here.senderReset = false → ∃ t, exec (.mbxAckTx who ch c v) s = .next t ∧
        mbFrame t ∧ told t 2 ∧ t.mb ch.val c = here ∧
        t.mb ch.val (!c) = { there with ack := v, ackValid := true, ackLost := there.ackLost || there.ackValid }) ∧
      (fld v 15 0 = 0xFFFF ∨ here.senderReset = true → exec (.mbxAckTx who ch c v) s = .next s)) ∧
    (Writes s who (off 0x24) 1 → here.inq.length ≤ 8 → ∃ t, exec (.mbxReceiverReset who ch c) s = .next t ∧ mbFrame t ∧
      t.mb ch.val c = { here with inq := [] } ∧ t.mb ch.val (!c) = { there with
        ack := BitVec.ofNat 32 (0xFFFF + 65536 * here.inq.length), ackValid := true, ackLost := there.ackLost || there.ackValid,
        db := there.db ||| 0x80000000 }) ∧
    (Writes s who (off 0x24) 2 → ∃ t, exec (.mbxSenderReset who ch c) s = .next t ∧ mbFrame t ∧
      t.mb ch.val (!c) = { there with senderReset := true } ∧ (srcExists source = true → (t.evSrc source).count ≠ 0) ∧
      t.mb ch.val c = { here with ackValid := false, ackLost := false, reject := false, rejectCnt := 0 })

/-- R437 to R439, R441, R444, R447 to R449: which request a target grants, what a grant takes and finds, the scrubber, the window boundary, the commit of the
credits, DEV_WIN. -/
def Obligations.WeirCommands : Prop :=
  (∀ (s : State) (asks : List WeirAsk) (k : Fin 9),
    let m := if k.val < 8 then 0 else 1
    let dist (a : WeirAsk) : Nat := (a.req.val + 76 - nth 0 s.weir.ptrs k.val % 76) % 76
    let ok (a : WeirAsk) : Prop := a ∈ asks ∧ weirTarget s a.addr.toNat = k.val
    let has (a : WeirAsk) : Prop := ok a ∧ 0 < nth 0 (s.weirReq a.req.val).cnt m
    let old (a : WeirAsk) : Prop := has a ∧ fld (s.reg 0x4000) 7 0 ≤ a.wait
    ((∀ a, ¬ok a) → weirPick s asks k.val = none) ∧
    ∀ g, weirPick s asks k.val = some g → ok g.1 ∧ (g.2 = true ↔ ∀ a, ¬has a) ∧
      (∀ a, old a → old g.1 ∧ (a.wait < g.1.wait ∨ (a.wait = g.1.wait ∧ dist g.1 ≤ dist a))) ∧
      (∀ a, has a → (∀ b, ¬old b) → weirFull s a.req.val m < weirFull s g.1.req.val m ∨
        (weirFull s a.req.val m = weirFull s g.1.req.val m ∧ dist g.1 ≤ dist a)) ∧
      ((∀ a, ¬has a) → ∀ a, ok a → dist g.1 ≤ dist a)) ∧
  (∀ (s : State) (a : Nat), weirTarget s a < 9 ↔ placeOf s a = .basin ∨ placeOf s a = .dram) ∧
  (∀ (s : State) (a : WeirAsk) (free : Bool), weirTarget s a.addr.toNat = 9 → exec (.weirGrant [a] [] free) s = .next s) ∧
  (∀ (s : State) (a : WeirAsk) (free : Bool), weirTarget s a.addr.toNat < 8 ∨ (weirTarget s a.addr.toNat = 8 ∧ free = true) →
    (s.weirReq a.req.val).cnt.length = 2 → s.weir.ptrs.length = 9 →
    let k := weirTarget s a.addr.toNat
    let m := if k < 8 then 0 else 1
    let blocks := (a.addr.toNat % 64 + a.len + 63) / 64
    let on : Prop := placeOf s a.addr.toNat = .basin ∨ bitOf (s.reg 0x420) 0 = true
    let n := nth 0 (s.weirReq a.req.val).cnt m
    let unit := a.addr.toNat / errUnit s a.addr.toNat * errUnit s a.addr.toNat
    ∃ t, exec (.weirGrant [a] [] free) s = .next t ∧ nth 0 (t.weirReq a.req.val).cnt m = n - blocks ∧
      nth 0 (t.weirReq a.req.val).cnt (1 - m) = nth 0 (s.weirReq a.req.val).cnt (1 - m) ∧
      nth 0 t.weir.ptrs k = (a.req.val + 1) % 76 ∧ (∀ r, r ≠ a.req.val → t.weirReq r = s.weirReq r) ∧
      (∀ j, j ≠ k → nth 0 t.weir.ptrs j = nth 0 s.weir.ptrs j) ∧
      (a.found = .clean ∨ ¬on → { t with weir := s.weir } = s) ∧
      (a.found = .uncorrectable → on →
        (∀ g, g ∈ t.ue ↔ g ∈ s.ue ∨ g = unit) ∧ { t with weir := s.weir, ue := s.ue } = s) ∧
      (a.found = .corrected → on → t.mem = s.mem ∧ t.ue = s.ue ∧
        fld (t.reg 0x424) (16 * m + 15) (16 * m) = satInc 0xFFFF (fld (s.reg 0x424) (16 * m + 15) (16 * m)) ∧
        fld (t.reg 0x424) (31 - 16 * m) (16 - 16 * m) = fld (s.reg 0x424) (31 - 16 * m) (16 - 16 * m) ∧
        (fld (s.reg 0x424) (16 * m + 15) (16 * m) = 0 → (t.evSrc 1228).count ≠ 0) ∧
        (fld (s.reg 0x424) (16 * m + 15) (16 * m) ≠ 0 → t.ev = s.ev))) ∧
  (∀ (s : State) (x : ScrubAsk) (asks : List WeirAsk), weirTarget s x.addr.toNat < 9 →
    let k := weirTarget s x.addr.toNat
    let m := if k < 8 then 0 else 1
    let on : Prop := if m = 0 then fld (s.reg 0x420) 15 8 ≠ 0 else bitOf (s.reg 0x420) 0 = true ∧ fld (s.reg 0x420) 31 16 ≠ 0
    let unit := x.addr.toNat / errUnit s x.addr.toNat * errUnit s x.addr.toNat
    let passed (t : State) : Prop := t.memErrs.bpass = s.memErrs.bpass + (if x.last = true ∧ m = 0 then 1 else 0) ∧
      t.memErrs.dpass = s.memErrs.dpass + (if x.last = true ∧ m = 1 then 1 else 0)
    (¬on → exec (.weirGrant [] [x] true) s = .next s) ∧
    (x.wait < 65536 → asks ≠ [] → (∀ a ∈ asks, weirTarget s a.addr.toNat = k) → exec (.weirGrant asks [x] true) s = exec (.weirGrant asks [] true) s) ∧
    (on → asks = [] ∨ 65536 ≤ x.wait → (∀ a ∈ asks, weirTarget s a.addr.toNat = k) →
      ∃ t, exec (.weirGrant asks [x] true) s = .next t ∧ passed t ∧ t.mem = s.mem ∧ t.weir.ptrs = s.weir.ptrs ∧
        (x.found = .clean → ueHit s x.addr.toNat 1 = none → t.ue = s.ue ∧ t.ev = s.ev ∧ t.memErrs.ueCount = s.memErrs.ueCount) ∧
        (x.found = .uncorrectable → s.ue = [] → t.ue = [unit] ∧ t.memErrs.ueCount = satInc 255 s.memErrs.ueCount ∧
          (t.evSrc 1228).count ≠ 0 ∧ (s.memErrs.ueValid = false → t.memErrs.ueValid = true ∧ t.memErrs.ueScrub = true ∧
            t.memErrs.ueReq = 127 ∧ t.memErrs.ueTarget = m ∧ t.memErrs.ueAddr = unit)))) ∧
  (∀ s : State, s.weir.winAt.toNat ≤ s.now.toNat → s.now.toNat < s.weir.winAt.toNat + fld (s.reg 0x4004) 16 0 →
    exec .weirWindowBoundary s = .next s) ∧
  (∀ s : State, s.weir.winAt.toNat + fld (s.reg 0x4004) 16 0 ≤ s.now.toNat → ∃ t,
    exec .weirWindowBoundary s = .next t ∧ t.weir.winAt = s.now ∧ t.weir.pend = false ∧ t.weir.ptrs = s.weir.ptrs ∧ t.mem = s.mem ∧
    (∀ r, r < 76 → (t.weirReq r).cnt = [fld (t.reg (0x4100 + 4 * r)) 15 0, fld (t.reg (0x4100 + 4 * r)) 31 16] ∧
      t.reg (0x4100 + 4 * r) = (if s.weir.pend = true then s.shadowReg (0x4100 + 4 * r) else s.reg (0x4100 + 4 * r))) ∧
    t.reg 0x4000 = (if s.weir.pend = true then s.shadowReg 0x4000 else s.reg 0x4000) ∧
    t.reg 0x4004 = (if s.weir.pend = true then s.shadowReg 0x4004 else s.reg 0x4004) ∧
    (s.weir.pend = false → { t with weir := s.weir } = s)) ∧
  (∀ (s : State) (who : Initiator), Writes s who 0x4008 1 →
    let win := fld (s.shadowReg 0x4004) 16 0
    let age := fld (s.shadowReg 0x4000) 7 0
    let basin := ((List.range 76).map fun r => fld (s.shadowReg (0x4100 + 4 * r)) 15 0).sum
    let dram := ((List.range 76).map fun r => fld (s.shadowReg (0x4100 + 4 * r)) 31 16).sum
    let cap := win * (if bitOf (s.reg 0x420) 0 = true then 480 else 512) / 1024
    let r := if win < 256 ∨ 65536 < win ∨ age = 0 then 1 else if 8 * win < basin then 2 else if cap < dram then 3 else 0
    exec (.weirCommit who) s = .next (s.modWeir fun w => { w with result := r, pend := decide (r = 0) })) ∧
  (∀ (s : State) (k : Fin 3), exec (.dramMaintenance k) s = .next s) ∧
  ∀ (s : State) (who : Initiator) (k : Fin 66) (v : Word), Writes s who (0x600 + 4 * k.val) v →
    ∃ t, exec (.devWinWrite who k v) s = .next t ∧ { t with regs := s.regs } = s ∧ (∀ o, o ≠ 0x600 + 4 * k.val → t.reg o = s.reg o) ∧
      (fld v 4 0 < 29 → fld (t.reg (0x600 + 4 * k.val)) 4 0 = fld v 4 0) ∧
      (29 ≤ fld v 4 0 → fld (t.reg (0x600 + 4 * k.val)) 4 0 = fld (s.reg (0x600 + 4 * k.val)) 4 0) ∧
      (fld v 12 8 < 29 → fld (t.reg (0x600 + 4 * k.val)) 12 8 = fld v 12 8) ∧
      (29 ≤ fld v 12 8 → fld (t.reg (0x600 + 4 * k.val)) 12 8 = fld (s.reg (0x600 + 4 * k.val)) 12 8) ∧
      bitOf (t.reg (0x600 + 4 * k.val)) 7 = bitOf v 7 ∧ bitOf (t.reg (0x600 + 4 * k.val)) 15 = bitOf v 15

/-- R144, R147 to R149, R152 to R157, R167: what a channel core takes next and where its routine starts, stage-in and stage-out,
the budget, the swap, and the replacement of a routine. -/
def Obligations.DispatchCommands : Prop :=
  (∀ (s : State) (te : Fin 64) (n : Nat) (pre post : List Nat),
    let c := s.te te.val
    let b := s.sub n
    let op := b.prog.op
    let e := tableEntry s n b.prog.first.code
    c.running = none → bitOf (s.reg (0x30000 + 0x100 * te.val)) 0 = true → (s.dbg te.val).halted = false → (s.dbg te.val).haltReq = false →
    s.cu.pl = .none → c.st = .inService ∨ c.st = .slow ∨ c.st = .retiring → c.rerun = [] → c.dcache = [] →
    c.waitq = pre ++ n :: post → n ∉ pre → n ∉ post →
    (b.attr.world = .safety ∧ ∀ m ∈ pre, (s.sub m).attr.world = .service) ∨ (pre = [] ∧ ∀ m ∈ n :: post, (s.sub m).attr.world = .service) →
    ∃ t, exec (.coreDispatch te) s = .next t ∧ (t.te te.val).running = some n ∧ (t.te te.val).waitq = pre ++ post ∧
      (t.sub n).prog.phase = .onCore ∧ (t.sub n).prog.snap.time = s.now ∧ (t.te te.val).held = {} ∧ t.mem = s.mem ∧ t.pins = s.pins ∧
      (t.te te.val).misses = satInc 0xFFFF c.misses ∧ (∀ j, j ≠ te.val → t.core j = s.core j ∧ t.te j = s.te j) ∧
      ((t.te te.val).builtin = true ↔ fieldCode b.prog.first.code = true ∧ bitOf (nth 0 e 0) 16 = false) ∧
      (fieldCode b.prog.first.code = false ∨ bitOf (nth 0 e 0) 16 = true →
        let x := t.core te.val
        x.pc.toNat = fld (nth 0 e 0) 15 0 ∧ (t.te te.val).budget = fld (nth 0 e 1) 23 0 ∧ x.run = true ∧
        gRead x 1 = BitVec.ofNat 32 (0x10000 + fld (nth 0 e 2) 15 0) ∧ gRead x 2 = 0 ∧ gRead x 3 = 0 ∧
        gRead x 4 = op.parm.setWidth 32 ∧ gRead x 5 = (op.parm >>> 32).setWidth 32 ∧
        (n < 4096 → b.attr.reach < 32 → gRead x 6 = BitVec.ofNat 32 (n + 2 ^ 12 * b.attr.reach + 2 ^ 17 * b.gen.toNat +
          (if b.attr.world = .service then 2 ^ 21 else 0))) ∧
        (b.prog.stage = none → gRead x 7 = 0 ∧ gRead x 8 = 0) ∧
        (∀ buf len, b.prog.stage = some (buf, len) → gRead x 7 = BitVec.ofNat 32 (0x10000 + buf) ∧ gRead x 8 = BitVec.ofNat 32 len) ∧
        gRead x 9 = s.now.setWidth 32 ∧ gRead x 10 = b.prog.first.w0 ∧ gRead x 11 = b.prog.first.w1 ∧ gRead x 12 = b.prog.first.w2 ∧
        gRead x 13 = b.prog.first.w3 ∧ (∀ i, 14 ≤ i → i < 32 → gRead x i = 0) ∧ x.p = 1 ∧ x.lc = [0, 0, 0] ∧
        x.rs = [0xFFFFFFF0] ∧ x.sm = false ∧ x.fbuf = [] ∧ x.world = b.attr.world ∧ x.rsv = none ∧
        (schemeCap s b.attr.world = false → x.c = List.replicate 8 {}))) ∧
  (∀ (s : State) (te : Fin 64), (s.te te.val).running ≠ none ∨ bitOf (s.reg (0x30000 + 0x100 * te.val)) 0 = false ∨
    (s.dbg te.val).halted = true ∨ s.cu.pl ≠ .none → exec (.coreDispatch te) s = .next s) ∧
  (∀ (s : State) (m : Fin 4096) (len g : Nat) (gs : List Nat) (bs : List Byte),
    let n := m.val
    let b := s.sub n
    let te := b.attr.owner
    let buf := if (s.te te).stageAlt = true then 0xF000 else 0xE000
    let s0 := s.modSub n fun x => { x with mover := gs }
    let u := s0.modTe te fun t => { t with stageAlt := !t.stageAlt }
    b.mover = g :: gs → s.posted = [] →
    (g ≠ b.gen.toNat → exec (.stageInComplete m) s = .next (s0.modReach b.attr.reach fun r =>
      { r with staleCnt := satInc 0xFFFFFF r.staleCnt, staleClass := 3, staleAge := false })) ∧
    (g = b.gen.toNat → b.prog.phase ≠ .staging → exec (.stageInComplete m) s = .next s0) ∧
    (g = b.gen.toNat → b.prog.phase = .staging → b.resident = true → PlainArea b.prog.cur len → b.prog.cur.aselF < 2 → 0 < len → MemOk s →
      te < 64 → bitOf (nth 0 (lookupEntry s n b.prog.first.code) 0) 17 = true →
      (len ≤ 4096 → bs.length = len → memReadN u (moverOf n) (areaAt b.prog.cur) len = (u, bs, none) →
        ∃ t, exec (.stageInComplete m) s = .next t ∧ (t.sub n).prog.phase = .waitCore ∧ (t.sub n).prog.stage = some (buf, len) ∧
          (t.te te).waitq = (s.te te).waitq ++ [n] ∧ (t.te te).stageAlt = !(s.te te).stageAlt ∧
          (∀ i, i < len → cellGet t.mem (0x810000000 + 0x20000 * te + 0x10000 + buf + i) = nth 0 bs i) ∧
          (∀ a, a < 0x810000000 + 0x20000 * te + 0x10000 + buf ∨ 0x810000000 + 0x20000 * te + 0x10000 + buf + len ≤ a →
            cellGet t.mem a = cellGet s.mem a)) ∧
      (4096 < len → RunsFull s n → b.attr.errSafe = false → b.cue = false → b.prog.cur.pci = false →
        ∃ t, exec (.stageInComplete m) s = .next t ∧ t.mem = s.mem ∧ EndsWith s t n { cswProg s n with
          dstat := b.prog.dstat, cstat := b.prog.cstat ||| 4, detail := 0x010D, resid := len }))) ∧
  (∀ (s : State) (m : Fin 4096) (buf len : Nat) (gs : List Nat) (g : Seg) (w : State),
    let n := m.val
    let b := s.sub n
    let s0 := s.modSub n fun x => { x with mover := gs }
    let bs := (List.range len).map fun i => cellGet s.mem (0x810000000 + 0x20000 * b.attr.owner + 0x10000 + buf + i)
    b.mover = b.gen.toNat :: gs → b.prog.phase = .stageOut → b.prog.stage = some (buf, len) → b.attr.owner < 64 → b.prog.work.segs = [g] →
    g.skp = false → g.asel = 0 → g.len = len → 0 < len → s.posted = [] →
    memWriteN s0 (moverOf n) { asel := g.asel, addr := g.addr } bs = (w, len, none) →
    exec (.stageOutComplete m) s = .next (w.modSub n fun x => { x with prog := { x.prog with phase := .commitReq } })) ∧
  (∀ (s : State) (te : Fin 64) (n : Nat), (s.te te.val).running = some n → (s.te te.val).builtin = false → (s.dbg te.val).halted = false →
    n < 4096 → (s.sub n).attr.owner = te.val → (s.sub n).prog.phase = .onCore → (s.sub n).st = .active → RunsFull s n →
    (s.sub n).attr.errSafe = false → (s.sub n).cue = false →
    (s.sub n).prog.cur.pci = false → (s.sub n).prog.direct = [] → (s.te te.val).st ≠ .retiring → ∃ t, exec (.budgetExpiry te) s = .next t ∧
      EndsWith s t n { cswProg s n with
        dstat := (s.sub n).prog.dstat, cstat := (s.sub n).prog.cstat ||| 0x800, detail := 0x0317, resid := (s.sub n).prog.resid } ∧
      (t.te te.val).faultCause = 0x17 ∧ (t.te te.val).faultAddr = 0 ∧ (t.te te.val).faultSub = n ∧ (t.te te.val).running = none ∧ (t.te te.val).held = {} ∧
      t.mem = s.mem ∧ t.pins = s.pins) ∧
  (∀ (s : State) (te : Fin 64) (n w : Nat), 16 ≤ (s.te te.val).slots.length → n ∈ (s.te te.val).slots → n < 4096 → KeysRise s.subs →
    (s.sub w).attr.owner = te.val → wantsCtx (s.sub w) = true → (s.sub n).resident = true → (s.sub n).attr.owner = te.val →
    (s.sub n).prog.phase = .waitev → (s.sub n).attr.sticky = false → s.mig.busy = false → (s.te te.val).st = .inService →
    (s.sub n).waitAt.toNat + 1000 * fld (s.reg 0x304) 23 16 ≤ s.now.toNat →
    (∀ m, m ≠ n → (s.sub m).prog.phase ≠ .waitev) → ∃ t, exec (.swapOutComplete te) s = .next t ∧ (t.sub n).resident = false ∧
      (t.te te.val).slots = (s.te te.val).slots.filter (· != n) ∧ (t.te te.val).swapCnt = (s.te te.val).swapCnt + 1 ∧
      (t.sub n).prog = { (s.sub n).prog with pre := [] } ∧ (t.sub n).wmark = (s.sub n).wmark ∧ (∀ m, m ≠ n → (t.sub m).attr = (s.sub m).attr)) ∧
  (∀ (s : State) (who : Initiator) (te : Fin 64) (cls : Fin 64) (code : Byte) (ca all : Bool),
    Writes s who (0x30010 + 0x100 * te.val) (BitVec.ofNat 32 ((if all = true then 2 ^ 31 else 0) + (if ca = true then 2 ^ 30 else 0) +
      256 * cls.val + code.toNat)) → ∃ t, exec (.teDispInval who te cls code ca all) s = .next t ∧ { t with tes := s.tes } = s ∧
      (∀ j, j ≠ te.val → t.te j = s.te j) ∧ { t.te te.val with dcache := (s.te te.val).dcache, auth := (s.te te.val).auth } = s.te te.val ∧
      (t.te te.val).dcache = (s.te te.val).dcache.filter (fun d =>
        decide (¬(all = true ∨ (d.cls = cls.val ∧ (ca = true ∨ d.code = code.toNat))))) ∧
      (t.te te.val).auth = (s.te te.val).auth.filter (fun a => decide (¬(all = true ∨ (a.1 = cls.val ∧ ca = true))))) ∧
  ∀ (s : State) (who : Initiator) (cls : Fin 64) (code : Byte),
    Writes s who 0x340 (BitVec.ofNat 32 (2 ^ 31 + 256 * cls.val + code.toNat)) → MemOk s →
    let e := [s.reg 0x330, s.reg 0x334, s.reg 0x338, s.reg 0x33C]
    let slot := 0x800000000 + 0x80000 * fld (s.reg 0x300) 12 8 + 0x2000 * cls.val
    let ver := fld (peekWord s (slot + 8)) 3 0
    let good : Prop := fld (nth 0 e 0) 31 19 = 0 ∧ bitOf (nth 0 e 0) 0 = false ∧ fld (nth 0 e 1) 31 24 = 0 ∧ nth 0 e 3 = 0 ∧
      (bitOf (nth 0 e 0) 16 = true → fld (nth 0 e 0) 15 0 + fld (nth 0 e 2) 31 16 ≤ 0x10000 ∧ fld (nth 0 e 1) 23 0 ≠ 0)
    let coded : Prop := code.toNat = 0x10 ∨ code.toNat = 0x11 ∨ code.toNat = 0x13 ∨ (0x20 ≤ code.toNat ∧ code.toNat ≤ 0xEF)
    (¬good ∨ ¬coded ∨ oldSegs s cls.val ≠ 0 → exec (.devDispCmd who cls code) s = .next (s.modDisp fun d => { d with result := 1 })) ∧
    (good → coded → oldSegs s cls.val = 0 → ∃ t, exec (.devDispCmd who cls code) s = .next t ∧ t.disp = { cls := cls.val, result := 0 } ∧
      (∀ i, i < 4 → peekWord t (slot + 32 * code.toNat + 4 * i) = nth 0 e i ∧
        peekWord t (slot + 32 * code.toNat + 16 + 4 * i) = peekWord s (slot + 32 * code.toNat + 4 * i)) ∧
      fld (peekWord t (slot + 8)) 3 0 = (ver + 1) % 16 ∧ fld (peekWord t (slot + 8)) 15 8 = code.toNat ∧
      (∀ a, a < slot + 8 ∨ slot + 12 ≤ a → a < slot + 32 * code.toNat ∨ slot + 32 * code.toNat + 32 ≤ a →
        cellGet t.mem a = cellGet s.mem a) ∧
      (KeysRise s.subs → ∀ n, (t.sub n).old = true ↔ (s.sub n).old = true ∨ segmentOf cls.val ver (s.sub n) = true))

/-- R146, R159 to R166: the rebalancer's window, migration, retirement, a stalled engine, a spare that has loaded. -/
def Obligations.EngineCommands : Prop :=
  (∀ s : State,
   let due := s.q.rbalAt.toNat + 1000000 * (if fld (s.reg 0x304) 7 0 = 0 then 1 else fld (s.reg 0x304) 7 0)
   (s.now.toNat < due → exec .rebalancerWindow s = .next s) ∧
   (due ≤ s.now.toNat → ∃ t, exec .rebalancerWindow s = .next t ∧ { t with tes := s.tes, islands := s.islands, q := s.q } = s ∧
    t.q = { s.q with rbalAt := s.now } ∧ ∀ te, te < 64 →
    let c := s.te te
    let i := s.island te
    let m := fld (s.reg 0x308) 23 0
    let hold := if fld (s.reg 0x304) 25 24 = 0 then 1 else fld (s.reg 0x304) 25 24
    let bad : Prop := i.slow = true ∨ i.clk = 3 ∨ i.stalledInWin = true ∨ (m ≠ 0 ∧ c.demandNow = true ∧ c.winCnt < m)
    (t.te te).rate = c.winCnt ∧ (t.te te).winCnt = 0 ∧ (t.te te).demand = c.demandNow ∧
    ((t.te te).demandNow = true ↔ c.waitq ≠ [] ∨ c.rerun ≠ [] ∨ c.running ≠ none) ∧
    (bad → (t.te te).goodWins = 0 ∧ (c.st = .inService ∨ c.st = .slow → (t.te te).st = .slow)) ∧
    (¬bad → (t.te te).goodWins = c.goodWins + 1 ∧ (c.st = .inService → (t.te te).st = .inService) ∧
      (c.st = .slow → (t.te te).st = (if hold ≤ c.goodWins + 1 then .inService else .slow))) ∧
    (c.st ≠ .inService → c.st ≠ .slow → (t.te te).st = c.st))) ∧
  (∀ (s : State) (who : Initiator) (n : Fin 4096) (d : Fin 64), Writes s who 0x324 (BitVec.ofNat 32 (2 ^ 31 + 4096 * d.val + n.val)) →
    let b := s.sub n.val
    let r := if inTeMask s b.attr.cls d.val = false then 1 else if (s.te d.val).st ≠ .inService ∨ (s.dbg d.val).halted = true then 2
      else if b.st = .fenced then 3 else if b.attr.owner = d.val then 4
      else if b.attr.sticky = true ∧ 12 < stickyOf s d.val + 1 then 5 else 0
    (r ≠ 0 → ∃ t, exec (.devMigrate who n d) s = .next t ∧ t.mig.result = r ∧ t.mig.busy = false ∧ { t with mig := s.mig } = s) ∧
    (r = 0 → b.resident = false → ∃ t, exec (.devMigrate who n d) s = .next t ∧ t.mig.result = 0 ∧ t.mig.busy = false ∧
      t.sub n.val = { b with attr := { b.attr with owner := d.val } } ∧ { t with mig := s.mig, subs := s.subs } = s ∧
      ∀ m, m ≠ n.val → t.sub m = s.sub m) ∧
    (r = 0 → b.resident = true → exec (.devMigrate who n d) s =
      .next { s with mig := { busy := true, result := 0, sub := n.val, dest := d.val } })) ∧
  (∀ (s : State) (m : Fin 4096),
    let n := m.val
    let b := s.sub n
    let d := s.mig.dest
    s.mig.busy = true → s.mig.sub = n →
    (b.resident = false → exec (.migrationComplete m) s = .next
      { s.modSub n (fun x => { x with attr := { x.attr with owner := d } }) with mig := { s.mig with busy := false, result := 0 } }) ∧
    (b.resident = true → b.prog.phase = .ready ∨ b.prog.phase = .onCore → exec (.migrationComplete m) s = .next s) ∧
    (b.resident = true → b.prog.phase = .waitev ∨ b.prog.phase = .fetch → (s.te d).slots.length < 16 →
      b.attr.owner ≠ d → (s.te b.attr.owner).st = .inService → ∃ t, exec (.migrationComplete m) s = .next t ∧ t.mig.busy = false ∧
        t.mig.result = 0 ∧ (t.sub n).attr = { b.attr with owner := d } ∧ (t.sub n).prog = { b.prog with pre := [] } ∧
        (t.sub n).wmark = b.wmark ∧ (t.sub n).st = b.st ∧ (t.sub n).gen = b.gen ∧ (t.sub n).resident = true ∧
        (t.te d).slots = (s.te d).slots ++ [n] ∧ (t.te b.attr.owner).slots = (s.te b.attr.owner).slots.filter (· != n) ∧
        t.pins = s.pins ∧ t.sluice = s.sluice)) ∧
  (∀ (s : State) (who : Initiator) (te : Fin 64) (sp : Nat), Writes s who 0x320 (BitVec.ofNat 32 (2 ^ 31 + te.val)) →
    (s.te te.val).st = .inService ∨ (s.te te.val).st = .slow → (s.dbg te.val).halted = false → sp < 64 → (s.te sp).st = .spare →
    (∀ j, j < sp → (s.te j).st ≠ .spare) → ∃ t, exec (.devTeRetire who te) s = .next t ∧ (t.te te.val).spareFor = some sp ∧
      (t.te sp).st = .loading ∧ (t.te sp).dataLost = false ∧ (t.evSrc (1152 + te.val)).count ≠ 0 ∧ t.mem = s.mem ∧ t.pins = s.pins ∧
      (((s.te te.val).slots ≠ [] ∨ (s.te te.val).running ≠ none) → (t.te te.val).st = .retiring ∧ t.subs = s.subs) ∧
      ((s.te te.val).slots = [] → (s.te te.val).running = none → (t.te te.val).st = .retired ∧ (t.island te.val).clk = 0)) ∧
  (∀ (s : State) (te : Fin 64), s.posted = [] → (s.island te.val).clk = 3 → (s.te te.val).st = .inService ∨ (s.te te.val).st = .slow →
    (s.now.toNat < (s.island te.val).stallAt.toNat + 20000 → exec (.teStallRetire te) s = .next s) ∧
    ((s.island te.val).stallAt.toNat + 20000 ≤ s.now.toNat → (s.te te.val).slots = [] → ∃ t, exec (.teStallRetire te) s = .next t ∧
      (t.te te.val).st = .retired ∧ (t.te te.val).waitq = [] ∧ (t.te te.val).running = none ∧ (t.te te.val).held = {} ∧
      (t.evSrc (1152 + te.val)).count ≠ 0 ∧ t.mem = s.mem ∧
      ∀ sp, freeSpare s = some sp → (t.te te.val).spareFor = some sp ∧ (t.te sp).st = .loading ∧ (t.te sp).dataLost = true)) ∧
  ∀ (s : State) (sp : Fin 64) (te : Nat), MemOk s → te < 64 → te ≠ sp.val → (s.te sp.val).st = .loading →
    (∀ j, j < 64 → ((s.te j).spareFor = some sp.val ↔ j = te)) → (s.te te).st = .retired → (s.te te).loamImg < 64 →
    fld (s.reg 0x300) 12 8 < 31 → ((s.te te).running ≠ none → exec (.spareLoadComplete sp) s = .next s) ∧ ((s.te te).running = none → ∃ t, exec (.spareLoadComplete sp) s = .next t ∧ (t.te sp.val).st = .inService ∧
      (t.te sp.val).loamImg = (s.te te).loamImg ∧ (t.core sp.val).evbase = (s.core te).evbase ∧ t.pins = s.pins ∧
      (∀ i, i < 0x10000 → cellGet t.mem (0x810000000 + 0x20000 * sp.val + i) = cellGet s.mem (Config.retainedBase + 0x20000 * (s.te te).loamImg + i)) ∧
      (∀ i, i < 0x10000 → cellGet t.mem (0x810000000 + 0x20000 * sp.val + 0x10000 + i) = if (s.te sp.val).dataLost = true
        then cellGet s.mem (Config.retainedBase + 0x20000 * (s.te te).loamImg + 0x10000 + i)
        else cellGet s.mem (0x810000000 + 0x20000 * te + 0x10000 + i)) ∧
      ∀ cls, cls < 64 → inTeMask s cls te = true → inTeMask t cls te = false ∧ inTeMask t cls sp.val = true)

/-- R53, R215, R245, R251, R252, R255, R258: the acceptance of a commit, its stores and status, the retry window, and faults of
the commit unit. -/
def Obligations.CommitCommands : Prop :=
  (∀ (s : State) (m : Fin 4096),
    let n := m.val
    let b := s.sub n
    let outs := b.prog.held.outs
    (b.prog.phase ≠ .commitReq ∨ s.cu.pl ≠ .none → s.posted = [] → exec (.commitAccept m) s = .next s) ∧
    (b.prog.phase = .commitReq → s.cu.pl = .none → s.vote.hold = none → s.posted = [] →
      (outs = [] → exec (.commitAccept m) s = .next ((s.modCu fun c => { c with queue := c.queue ++ [n] }).modSub n fun x =>
        { x with prog := { x.prog with phase := .accepted, committed := true, direct := [] } })) ∧
      (awayOf s outs = [] → ∃ t, exec (.commitAccept m) s = .next t ∧ t.cu.queue = s.cu.queue ++ [n] ∧ t.mem = s.mem ∧
        (t.sub n).prog.phase = .accepted ∧ (t.sub n).aslot = b.aslot ∧ t.vote = s.vote ∧
        (∀ p v, (p, v) ∈ outs → p < 96 → isOutMode (pinMode s p) = true →
          (t.pin p).atSafe = true ∧ (t.pin p).value = pinSafeValue s p ∧ (t.pin p).pwmHold = none ∧ (t.pin p).fifo = []) ∧
        (∀ p, (∀ v, (p, v) ∉ outs) → p < 96 → (∀ e ∈ outs, e.1 < 96) → t.pin p = s.pin p)) ∧
      (∀ p v, outs = [(p, v)] → p < 96 → v ≠ (pinSafeValue s p).toNat → voteMode s = 0 → s.cu.safeOnly = false → s.unprov = false → s.fd.reports = [] →
        pinHeldSafe s p = false → pinMode s p ≠ modePWM → (s.pin p).pwmHold = none → ∃ t, exec (.commitAccept m) s = .next t ∧ t.cu.queue = s.cu.queue ++ [n] ∧
          t.pin p = { s.pin p with
            value := BitVec.ofNat 16 v, atSafe := BitVec.ofNat 16 v == pinSafeValue s p, latchOff := false, lost := false } ∧
          (∀ q, q ≠ p → t.pin q = s.pin q) ∧ (t.sub n).prog.phase = .accepted ∧ (t.sub n).aslot = b.aslot + 1 ∧
          tget? t.sluice n = none ∧ t.mem = s.mem ∧ t.vote = s.vote) ∧
      (awayOf s outs ≠ [] → s.cu.safeOnly = true ∨ s.unprov = true → s.vote.votes.length < 256 → b.prog.direct = [] → RunsFull s n → b.attr.errSafe = false →
        b.cue = false → b.prog.cur.pci = false → ∃ t, exec (.commitAccept m) s = .next t ∧
          t.cu = s.cu ∧ t.pins = s.pins ∧ t.mem = s.mem ∧
          EndsWith s t n { cswProg s n with
            dstat := b.prog.dstat, cstat := b.prog.cstat ||| 0x100, detail := 0x0B03, resid := b.prog.resid }))) ∧
  (∀ (s : State) (m : Fin 4096) (rest : List Nat) (e : SbEntry),
    let n := m.val
    let p := (s.sub n).prog
    s.cu.queue = n :: rest → p.held.stores = [e] → p.held.regs = [] → p.held.events = [] → p.held.mark = none → p.retries = [] →
    p.conflicts = 0 → p.cur.pci = false → p.after = none → tget? s.sluice n = none → p.work.seq = none → s.posted = [] → MemOk s →
    (s.sub n).resident = true → (s.sub n).st ≠ .fenced →
    (s.ue = [] → ∃ t, exec (.commitStoresComplete m) s = .next t ∧ t.cu.queue = rest ∧ t.cu.cnt = s.cu.cnt + 1 ∧ ReachesEnd s t n 0 p.detail ∧
      (∀ i, i < 32 → bitOf e.mask i = true → cellGet t.mem (e.blk + i) = nth 0 e.data i) ∧
      (∀ g, g < 2 → bitOf e.tags g = true → bitOf e.mask (16 * g) = true → e.blk + 16 * g ∈ t.tags) ∧ t.pins = s.pins ∧ t.regs = s.regs ∧
      (∀ a, (∀ i, i < 32 → bitOf e.mask i = true → a ≠ e.blk + i) → cellGet t.mem a = cellGet s.mem a)) ∧
    (storeRefused s e = true → ∃ t, exec (.commitStoresComplete m) s = .next t ∧ t.cu.queue = rest ∧
      (∀ i, i < 32 → bitOf e.mask i = true → cellGet t.mem (e.blk + i) = if byteRefused s e i = true then cellGet s.mem (e.blk + i) else nth 0 e.data i) ∧
      (∀ a, (∀ i, i < 32 → bitOf e.mask i = true → a ≠ e.blk + i) → cellGet t.mem a = cellGet s.mem a) ∧
      (t.sub n).prog.phase = .deviceEnd ∧ (t.sub n).prog.cstat = p.cstat ||| 0x10 ∧ (t.sub n).prog.detail = 0x0601)) ∧
  (∀ (s : State) (m : Fin 4096), s.posted = [] → s.cu.queue.head? ≠ some m.val → exec (.commitStoresComplete m) s = .next s) ∧
  (∀ s : State, (s.now.toNat < s.cu.retryAt.toNat + 1000000000 → exec .retryWindow s = .next s) ∧
   (s.cu.retryAt.toNat + 1000000000 ≤ s.now.toNat → ∃ t, exec .retryWindow s = .next t ∧ { t with tes := s.tes, cu := s.cu } = s ∧
    t.cu = { s.cu with retryAt := s.now } ∧ ∀ te, t.te te = if te < 64 then { s.te te with recovWin := 0 } else s.te te)) ∧
  (∀ (s : State) (m : Fin 4096),
    let n := m.val
    let b := s.sub n
    b.prog.phase = .commitReq → b.prog.stage = none → b.prog.retries = [] → b.st ≠ .fenced → (s.te b.attr.owner).running ≠ some n →
    s.posted = [] → ∃ t, exec (.commitUnitFault m 0) s = .next t ∧ t.cu = { s.cu with chk := satInc 255 s.cu.chk } ∧ t.mem = s.mem ∧
      t.pins = s.pins ∧ (t.sub n).prog.phase = .waitCore ∧ (t.sub n).prog.held = {} ∧ (t.sub n).prog.retries = [false] ∧
      (t.te b.attr.owner).rerun = n :: (s.te b.attr.owner).rerun ∧
      (t.te b.attr.owner).rollbacks = satInc 0xFFFF (s.te b.attr.owner).rollbacks) ∧
  (∀ (s : State) (m : Fin 4096), s.posted = [] → (s.sub m.val).prog.phase ≠ .stageOut → (s.sub m.val).prog.phase ≠ .commitReq →
    exec (.commitUnitFault m 0) s = .next s) ∧
  ∀ (s : State) (m : Fin 4096) (stage : Fin 4) (rest : List Nat) (e : SbEntry),
    let n := m.val
    let p := (s.sub n).prog
    let lost (t : State) (k : Nat) : Prop := (t.sub k).prog.phase = .deviceEnd ∧
      (t.sub k).prog.cstat = (s.sub k).prog.cstat ||| 0x100 ∧ (t.sub k).prog.detail = 0x0B03
    let goes (k : Nat) : Prop := (s.sub k).resident = true ∧ (s.sub k).st ≠ .fenced
    stage ≠ 0 → s.cu.queue = n :: rest → n ∉ rest → p.phase = .accepted → p.held.stores = [e] → p.held.regs = [] → p.held.events = [] →
    p.held.mark = none → voteMode s = 0 → s.vote.st ≠ .standby → s.sluice = [] → s.posted = [] → MemOk s →
    goes n → (stage = 2 → ∀ k ∈ rest, goes k) → ∃ t, exec (.commitUnitFault m stage) s = .next t ∧
      t.cu.queue = (if stage = 2 then [] else rest) ∧ t.cu.failed = true ∧
      t.cu.safeOnly = true ∧ (t.cu.torn = true ↔ s.cu.torn = true ∨ stage = 2) ∧ (t.evSrc 1217).count ≠ 0 ∧
      lost t n ∧ (stage = 2 → ∀ k ∈ rest, lost t k) ∧
      (∀ q, q < 96 → isOutMode (pinMode s q) = true → (t.pin q).atSafe = true ∧ (t.pin q).value = pinSafeValue s q) ∧
      (stage = 1 → t.mem = s.mem) ∧
      (stage = 3 → s.ue = [] → ∀ i, i < 32 → bitOf e.mask i = true → cellGet t.mem (e.blk + i) = nth 0 e.data i) ∧
      (∀ a, cellGet t.mem a = cellGet s.mem a ∨
        ∃ i, i < 32 ∧ bitOf e.mask i = true ∧ a = e.blk + i ∧ cellGet t.mem a = nth 0 e.data i)

/-- R16 to R19, R21, R261 to R267, R495 to R499, R505, R506, R510, R559: resets of the main die, the power-loss sequence, the supply, the thermal
monitor, the timebase, the clock of an island and its watchdog. -/
def Obligations.ResetAndSupplyCommands : Prop :=
  (∀ s : State, (dieRuns s = true → refLink s = none → exec .timebaseTick s = .next { s with now := s.now + 10 }) ∧
    (dieRuns s = false → exec .timebaseTick s = .next s)) ∧
  (∀ (s : State) (i : Fin 212) (f : BitVec 12),
    let early := (s.island i).freqAt.toNat ≤ s.now.toNat ∧ s.now.toNat < (s.island i).freqAt.toNat + 10000
    ((s.island i).clk = 0 ∨ early → exec (.islandFreqUpdate i f) s = .next s) ∧
    ((s.island i).clk ≠ 0 → ¬early → exec (.islandFreqUpdate i f) s =
      .next (s.modIsland i fun x => { x with freqAt := s.now, freq := f.toNat, slow := decide (f.toNat * 40 < nominal i * 9) })) ∧
    ((s.island i).clk = 3 → exec (.handshakeCompleteAfterStall i) s = .next (s.modIsland i fun x => { x with clk := 2 })) ∧
    ((s.island i).clk ≠ 3 → exec (.handshakeCompleteAfterStall i) s = .next s) ∧
    ((s.island i).clk = 0 → ∀ who, exec (.handshakeWatchdog i who) s = .next s) ∧
    ((s.island i).clk ≠ 0 → s.posted = [] → ∃ t, exec (.handshakeWatchdog i .nothing) s = .next t ∧ (t.evSrc 1222).count ≠ 0 ∧
      t.island i = { s.island i with
        clk := 3, wdog := true, cnt := satInc 255 (s.island i).cnt, stalledInWin := true,
        stallAt := if (s.island i).clk = 3 then (s.island i).stallAt else s.now } ∧
      ∀ j, j ≠ i.val → t.island j = s.island j)) ∧
  (∀ (s : State) (who : Initiator),
    (Writes s who 0x40C 0x80000001 → (s.cu.pl ≠ .none → exec (.warmResetRequest who) s = .next s) ∧
      (s.cu.pl = .none → s.cu.resetAsk = none → exec (.warmResetRequest who) s =
        .next (s.modCu fun c => { c with resetAsk := some { kind := .warm, last := 1 } })) ∧
      (∀ a, s.cu.resetAsk = some a → a.kind = .cold → exec (.warmResetRequest who) s = .next s)) ∧
    (Writes s who 0x40C 0x80000002 → s.cu.pl = .none → (∀ a, s.cu.resetAsk = some a → a.kind ≠ .cold) → exec (.coldResetRequest who) s =
      .next (s.modCu fun c => { c with resetAsk := some { kind := .cold, last := 2 } }))) ∧
  (∀ (s : State) (ns : Nat),
    let a : ResetAsk := if ns ≤ 1000000 then { kind := .warm, last := 1 } else { kind := .cold, last := 2 }
    (s.boot.st = .off ∨ ns < 1000 → exec (.resetPinLow ns) s = .next s) ∧
    (s.boot.st ≠ .off → s.cu.pl = .none → s.cu.resetAsk = none → 1000 ≤ ns → exec (.resetPinLow ns) s =
      .next (s.modCu fun c => { c with resetAsk := some a }))) ∧
  (∀ s : State, (s.cu.resetAsk = none → exec .mainDieReset s = .next s) ∧
    ∀ (k : ResetKind) (l : Nat), s.cu.resetAsk = some { kind := k, last := l } → s.boot.st ≠ .off → s.cu.pl = .none →
      (k = .warm → s.cu.queue ≠ [] → exec .mainDieReset s = .next s) ∧
      (k = .cold ∨ s.cu.queue = [] → ∃ t, exec .mainDieReset s = .next t ∧ t.cu.lastReset = l ∧ t.cu.queue = [] ∧ t.cu.resetAsk = none ∧
        t.subs = [] ∧ t.pins = [] ∧ t.tes = [] ∧ t.cores = [] ∧ t.tags = [] ∧ t.now = 0 ∧ t.sluice = [] ∧ t.hostMem = s.hostMem ∧
        t.fuses.keys = s.fuses.keys ∧ t.fuses.revoked = s.fuses.revoked ∧ t.fuses.floor = s.fuses.floor ∧ t.fuses.lock = s.fuses.lock ∧
        t.supply.clampCnt = s.supply.clampCnt ∧ t.supply.plossSeen = s.supply.plossSeen ∧ t.supply.teMhz = 600 ∧
        (s.boot.st = .fieldTest → t.boot.st = .fieldTest) ∧
        (s.boot.st ∈ [.resetWait, .memory, .reading, .auth, .apply, .forming] → t.boot.st = .resetWait ∧ t.fd.fdPass = s.fd.fdPass ∧
          ∀ b, (t.bank b).failed = (s.bank b).failed) ∧
        (s.boot.st ∈ [.ready, .stopped] → t.boot.st = if k = .warm then .resetWait else .fieldTest) ∧
        (k = .warm → t.boot.warm = true ∧ t.cu.basinUnverified = true ∧ t.cu.dramRetained = true ∧
          ((∀ n, (s.sub n).prog.direct = []) → ∀ a, cellGet t.mem a = if keptAddr s a = true then cellGet s.mem a else 0)) ∧
        (k = .cold → t.boot.warm = false ∧ t.cu.dramRetained = false ∧ t.mem = []))) ∧
  (∀ (s : State) (c : Fin 4),
    let e := if bitOf (s.reg 0x414) 9 = true then c.val else c.val % 2
    (s.boot.st = .off ∨ s.cu.pl ≠ .none ∨ e = 0 → exec (.powerLossDetect c) s = .next s) ∧
    (s.boot.st ≠ .off → s.cu.pl = .none → e ≠ 0 → s.sluice = [] → (∀ x ∈ s.subs, unaccepted x.2 = false) →
      ∃ t, exec (.powerLossDetect c) s = .next t ∧ t.boot.ready = false ∧ t.supply.plossSeen = true ∧ t.mem = s.mem ∧ t.subs = s.subs ∧
        t.cu = { s.cu with
          pl := if s.ready = true then .commits else .done, plCause := e, plDet := s.now, plLast := 0, plCommits := 0, plAbandoned := 0 } ∧
        ∀ q, t.pin q = if q < 96 ∧ isOutMode (pinMode s q) = true then { s.pin q with
          value := pinSafeValue s q, atSafe := true, pwmHold := none, fifo := [], duty := 0, dutyNext := none } else s.pin q)) ∧
  (∀ s : State,
    let r := fld (s.reg 0x414) 8 1
    (s.cu.pl ≠ .commits ∨ s.cu.queue ≠ [] ∨ voidsDue s = true → exec .powerLossCommitsComplete s = .next s) ∧
    (s.cu.pl = .commits → s.cu.queue = [] → voidsDue s = false → bitOf (s.reg 0x414) 0 = false → (∀ x ∈ s.silt.drv, x.2.st ≠ .ready) →
      exec .powerLossCommitsComplete s = .next (s.modCu fun c => { c with pl := .flush })) ∧
    (s.cu.pl = .commits → s.cu.queue = [] → voidsDue s = false → bitOf (s.reg 0x414) 0 = true → arValid s r = true → arState s r = 2 → MemOk s →
      ∃ t x, exec .powerLossCommitsComplete s = .next t ∧ t.cu = { s.cu with pl := .journal } ∧ t.silt.recs = s.silt.recs ++ [x] ∧
        x.ring = r ∧ x.seq = arNext s r ∧ x.mark = true ∧ x.world = arWorld s r) ∧
    (s.cu.pl ≠ .journal → exec .journalWriteComplete s = .next s) ∧
    (s.cu.pl = .journal → journalRec s r = none → (∀ x ∈ s.silt.drv, x.2.st ≠ .ready) → exec .journalWriteComplete s =
      .next (s.modCu fun c => { c with pl := .flush })) ∧
    (∀ x, journalRec s r = some x → x.issued = false ∨ payloadLeft s r x.seq = true ∨ (recsOf s r).head? ≠ some x →
      exec .journalWriteComplete s = .next s) ∧
    (s.cu.pl = .journal → ∀ x xs, recsOf s r = x :: xs → x.sub = 4096 → x.ring = r → x.issued = true → payloadLeft s r x.seq = false → ∃ t, exec .journalWriteComplete s = .next t ∧
      t.cu.pl = .flush ∧ t.cu.plJournal = true ∧ ∀ z ∈ t.silt.recs, z ∈ s.silt.recs ∧ ¬(z.ring = r ∧ z.seq = x.seq)) ∧
    (s.cu.pl = .none ∨ s.cu.pl = .dead → exec .powerLossReset s = .next s) ∧
    (s.cu.pl ≠ .none → s.cu.pl ≠ .dead → ∃ t, exec .powerLossReset s = .next t ∧ t.cu.pl = .dead ∧ t.boot.st = .off ∧ t.mem = [] ∧
      t.hostMem = s.hostMem ∧ t.subs = [] ∧ t.fuses.keys = s.fuses.keys ∧ t.supply.plossSeen = s.supply.plossSeen) ∧
    (s.cu.pl ≠ .dead ∨ s.supply.shut = true → exec .powerLossRestart s = .next s) ∧
    (s.cu.pl = .dead → s.supply.shut = false → ∃ t, exec .powerLossRestart s = .next t ∧ t.cu.pl = .none ∧ t.cu.lastReset = 3 ∧
      t.boot.st = .fieldTest ∧ t.mem = [])) ∧
  (∀ s : State, (s.boot.st ≠ .off → exec .supplyGood s = .next s) ∧
    (s.boot.st = .off → ∃ t, exec .supplyGood s = .next t ∧ t.boot.st = .fieldTest ∧ t.cu.lastReset = 0 ∧ t.hostMem = s.hostMem ∧
      t.supply = { diodeOn := s.supply.diodeOn, clamp := s.supply.clamp, railGood := 15 }) ∧
    (∃ t, exec .surgeLimitEngage s = .next t ∧ { t with supply := s.supply } = s ∧ t.supply.clamp = true ∧
      (s.supply.clamp = false → t.supply.clampSeen = true ∧ t.supply.clampCnt = Nat.min 255 (s.supply.clampCnt + 1))) ∧
    exec .surgeLimitRelease s = .next { s with supply := { s.supply with clamp := false } } ∧
    (s.supply.clamp = true → exec .surgeLimiterOpen s =
      .next { s with supply := { s.supply with clamp := false, clampOpen := true, diodeOn := false } }) ∧
    exec .idealDiodeOn s = .next { s with supply := { s.supply with diodeOn := true } } ∧
    exec .railStart s = .next { s with supply := { s.supply with railGood := 15, low := false } } ∧
    exec .vbulkBelow3v s = .next { s with supply := { s.supply with low := true, railGood := 0 } }) ∧
  ∀ (s : State) (x : BitVec 11) (src : Fin 68) (te : Fin 64),
    let w : Int := 4 * (fld (s.reg 0x90104) 7 0 : Nat)
    let h : Int := 4 * (fld (s.reg 0x90104) 15 8 : Nat)
    let noted (k : Nat) : Supply := { s.supply with
      tmax := x, tsrc := k, warn := s.supply.warn && !decide (x.toInt < w - 20), stopping := s.supply.stopping && decide (488 ≤ x.toInt) }
    let raises (t : State) (u : Supply) : Prop := t.supply = u ∧ EventFrame { s with supply := u } t ∧ (t.evSrc 1220).count ≠ 0
    let early : Prop := s.supply.stepAt.toNat ≤ s.now.toNat ∧ s.now.toNat < s.supply.stepAt.toNat + 1000000
    let held : Prop := s.supply.stopAt.toNat ≤ s.now.toNat ∧ s.now.toNat < s.supply.stopAt.toNat + 1000000
    (dieRuns s = true →
      (early → exec (.thermalThrottleStep x src) s = .next { s with supply := noted src.val }) ∧
      (w ≤ x.toInt → s.supply.warn = false → ∃ t, exec (.thermalWarn x src) s = .next t ∧ raises t { noted src.val with warn := true }) ∧
      (x.toInt < w ∨ s.supply.warn = true → exec (.thermalWarn x src) s = .next { s with supply := noted src.val }) ∧
      (h ≤ x.toInt → ¬early →
        let u : Supply := { noted src.val with stepAt := s.now, throt := true, teMhz := Nat.max 480 (s.supply.teMhz - 20) }
        (s.supply.throt = false → ∃ t, exec (.thermalThrottleStep x src) s = .next t ∧ raises t u) ∧
        (s.supply.throt = true → exec (.thermalThrottleStep x src) s = .next { s with supply := u })) ∧
      (x.toInt < h - 20 → ¬early → s.supply.throt = true → exec (.thermalThrottleStep x src) s = .next { s with
        supply := { noted src.val with
          stepAt := s.now, teMhz := Nat.min 600 (s.supply.teMhz + 20), throt := decide (s.supply.teMhz + 20 < 600) } }) ∧
      (h - 20 ≤ x.toInt → x.toInt < h → exec (.thermalThrottleStep x src) s = .next { s with supply := noted src.val }) ∧
      (x.toInt < 488 ∨ 480 < s.supply.teMhz ∨ held → exec (.thermalTeStop x te) s = .next { s with supply := noted te.val }) ∧
      (488 ≤ x.toInt → s.supply.teMhz ≤ 480 → ¬held → ∃ t, exec (.thermalTeStop x te) s = .next t ∧
        t.supply = { noted te.val with stopping := true, stopAt := s.now } ∧ (t.island te.val).clk = 3 ∧ (t.island te.val).wdog = true ∧
        (t.island te.val).cnt = satInc 255 (s.island te.val).cnt ∧ (∀ j, j ≠ te.val → t.island j = s.island j) ∧
        (t.evSrc 1222).count ≠ 0)) ∧
    (s.boot.st = .off ∨ x.toInt < 520 → exec (.thermalShutdown x src) s = .next s) ∧
    (s.boot.st ≠ .off → 520 ≤ x.toInt → ∃ t, exec (.thermalShutdown x src) s = .next t ∧ t.supply.thermShut = true ∧
      (s.cu.pl = .none → t.supply.shut = true ∧ t.boot.st = .off ∧ t.mem = [] ∧ t.cu.thermal = true ∧ t.cu.lastReset = 2) ∧
      (s.cu.pl ≠ .none → t.boot = s.boot ∧ t.mem = s.mem ∧ t.cu = { s.cu with resetAsk := some { kind := .cold, last := 2, thermal := true } })) ∧
    (s.supply.shut = false → exec .thermalRestart s = .next s) ∧
    (s.supply.shut = true → ∃ t, exec .thermalRestart s = .next t ∧ t.supply.shut = false ∧ t.boot.st = .fieldTest ∧ t.cu.thermal = true ∧
      t.mem = [])

/-- R12, R18, R174 to R176, R180, R181, R184, R186 to R189, R197, R198: what a field pin does with an edge, a wetting pulse, a conversion, a
period boundary, an audio sample, a diagnostic, the loss of its keep-alive and the loss of the die-to-die link, and what reports a fault. -/
def Obligations.FieldPinCommands : Prop :=
  (∀ (s : State) (n : Fin 96), s.sluice = [] → ∃ t, exec (.keepaliveLoss n) s = .next t ∧ { t with pins := s.pins, fd := s.fd } = s ∧
    (∀ m, m ≠ n.val → t.pin m = s.pin m) ∧
    (isOutMode (pinMode s n) = true → t.pin n = { s.pin n with
      value := pinSafeValue s n, atSafe := true, lost := true, pwmHold := none, fifo := [], duty := 0, dutyNext := none }) ∧
    (isOutMode (pinMode s n) = false → t = s)) ∧
  (∀ s : State, s.boot.st ≠ .off → voteMode s = 0 → s.posted = [] → s.sluice = [] → bitOf (s.reg Reg.pinStormBase) 0 = false →
    (∀ n, (s.sub n).prog.phase ≠ .sampling ∧ builtinRuns s n 0x11 = false) →
    ∃ t, exec .linkFrameLossSafe s = .next t ∧ { t with pins := s.pins, fd := s.fd } = s ∧ t.fd.linkLost = true ∧
      ∀ n, n < 96 → t.pin n = if isOutMode (pinMode s n) = true then { s.pin n with
        value := pinSafeValue s n, atSafe := true, pwmHold := none, fifo := [], duty := 0, dutyNext := none } else s.pin n) ∧
  (∀ (s : State) (q : Fin 96) (level : Bool) (t : DWord),
    let n := q.val
    let p := s.pin n
    let m := pinMode s n
    let e := fld (s.reg (0x40000 + 0x40 * n)) 20 19
    let c : Word := if m = 8 ∧ level = true then p.fq + 1 else p.fq
    let pass := t.toNat + 40 * 2 ^ fld (s.reg (0x40000 + 0x40 * n)) 24 21
    let u := s.modPin n fun x => { x with inLevel := level, edgeAt := t, fq := c, code := if m = 8 then c.setWidth 16 else x.code }
    ((m ≠ 1 ∧ m ≠ 8) ∨ p.inLevel = level ∨ (s.bank (n / 8)).failed = true ∨ s.now.toNat < pass → exec (.pinEdgeAccept q level t) s = .next s) ∧
    (m = 1 ∨ m = 8 → p.inLevel ≠ level → (s.bank (n / 8)).failed = false → pass ≤ s.now.toNat →
      ((level = true ∧ (e = 1 ∨ e = 3)) ∨ (level = false ∧ 2 ≤ e) → exec (.pinEdgeAccept q level t) s = 
        .next (raiseEventAt u (1024 + n) (BitVec.ofNat 64 pass))) ∧
      ((level = true ∧ (e = 0 ∨ e = 2)) ∨ (level = false ∧ e < 2) → exec (.pinEdgeAccept q level t) s = .next u))) ∧
  (∀ (s : State) (q : Fin 96) (mv : Nat),
    let n := q.val
    let cfg := s.reg (0x40000 + 0x40 * n)
    let lo := 2000 * fld (s.reg (0x40004 + 0x40 * n)) 27 24
    let hi := 2000 * fld (s.reg (0x40004 + 0x40 * n)) 31 28
    let u := s.modPin n fun x => { x with wetAt := s.now }
    (pinMode s n ≠ 1 ∨ bitOf cfg 25 = false ∨ bitOf cfg 26 = true ∨ s.now.toNat % 2000000 / 20000 ≠ n ∨
      (s.bank (n / 8)).failed = true →
      exec (.wettingPulse q mv) s = .next s) ∧
    (pinMode s n = 1 → bitOf cfg 25 = true → bitOf cfg 26 = false → s.now.toNat % 2000000 / 20000 = n →
      (s.bank (n / 8)).failed = false →
      (bitOf cfg 28 = false ∨ bitOf (s.reg (0x40020 + 0x40 * n)) 2 = false → exec (.wettingPulse q mv) s = .next u) ∧
      (bitOf cfg 28 = true → bitOf (s.reg (0x40020 + 0x40 * n)) 2 = true →
        (lo ≤ mv → mv ≤ hi → exec (.wettingPulse q mv) s =
          .next (u.modPin n fun x => { x with active := setBit x.active 2 false })) ∧
        (mv < lo ∨ hi < mv →
          let v := u.modPin n fun x => { x with active := setBit x.active 2 true }
          (bitOf (s.pin n).active 2 = true → exec (.wettingPulse q mv) s = .next v) ∧
          (bitOf (s.pin n).active 2 = false → exec (.wettingPulse q mv) s =
            .next (v.modFd fun f => { f with reports := f.reports ++ [⟨n, 3, s.now, false⟩] })))))) ∧
  (∀ (s : State) (b : Fin 12) (k : Fin 8) (code : Half) (bad : Bool),
    let src := fld (s.reg (0x42004 + 0x40 * b.val)) (4 * k.val + 3) (4 * k.val)
    let n := 8 * b.val + src
    let v : Half := if pinMode s n = 8 then (s.pin n).code else if pinMode s n = 4 then 0 else code
    let w := s.modBank b.val fun x => { x with convAt := s.now }
    let u := if pinMode s n = 8 then w else w.modPin n fun x => { x with code := v, calset := (s.bank b.val).calset }
    let c := (s.bank b.val).convAt.toNat
    let ends : Prop := (s.now.toNat + 10000 - 625 * (k.val + 1)) % 5000 ≤ 100 ∧ ¬(c ≤ s.now.toNat ∧ s.now.toNat < c + 110)
    s.posted = [] →
    ((s.bank b.val).failed = true ∨ 8 < src ∨ ¬ends → exec (.adcSlotConversion b k ⟨code, bad⟩) s = .next s) ∧
    ((s.bank b.val).failed = false → ends → src = 8 →
      let h := w.modBank b.val fun x => { x with house := if x.calRun = true then satInc 800 x.house else x.house }
      let f := h.modBank b.val fun x => { x with invalid := true, refBad := true, calBad := x.calRun }
      (bad = false → exec (.adcSlotConversion b k ⟨code, bad⟩) s = .next h) ∧
      (bad = true → (s.bank b.val).refBad = true → exec (.adcSlotConversion b k ⟨code, bad⟩) s = .next f) ∧
      (bad = true → (s.bank b.val).refBad = false → ∃ p, p / 8 = b.val ∧ exec (.adcSlotConversion b k ⟨code, bad⟩) s =
        .next ((f.setFreeCtr (s.freeCtr + 1)).modFd fun x => { x with reports := x.reports ++ [⟨p, 11, s.now, false⟩] }))) ∧
    ((s.bank b.val).failed = false → ends → src < 8 → KeysRise s.subs → (∀ x ∈ s.subs, x.2.prog.phase ≠ .sampling) →
      ∃ t, exec (.adcSlotConversion b k ⟨code, bad⟩) s = .next t ∧ { t with subs := s.subs } = u ∧ ∀ j,
        let p := (s.sub j).prog
        let begins := p.phase = .onCore ∧ p.work.begun = true ∧ p.first.code = 0x11 ∧
          p.snap.time.toNat < 5000 * ((s.now.toNat - 625 * k.val) / 5000)
        (¬begins → t.sub j = s.sub j) ∧
        (begins → t.sub j = { s.sub j with prog := { p with work := { p.work with prove := p.work.prove.map fun it =>
          if it.pin = n ∧ it.n < p.work.interval then { it with sum := it.sum + v.toInt, n := it.n + 1 } else it } } }))) ∧
  (∀ (s : State) (q : Fin 96) (v : Half),
    let n := q.val
    let pwm := s.reg (0x4000C + 0x40 * n)
    let early (at_ : DWord) (ns : Nat) : Prop := at_.toNat ≤ s.now.toNat ∧ s.now.toNat < at_.toNat + ns
    let per := fld pwm 23 0 * (if bitOf pwm 24 = true then 1000 else 10)
    let within : Prop := 10 < (s.now.toNat + per - fld pwm 31 25 * per / 128 % per) % per
    (pinMode s n ≠ 7 ∨ within → exec (.pwmPeriodBoundary q) s = .next s) ∧
    (pinMode s n = 7 → ¬within → (s.pin n).pwmHold = none → exec (.pwmPeriodBoundary q) s =
      .next (s.modPin n fun x => { x with duty := x.dutyNext.getD x.duty, dutyNext := none })) ∧
    (pinMode s n = 7 → ¬within → (s.pin n).pwmHold = some v → pinHeldSafe s n = false →
      s.sluice = [] ∨ (∃ k ts, s.sluice = [(k, ⟨[], ts, true, [n], false⟩)] ∧ (s.sub k).prog.phase = .sluice ∧ (s.sub k).prog.committed = true) →
      ∃ t, exec (.pwmPeriodBoundary q) s = .next t ∧
      t.pin n = { s.pin n with
        value := v, pwmHold := none, atSafe := false, dutyNext := none,
        duty := if pinAudio s n = false then 0 else if (s.pin n).value = 0 then 32768 else (s.pin n).dutyNext.getD (s.pin n).duty } ∧
      (∀ j, j ≠ n → t.pin j = s.pin j) ∧ (s.sluice = [] → { t with pins := s.pins } = s) ∧
      (∀ k ts, s.sluice = [(k, ⟨[], ts, true, [n], false⟩)] → t.sluice = [] ∧ { t with pins := s.pins, subs := s.subs, sluice := s.sluice } = s ∧
        ReachesEnd s t k 0 0)) ∧
    (pinMode s n = 7 → ¬within → (s.pin n).pwmHold = some v → pinHeldSafe s n = true → s.sluice = [] → ∃ t,
      exec (.pwmPeriodBoundary q) s = .next t ∧ { t with pins := s.pins } = s ∧ (∀ j, j ≠ n → t.pin j = s.pin j) ∧
      t.pin n = { s.pin n with value := pinSafeValue s n, atSafe := true, pwmHold := none, fifo := [], duty := 0, dutyNext := none }) ∧
    let soon : Prop := early (s.pin n).sampleAt (100000 / fld (s.reg (0x40010 + 0x40 * n)) 26 21 * 10)
    (pinMode s n ≠ 7 ∨ pinAudio s n = false ∨ (s.pin n).value = 0 ∨ soon → exec (.audioSample q) s = .next s) ∧
    (pinMode s n = 7 → pinAudio s n = true → (s.pin n).value ≠ 0 → ¬soon →
      ((s.pin n).fifo = [] → exec (.audioSample q) s = .next (s.modPin n fun x => { x with sampleAt := s.now, dutyNext := some 32768, fq := x.fq + 1 })) ∧
      (∀ y ys, (s.pin n).fifo = y :: ys →
        let d : Int := 32768 + (y.toInt * ((s.pin n).value.toNat : Int)).fdiv 65536
        exec (.audioSample q) s = .next (s.modPin n fun x => { x with sampleAt := s.now, fifo := ys, dutyNext := some (min 65535 (max 0 d)).toNat })))) ∧
  (∀ (s : State) (q : Fin 96) (k : Fin 7) (fb : Bool),
    let n := q.val
    let cfg := s.reg (0x40020 + 0x40 * n)
    let out := isOutMode (pinMode s n)
    let fatal : Prop := (k = 6 ∨ bitOf cfg (8 + k.val) = true) ∧ k ≠ 3 ∧ ¬(k = 2 ∧ pinMode s n = 1) ∧ out = true ∧
      ¬(k = 6 ∧ pinSafeOn s n = true)
    let seen (x : Pin) : Pin := { x with active := setBit x.active k.val true }
    let off (x : Pin) : Pin := { seen x with
      value := pinSafeValue s n, atSafe := true, latchOff := true, pwmHold := none, fifo := [], duty := 0, dutyNext := none }
    let report (moves : Bool) (u : State) : State := if moves = false ∧ bitOf (s.pin n).active k.val = true then u
      else u.modFd fun f => { f with reports := f.reports ++ [⟨n, k.val + 1, s.now, moves⟩] }
    (k ≠ 5 → diagApplies s n k.val = false ∨ (k ≠ 6 ∧ bitOf cfg k.val = false) ∨
      (fb = true ∧ k.val < 2 ∧ fbApplies s n = false) → exec (.diagnosticDetect q ⟨k, fb⟩) s = .next s) ∧
    (k ≠ 5 → diagApplies s n k.val = true → k = 6 ∨ bitOf cfg k.val = true →
      fb = false ∨ 2 ≤ k.val ∨ fbApplies s n = true → s.sluice = [] →
      (¬fatal → exec (.diagnosticDetect q ⟨k, fb⟩) s = .next (report false (s.modPin n seen))) ∧
      (fatal → ∃ t, exec (.diagnosticDetect q ⟨k, fb⟩) s = .next t ∧ { t with pins := s.pins } = report (!(s.pin n).atSafe) s ∧
        t.pin n = off (s.pin n) ∧ ∀ j, j ≠ n → t.pin j = s.pin j)) ∧
    (diagApplies s n 6 = false → exec (.overcurrentTrip q) s = .next s) ∧
    (diagApplies s n 6 = true → exec (.overcurrentTrip q) s = exec (.diagnosticDetect q ⟨6, fb⟩) s) ∧
    (k = 5 → s.sluice = [] → ∃ t, exec (.diagnosticDetect q ⟨k, fb⟩) s = .next t ∧ { t with pins := s.pins, banks := s.banks, fd := s.fd } = s ∧
      (t.bank (n / 8)).ot = true ∧ (∀ j, j / 8 = n / 8 → isOutMode (pinMode s j) = true → (s.bank (n / 8)).failed = false → bitOf (t.pin j).active 5 = true ∧
        (t.pin j).atSafe = true ∧ (t.pin j).latchOff = true ∧ (t.pin j).value = pinSafeValue s j ∧
        ((s.bank (n / 8)).ot = false ∨ (s.pin j).atSafe = false → ⟨j, 6, s.now, !(s.pin j).atSafe⟩ ∈ t.fd.reports)) ∧
      ∀ j, j / 8 ≠ n / 8 ∨ isOutMode (pinMode s j) = false ∨ (s.bank (n / 8)).failed = true → t.pin j = s.pin j) ∧
    (k ≠ 5 → exec (.diagnosticCheckPass q k) s = .next (s.modPin n fun x =>
      if k = 6 ∧ x.latchOff = true then x else { x with active := setBit x.active k.val false })) ∧
    (k = 5 → ∃ t, exec (.diagnosticCheckPass q k) s = .next t ∧ { t with pins := s.pins, banks := s.banks } = s ∧
      t.bank (n / 8) = { s.bank (n / 8) with ot := false } ∧ ∀ j, t.pin j =
        if j / 8 = n / 8 ∧ isOutMode (pinMode s j) = true ∧ (s.pin j).latchOff = false ∧ (s.bank (n / 8)).failed = false
        then { s.pin j with active := setBit (s.pin j).active 5 false } else s.pin j)) ∧
  (∀ (s : State) (q : Fin 96) (o g : Bool),
    let n := q.val
    let cfg := s.reg (0x40020 + 0x40 * n)
    let per := if fld cfg 23 16 = 0 then 10 else fld cfg 23 16
    let early : Prop := (s.pin n).testAt.toNat ≤ s.now.toNat ∧ s.now.toNat < (s.pin n).testAt.toNat + 10000000 * per
    let w := s.modPin n fun x => { x with testAt := s.now }
    (isOutMode (pinMode s n) = false ∨ pinLevel s n = true ∨ (s.bank (n / 8)).failed = true ∨ early → exec (.testPulse q o g) s = .next s) ∧
    (pinMode s n = 6 → ¬early → pinLevel s n = false → (s.bank (n / 8)).failed = false → bitOf cfg 2 = true → bitOf cfg 1 = false → bitOf cfg 10 = false → s.sluice = [] →
      exec (.testPulse q o g) s = .next (if o = true
        then (w.modPin n fun x => { x with active := setBit x.active 2 true }).modFd fun f =>
          { f with reports := if bitOf (s.pin n).active 2 = true then f.reports else f.reports ++ [⟨n, 3, s.now, false⟩] }
        else w.modPin n fun x => { x with active := setBit x.active 2 false })) ∧
    (pinMode s n = 6 → ¬early → pinLevel s n = false → (s.bank (n / 8)).failed = false → bitOf cfg 2 = false → bitOf cfg 1 = true → bitOf cfg 9 = false → s.sluice = [] →
      exec (.testPulse q o g) s = .next (if g = true
        then (w.modPin n fun x => { x with active := setBit x.active 1 true }).modFd fun f =>
          { f with reports := if bitOf (s.pin n).active 1 = true then f.reports else f.reports ++ [⟨n, 2, s.now, false⟩] }
        else w.modPin n fun x => { x with active := setBit x.active 1 false }))) ∧
  (∀ (s : State) (moved : List (Fin 96)), s.sluice = [] →
    (fld (s.reg 0x43000) 23 16 = 0 → exec (.walkStep moved) s = .next s) ∧
    (fld (s.reg 0x43000) 23 16 ≠ 0 → walkNext s = none → ∃ e, e.fd = { s.fd with walkPos := 0, walkSkip := [], walkSeen := [], walkHits := [] } ∧
      { e with pins := s.pins, fd := s.fd } = s ∧
      (∀ m, (m ∈ s.fd.walkSeen ∧ m ∉ s.fd.walkHits) → e.pin m = { s.pin m with active := setBit (s.pin m).active 4 false }) ∧
      (∀ m, ¬(m ∈ s.fd.walkSeen ∧ m ∉ s.fd.walkHits) → e.pin m = s.pin m) ∧
      (walkNext e = none → exec (.walkStep moved) s = .next e) ∧
      (walkNext e ≠ none → exec (.walkStep moved) s = exec (.walkStep moved) e)) ∧
    (∀ n pos skip, fld (s.reg 0x43000) 23 16 ≠ 0 → walkNext s = some (n, pos, skip) →
      let fresh := decide (s.fd.walkSeen = [])
      let from_ := if fresh = true then s.fd.walkAt.toNat else s.fd.stepAt.toNat
      let early : Prop := from_ ≤ s.now.toNat ∧
        s.now.toNat < from_ + (if fresh = true then 100000000 * fld (s.reg 0x43000) 23 16 else 100000)
      let hit (m : Nat) : Prop := ∃ x ∈ moved, x.val = m ∧ m ≠ n ∧ walks s m = true ∧ walkOn s m = false
      let u := s.modFd fun f => { f with
        stepAt := s.now, walkAt := if fresh = true then s.now else f.walkAt, walkPos := pos, walkSkip := skip, walkSeen := n :: f.walkSeen }
      (early → exec (.walkStep moved) s = .next s) ∧
      (¬early → (∀ m, ¬hit m) → exec (.walkStep moved) s = .next (if walkNext u = none then walkEnd u else u)) ∧
      (¬early → (∃ m, hit m) → ∃ t, exec (.walkStep moved) s = .next t ∧ { t with pins := s.pins, fd := s.fd } = s ∧
        (t.fd.walkPos = pos ∨ t.fd.walkPos = 0) ∧
        (∀ m, m = n ∨ hit m → bitOf (s.reg (0x40020 + 0x40 * m)) 4 = true → bitOf (t.pin m).active 4 = true ∧
          (bitOf (s.pin m).active 4 = false → ∃ r ∈ t.fd.reports, r.pin = m ∧ r.kind = 5 ∧ r.time = s.now)) ∧
        (∀ m, m ≠ n → ¬hit m → t.pin m = s.pin m ∨
          (t.fd.walkPos = 0 ∧ t.pin m = { s.pin m with active := setBit (s.pin m).active 4 false }))))) ∧
  ∀ (s : State) (r : Report) (rs : List Report),
    let k := r.kind - 1
    let b := s.bank (r.pin / 8)
    let full : Prop := b.firstCount = 255
    (s.fd.reports = [] → exec .faultReport s = .next s) ∧
    (s.fd.reports = r :: rs → (∀ x ∈ rs, r.time.toNat < x.time.toNat ∨ (r.time = x.time ∧ r.pin ≤ x.pin)) →
      (s.now.toNat < r.time.toNat + 10000 → exec .faultReport s = .next s) ∧
      (r.time.toNat + 10000 ≤ s.now.toNat → k < 7 → bitOf (s.reg 0x43014) 0 = false →
        (suppressed s r = true → ∃ t, exec .faultReport s = .next t ∧ { t with pins := s.pins, banks := s.banks, fd := s.fd } = s ∧
          t.pin r.pin = { s.pin r.pin with count := satInc 255 (s.pin r.pin).count, supp := setBit (s.pin r.pin).supp k true } ∧
          (¬full → t.bank (r.pin / 8) = { b with firstCount := b.firstCount + 1 }) ∧ (full → t.bank (r.pin / 8) = { b with firstOvf := true }) ∧
          t.fd = { s.fd with reports := rs, ccSupp := satInc 0xFFFFFFFF s.fd.ccSupp }) ∧
        (suppressed s r = false → ∃ t, exec .faultReport s = .next t ∧ t.fd = { s.fd with reports := rs } ∧ t.mem = s.mem ∧
          t.pin r.pin = { s.pin r.pin with count := satInc 255 (s.pin r.pin).count, sticky := setBit (s.pin r.pin).sticky k true } ∧
          (r.pin < 96 → (t.evSrc (1024 + r.pin)).count ≠ 0) ∧
          (b.firstValid = false → t.bank (r.pin / 8) = { b with
            firstValid := true, firstPin := r.pin % 8, firstKind := r.kind, firstTime := r.time, firstCount := 0, firstOvf := false }) ∧
          (b.firstValid = true → ¬full → t.bank (r.pin / 8) = { b with firstCount := b.firstCount + 1 }) ∧
          (b.firstValid = true → full → t.bank (r.pin / 8) = { b with firstOvf := true }))))

/-- R191, R192, R195, R196, R200 to R202: the guard band and calibrations of a bank, common-cause conditions, and changes of pins and
scan lists in service. -/
def Obligations.FieldBankCommands : Prop :=
  (∀ (s : State) (b : Fin 12) (temp iBank : BitVec 11) (vfld : Byte),
    let x := s.bank b.val
    let g := Nat.min 255 ((1600 + 75 * (temp.toInt - x.tCal.toInt).natAbs + 16 * ((iBank.toNat : Int) - x.iCal.toNat).natAbs + 199) / 200)
    let trig := fld (s.reg (0x42000 + 0x40 * b.val)) 23 16
    let early : Prop := x.gbAt.toNat ≤ s.now.toNat ∧ s.now.toNat < x.gbAt.toNat + 100000
    let y : Bank := { x with gbAt := s.now, g := g, temp := temp, iBank := iBank, vfld := vfld.toNat, otw := decide (560 < temp.toInt) }
    (early → exec (.guardBandUpdate b temp iBank vfld) s = .next s) ∧
    (¬early → ∃ t, exec (.guardBandUpdate b temp iBank vfld) s = .next t ∧ { t with banks := s.banks } = s ∧ (∀ j, j ≠ b.val → t.bank j = s.bank j) ∧
      (trig ≠ 0 → trig < g ∨ x.invalid = true → x.calRun = false → x.failed = false →
        t.bank b.val = { y with calRun := true, calBg := true, house := 0, calBad := false }) ∧
      (trig = 0 ∨ (g ≤ trig ∧ x.invalid = false) ∨ x.calRun = true ∨ x.failed = true → t.bank b.val = y))) ∧
  (∀ (s : State) (b : Fin 12),
    let x := s.bank b.val
    let k := fld (s.reg (0x42000 + 0x40 * b.val)) 27 24
    let due : Prop := k ≠ 0 ∧ x.calDone.toNat + 100000000 * 2 ^ (k - 1) ≤ s.now.toNat
    (due → x.calRun = false → x.failed = false → exec (.backgroundCalibrationPeriod b) s =
      .next (s.modBank b.val fun y => { y with calRun := true, calBg := true, house := 0, calBad := false })) ∧
    (¬due ∨ x.calRun = true ∨ x.failed = true → exec (.backgroundCalibrationPeriod b) s = .next s)) ∧
  (∀ (s : State) (who : Initiator) (b : Fin 12), Writes s who (0x42008 + 0x40 * b.val) 2 →
    let x := s.bank b.val
    ∃ t, exec (.calGo who b) s = .next t ∧ { t with banks := s.banks } = s ∧ (∀ j, j ≠ b.val → t.bank j = s.bank j) ∧
      t.bank b.val = if x.failed = true then { x with result := 3 } else if x.calRun = true ∧ x.calBg = false then { x with result := 0 }
        else { x with result := 0, calRun := true, calBg := false, house := 0, calBad := false }) ∧
  (∀ (s : State) (b : Fin 12) (temp iBank : BitVec 11) (bad : Bool),
    let x := s.bank b.val
    (x.calRun = false ∨ x.house < 800 → exec (.calibrationComplete b temp iBank bad) s = .next s) ∧
    (x.calRun = true → 800 ≤ x.house → ∃ t,
      exec (.calibrationComplete b temp iBank bad) s = .next t ∧
      { t with banks := s.banks, pins := s.pins, fd := s.fd, freeCtr := s.freeCtr } = s ∧ (∀ j, j ≠ b.val → t.bank j = s.bank j) ∧
      t.bank b.val = { x with calRun := false, house := 0, calset := !x.calset, tCal := temp, iCal := iBank, calTime := s.now,
                              calDone := s.now, invalid := x.calBad || bad, refBad := x.calBad || bad, calBad := false, g := 8 } ∧
      (bad = false ∨ x.refBad = true → t.fd = s.fd ∧ t.freeCtr = s.freeCtr) ∧
      (bad = true → x.refBad = false → ∃ p, p / 8 = b.val ∧
        t.fd = { s.fd with reports := s.fd.reports ++ [⟨p, 11, s.now, false⟩] }) ∧
      ∀ n, t.pin n = if n / 8 = b.val then { s.pin n with gInf := false } else s.pin n)) ∧
  (∀ (s : State) (banks : BitVec 12) (gnd vin : Bool),
    let all := gnd || vin
    let hit (b : Nat) : Prop := b < 12 ∧ (all = true ∨ bitOf banks b = true)
    let safe (b : Nat) : Prop := hit b ∧ (s.bank b).failed = false ∧ bitOf (s.reg (0x42000 + 0x40 * b)) 28 = true
    (banks = 0 → all = false → exec (.commonCauseBegin banks gnd vin) s = .next s) ∧
    (banks ≠ 0 ∨ all = true → s.fd.cc.active = true → ∃ t, exec (.commonCauseBegin banks gnd vin) s = .next t ∧ { t with fd := s.fd } = s ∧
      t.fd = { s.fd with cc := { s.fd.cc with
        banks := s.fd.cc.banks ||| banks.toNat, gndofs := s.fd.cc.gndofs || gnd, vinHi := s.fd.cc.vinHi || vin,
        hit := s.fd.cc.hit ||| banks.toNat, all := s.fd.cc.all || all } }) ∧
    (banks ≠ 0 ∨ all = true → s.fd.cc.active = false → s.sluice = [] → ∃ t, exec (.commonCauseBegin banks gnd vin) s = .next t ∧
      t.fd.cc = ⟨true, banks.toNat, gnd, vin, true, s.now, banks.toNat, all, none⟩ ∧ t.fd.ccOld = ccKept s ∧ (t.evSrc 1221).count ≠ 0 ∧
      (∀ b, b < 12 → (hit b → (s.bank b).firstValid = false → t.bank b = { s.bank b with
          firstValid := true, firstPin := 0, firstKind := 8, firstTime := s.now, firstCount := 0, firstOvf := false }) ∧
        (¬hit b ∨ (s.bank b).firstValid = true → t.bank b = s.bank b)) ∧
      (∀ n, n < 96 → (safe (n / 8) → isOutMode (pinMode s n) = true → (t.pin n).atSafe = true ∧ (t.pin n).latchOff = true ∧
          (t.pin n).value = pinSafeValue s n) ∧
        (¬safe (n / 8) ∨ isOutMode (pinMode s n) = false → t.pin n = s.pin n)) ∧
      (bitOf (s.reg 0x43014) 0 = false → t.mem = s.mem) ∧
      (bitOf (s.reg 0x43014) 0 = true → s.fd.stormMs ≠ s.now.toNat / 1000000 → MemOk s → s.fd.stormIdx < 1024 → s.fd.stormSeq < 65536 →
        let a := 0x800000000 + 16384 * fld (s.reg 0x43014) 23 14 + 16 * s.fd.stormIdx
        let w2 := peekWord t (a + 8)
        let w3 := peekWord t (a + 12)
        peekWord t a = s.now.setWidth 32 ∧ peekWord t (a + 4) = (s.now >>> 32).setWidth 32 ∧ fld w2 10 0 = 1024 ∧ fld w2 15 11 = 0 ∧
        fld w2 31 16 = s.fd.stormPend % 65536 ∧ fld w3 15 0 = s.fd.stormSeq ∧
        fld w3 31 16 = (if all = true then 0xFFF else banks.toNat))) ∧
    (s.fd.cc.active = true → exec .commonCauseEnd s = .next { s with fd := { s.fd with cc := { s.fd.cc with
      active := false, banks := 0, gndofs := false, vinHi := false, ended := some s.now } } }) ∧
    (s.fd.cc.active = false → exec .commonCauseEnd s = .next s)) ∧
  (∀ (s : State) (who : Initiator) (n : Fin 96) (pair cal : Bool),
    Writes s who (0x40028 + 0x40 * n.val) (BitVec.ofNat 32 (1 + 2 * b2n pair + 4 * b2n cal)) →
    let ps := if pair = true then [n.val, n.val + 1] else [n.val]
    let off (k o : Nat) : Nat := 0x40000 + 0x40 * k + o
    let busy (w : Word) : Prop := bitOf w 6 = true ∧ (s.sub (fld w 18 7)).st ≠ .idle ∧ (s.sub (fld w 18 7)).st ≠ .suspended
    let r1 : Prop := ∃ k ∈ ps, busy (s.reg (off k 0)) ∨ busy (s.shadowReg (off k 0))
    let r2 : Prop := ∃ k ∈ ps, isOutMode (pinMode s k) = true ∧ ((s.pin k).atSafe = false ∨ pinPend s k = true)
    ∃ t, exec (.pinRecfg who n pair cal) s = .next t ∧ { t with pins := s.pins } = s ∧ (∀ k, k ≠ n.val → t.pin k = s.pin k) ∧
      (r1 → t.pin n.val = { s.pin n.val with recResult := 1 }) ∧ (¬r1 → r2 → t.pin n.val = { s.pin n.val with recResult := 2 }) ∧
      (¬r1 → ¬r2 → recfgRefusal s n.val pair ≠ 1 ∧ recfgRefusal s n.val pair ≠ 2) ∧
      (recfgRefusal s n.val pair = 0 → t.pin n.val = { s.pin n.val with recBusy := true, recResult := 0, recPair := pair, recCal := cal }) ∧
      (recfgRefusal s n.val pair ≠ 0 → t.pin n.val = { s.pin n.val with recResult := recfgRefusal s n.val pair })) ∧
  (∀ (s : State) (n : Fin 96),
    let p := s.pin n.val
    let ps := if p.recPair = true then [n.val, n.val + 1] else [n.val]
    let offs (k : Nat) : List Nat := [0, 4, 8, 12, 16, 32].map fun o => 0x40000 + 0x40 * k + o
    (p.recBusy = false → exec (.pinRecfgComplete n) s = .next s) ∧
    (p.recBusy = true → ∃ t, exec (.pinRecfgComplete n) s = .next t ∧ { t with regs := s.regs, pins := s.pins, banks := s.banks } = s ∧
      (t.pin n.val).recBusy = false ∧ (∀ k ∈ ps, (t.pin k).active = 0 ∧ (t.pin k).atSafe = true ∧
        ((t.pin k).gInf = true ↔ pinMode t k = 2 ∨ pinMode t k = 3) ∧ ∀ o ∈ offs k, t.reg o = s.shadowReg o) ∧
      (∀ k, k ∉ ps → t.pin k = s.pin k) ∧ (∀ o, (∀ k ∈ ps, o ∉ offs k) → t.reg o = s.reg o) ∧
      (p.recCal = true → (s.bank (n.val / 8)).failed = false → t.bank (n.val / 8) = { s.bank (n.val / 8) with calRun := true, calBg := false, house := 0, calBad := false }) ∧
      (p.recCal = false ∨ (s.bank (n.val / 8)).failed = true → t.banks = s.banks))) ∧
  (∀ (s : State) (who : Initiator) (b : Fin 12), Writes s who (0x42008 + 0x40 * b.val) 1 →
    let new := s.shadowReg (0x42004 + 0x40 * b.val)
    let at_ (w : Word) (k : Nat) : Nat := fld w (4 * k + 3) (4 * k)
    let ok : Prop := (∀ k, k < 8 → at_ new k ≤ 8 ∨ at_ new k = 15) ∧ (∃ k, k < 8 ∧ at_ new k = 8) ∧
      ∀ j k, j < k → k < 8 → at_ new j < 8 → at_ new j ≠ at_ new k
    let x := s.bank b.val
    ∃ t, exec (.scanGo who b) s = .next t ∧ { t with banks := s.banks } = s ∧ (∀ j, j ≠ b.val → t.bank j = s.bank j) ∧
      (x.failed = true → t.bank b.val = { x with result := 3, scanBusy := false, scanAt := s.now }) ∧
      (x.failed = false → ¬ok → t.bank b.val = { x with result := 1, scanBusy := false, scanAt := s.now }) ∧
      (x.failed = false → ok → (∀ y ∈ s.subs, y.2.prog.phase ≠ .sampling) → t.bank b.val = { x with result := 0, scanBusy := true, scanAt := s.now })) ∧
  ∀ (s : State) (b : Fin 12),
    let boundary : Prop := (s.bank b.val).scanAt.toNat / 5000 < s.now.toNat / 5000
    ((s.bank b.val).scanBusy = false ∨ ¬boundary → exec (.scanListApply b) s = .next s) ∧
    ((s.bank b.val).scanBusy = true → boundary → ∃ t, exec (.scanListApply b) s = .next t ∧ { t with regs := s.regs, banks := s.banks, pins := s.pins } = s ∧
      (∀ j, let m := pinMode s j
        let none0 : Prop := j / 8 = b.val ∧ m ≠ 2 ∧ m ≠ 3 ∧ m ≠ 8 ∧
          (m = 4 ∨ ∀ k, k < 8 → fld (s.shadowReg (0x42004 + 0x40 * b.val)) (4 * k + 3) (4 * k) ≠ j % 8)
        (none0 → t.pin j = { s.pin j with code := 0 }) ∧ (¬none0 → t.pin j = s.pin j)) ∧
      t.reg (0x42004 + 0x40 * b.val) = s.shadowReg (0x42004 + 0x40 * b.val) ∧ (∀ o, o ≠ 0x42004 + 0x40 * b.val → t.reg o = s.reg o) ∧
      t.bank b.val = { s.bank b.val with scanBusy := false } ∧ ∀ j, j ≠ b.val → t.bank j = s.bank j)

/-- R208 to R214, R216, R219 to R225, R231 to R233, R236, R237: frames and links, the answers that decide a vote, the actuation
instant, exclusion, formation, and rejoin. -/
def Obligations.VoteCommands : Prop :=
  let took (s : State) (k : Nat) (rest : List CflRec) : State := s.modCfl k fun c => { c with rx := rest }
  let ahead (s : State) (set : List Nat) (d : Nat) : Prop :=
    (∀ p ∈ set, reaches s p = true → (s.cfl (posLink s p)).off ≤ d) ∧
      (d = 0 ∨ ∃ p ∈ set, reaches s p = true ∧ (s.cfl (posLink s p)).off = d)
  (∀ s : State, (s.vote.sentCyc = some (s.now.toNat / 64) ∨ s.cu.pl ≠ .none → exec .cflFrameSend s = .next s) ∧
    (s.vote.sentCyc ≠ some (s.now.toNat / 64) → s.cu.pl = .none → s.vote.rejoin.joiner = none → ∃ t, exec .cflFrameSend s = .next t ∧
      { t with vote := s.vote, cfls := s.cfls } = s ∧ t.vote.sentCyc = some (s.now.toNat / 64) ∧ ∀ k, k < 3 →
        let c := s.cfl k
        (c.st ≠ 2 → t.cfl k = c) ∧
        (c.st = 2 → c.digQ = [] → c.echoQ = [] → c.ctlQ = [] → ∃ f, t.cfl k = { c with tx := some f, ctlSeq := c.ctlSeq % 65536 } ∧ f.crcOk = true ∧
          f.cyc = s.now.toNat / 64 ∧ f.pos = myPos s ∧ f.mstate = mstCode s.vote.st ∧ f.lock = s.vote.lock ∧
          f.hash = s.reg (0x60060 + 4 * (s.now.toNat / 64 % 8)) ∧ f.digests = [] ∧ f.echoes = []) ∧
        (∀ key v d, c.st = 2 → c.digQ = [key] → c.echoQ = [] → c.ctlQ = [] → voteOf s key = some v → v.own = some d → v.ownFirst = none →
          v.ready.toNat + 4 ≤ s.now.toNat / 64 * 64 → key.sub < 4096 → key.gen < 16 → key.aslot < 65536 → ∃ f r, t.cfl k = { c with tx := some f, digQ := [], ctlSeq := c.ctlSeq % 65536 } ∧
            f.digests = [r] ∧ r.ty = 1 ∧ r.key = key ∧ r.value = d ∧ r.first = s.now.toNat / 64 % 16384 ∧
            ∃ u, voteOf t key = some u ∧ u.ownFirst = some (s.now.toNat / 64) ∧ u.own = some d))) ∧
  (∀ (s : State) (k : Fin 3) (f : CflFrame), s.posted = [] →
    let c := s.cfl k.val
    let p := (myPos s + k.val + 1) % 4
    (c.st ≠ 2 → exec (.cflFrameReceive k f) s = .next s) ∧
    (c.st = 2 → f.crcOk = false → exec (.cflFrameReceive k f) s = .next (s.modCfl k.val fun x => { x with crc := satInc 0xFFFF x.crc })) ∧
    (c.st = 2 → f.crcOk = true →
      (f.pos ≠ p ∨ f.hash ≠ s.reg (0x60060 + 4 * (f.cyc % 8)) → s.vote.votes = [] → s.vote.rejoin.step = 0 →
        ∃ t, exec (.cflFrameReceive k f) s = .next t ∧ { t with vote := s.vote, cfls := s.cfls } = s ∧ t.vote.st = s.vote.st ∧
          t.vote.view = s.vote.view ∧ (∀ j, j ≠ k.val → t.cfl j = s.cfl j) ∧
          (f.pos ≠ p → t.cfl k.val = { c with st := 3, err := 2, peerPos := f.pos % 4 }) ∧
          (f.pos = p → t.cfl k.val = { c with st := 3, err := 1 })) ∧
      (f.pos = p → f.hash = s.reg (0x60060 + 4 * (f.cyc % 8)) → f.lock = false → s.vote.votes = [] → bitOf (s.reg 0x60000) 24 = false → voteMode s ≠ 3 →
        s.vote.view.length = 4 → ∃ t, exec (.cflFrameReceive k f) s = .next t ∧
        { t with vote := s.vote, cfls := s.cfls } = s ∧ (∀ j, j ≠ k.val → t.cfl j = s.cfl j) ∧
        t.cfl k.val = { c with
          peerPos := p, lastValid := s.now, cyc := f.cyc, uplinks := f.uplinks, rx := c.rx ++ (f.digests ++ f.echoes).filter knownRec,
          off := ((f.cyc * 64 + c.rttLast / 2 : Nat) : Int) - s.now.toNat,
          ofs := BitVec.ofInt 16 (((f.cyc * 64 + c.rttLast / 2 : Nat) : Int) - s.now.toNat) } ∧
        nth 0 t.vote.view p = (if nth 0 s.vote.view p = 4 ∧ (f.mstate = 2 ∨ f.mstate = 3) then 4 else f.mstate % 8) ∧
        t.vote.st = (if s.vote.st = .forming ∧ s.vote.entry = none ∧ f.mstate = 2 then .excluded else s.vote.st)))) ∧
  (∀ (s : State) (k : Fin 3) (r : CflRec) (rest : List CflRec), s.posted = [] → (s.cfl k.val).rx = r :: rest →
    let p := (myPos s + k.val + 1) % 4
    let key := r.key
    let b := s.sub key.sub
    let first := fullFirst s r.first
    let fresh : Prop := key.gen = b.gen.toNat ∧ s.now.toNat ≤ 64 * first + 1000000
    let stale : State := (took s k.val rest).modReach b.attr.reach fun x =>
      { x with staleCnt := satInc 0xFFFFFF x.staleCnt, staleClass := 2, staleAge := decide (key.gen = b.gen.toNat) }
    let seen : State := modVoteKey (took s k.val rest) key fun v => { v with
      echoed := if v.echoed.contains p then v.echoed else v.echoed ++ [p] }
    let known : Prop := ∃ d ∈ s.vote.dec, d.key = key
    let pair : Prop := voteMode s = 1 ∧ s.vote.promo = [] ∧ s.vote.dec = [] ∧ s.vote.st = .inService ∧
      (∀ q, q < 4 → (expected s q = true ↔ q = myPos s ∨ q = p)) ∧ viewOf s p = 2 ∧ s.vote.late.length = 4 ∧
      (∀ q, q < 4 → nth 0 s.vote.late q = 0) ∧ s.vote.lags.length = 4
    (r.ty ≠ 1 → exec (.digest k) s = .next s) ∧ (r.ty ≠ 2 → exec (.echo k) s = .next s) ∧ (r.ty ≠ 3 → exec (.absent k) s = .next s) ∧
    (r.ty = 1 → (¬fresh → exec (.digest k) s = .next stale) ∧
      (fresh → b.st = .fenced → exec (.digest k) s = .next ((took s k.val rest).modCfl k.val fun c =>
        { c with echoQ := c.echoQ ++ [mkRec 3 key false r.first 0] })) ∧
      (∀ d, fresh → b.st ≠ .fenced → s.vote.dec.find? (fun x => x.key == key) = some d →
        (p ∈ d.seen → (∀ w, d.verdict = .apply w → r.value = w) → exec (.digest k) s = .next ((took s k.val rest).modCfl k.val fun c =>
          { c with echoQ := c.echoQ ++ [mkRec 2 key (ownDigest s key).isSome r.first ((ownDigest s key).getD 0)] })) ∧
        (p ∉ d.seen → (∀ w, d.verdict = .apply w → r.value = w) → s.vote.lags.length = 4 → ∃ t, exec (.digest k) s = .next t ∧
          nth [] t.vote.lags p = ((first - d.win) * 64 :: nth [] s.vote.lags p).take 1024 ∧ t.vote.votes = s.vote.votes ∧ t.pins = s.pins) ∧
        (∀ w, d.verdict = .apply w → r.value ≠ w → s.vote.votes = [] → voteMode s ≠ 3 → s.vote.view.length = 4 → nth 0 s.vote.view p ≠ 4 →
          ∃ t, exec (.digest k) s = .next t ∧ nth 0 t.vote.view p = 4 ∧ t.vote.st = s.vote.st ∧ t.pins = s.pins ∧
            (bitOf s.vote.exclLog 31 = false → fld t.vote.exclLog 7 4 = 1 ∧ fld t.vote.exclLog 1 0 = p))) ∧
      (fresh → b.st ≠ .fenced → pair → s.vote.votes = [] → ∃ t, exec (.digest k) s = .next t ∧
        t.cfl k.val = { s.cfl k.val with rx := rest, echoQ := (s.cfl k.val).echoQ ++ [mkRec 2 key false r.first 0] } ∧
        t.vote = { s.vote with votes := [{ key := key, ans := [⟨p, some r.value, first⟩] }] } ∧ t.sluice = s.sluice ∧ t.pins = s.pins)) ∧
    (r.ty = 2 → (¬fresh → exec (.echo k) s = .next stale) ∧ (fresh → r.own = false → exec (.echo k) s = .next seen) ∧
      (∀ v d c, fresh → r.own = true → pair → s.vote.votes = [v] → v.key = key → v.own = some d → v.ownFirst = some c → v.ans = [] →
        v.verdict = none → ∃ t u, exec (.echo k) s = .next t ∧ t.vote.votes = [u] ∧ t.sluice = s.sluice ∧ t.pins = s.pins ∧ u.own = some d ∧
          u.ans = [⟨p, some r.value, first⟩] ∧
          (r.value = d → u.verdict = some (.apply d) ∧ t.vote.cntApply = s.vote.cntApply + 1 ∧
            (s.now.toNat + 10 ≤ 64 * Nat.max c first + s.vote.actOfs → u.tAct = BitVec.ofNat 64 (64 * Nat.max c first + s.vote.actOfs))) ∧
          (r.value ≠ d → u.verdict = some .disagree ∧ t.vote.cntFault = s.vote.cntFault + 1))) ∧
    (r.ty = 3 → (known → exec (.absent k) s = .next seen) ∧
      (∀ v d c, pair → s.vote.votes = [v] → v.key = key → v.own = some d → v.ownFirst = some c → v.ans = [] → v.verdict = none →
        ∃ t u, exec (.absent k) s = .next t ∧ t.vote.votes = [u] ∧ u.verdict = some .timeout ∧ t.vote.cntTmo = s.vote.cntTmo + 1))) ∧
  (∀ (s : State) (k : Fin 3) (r : CflRec) (rest : List CflRec), (s.cfl k.val).rx = r :: rest → s.posted = [] →
    let p := (myPos s + k.val + 1) % 4
    let u := took s k.val rest
    let ctl : Prop := r.ty = 5
    (r.ty = 4 → s.vote.st ≠ .rejoining ∨ fld r.w0 15 0 ≠ s.vote.rejoin.seq → exec (.transfer k) s = .next u) ∧
    (∀ (arg : Word) (body more : List Byte), (more.length < 4 ∨ fld (wordAt more 0) 7 0 ≠ 0) → r.ty = 4 → s.vote.st = .rejoining → fld r.w0 15 0 = s.vote.rejoin.seq → body.length = 256 →
      more.length < 8 → s.vote.rejoin.rx ++ wordsBytes [r.w1, r.w2, r.w3] = wordsBytes [0x00010001, arg] ++ body ++ more → MemOk s →
      ∃ t, exec (.transfer k) s = .next t ∧ t.vote.rejoin.rx = more ∧ t.vote.rejoin.seq = (s.vote.rejoin.seq + 1) % 65536 ∧
        (∀ i, i < 256 → cellGet t.mem (256 * arg.toNat + i) = nth 0 body i) ∧
        ∀ a, a < 256 * arg.toNat ∨ 256 * arg.toNat + 256 ≤ a → cellGet t.mem a = cellGet s.mem a) ∧
    (ctl → r.code = 1 → s.vote.st = .forming → s.vote.entry = none → ∃ t, exec (.joinRequest k) s = .next t ∧ p ∈ t.vote.joinSeen ∧
      { t with vote := s.vote, cfls := s.cfls } = s ∧ t.vote.st = .forming ∧
      (t.vote.entry = none ∨ ((∃ d, ahead s t.vote.formSet d ∧ t.vote.entry = some ((s.now.toNat + d) / 64 + 16)) ∧ quorum s ≤ votersOf s t.vote.formSet ∧
        t.vote.formSet.head? = some (myPos s)))) ∧
    (ctl → r.code = 1 → s.vote.st = .inService → referencePos s = some (myPos s) →
      let c := s.cfl k.val
      let no : Prop := 0 < c.off ∨ s.vote.actOfs < (ownActOfs s).1 ∨ s.vote.rejoin.step ≠ 0
      (no → exec (.joinRequest k) s = .next (u.modCfl k.val fun x => { x with ctlQ := x.ctlQ ++ [mkCtl 3 (p + 16 * 9) 0] })) ∧
      (¬no → ∃ t, exec (.joinRequest k) s = .next t ∧ t.vote.rejoin.step = 2 ∧ t.vote.rejoin.joiner = some p ∧
        (t.cfl k.val).ctlQ = c.ctlQ ++ [mkCtl 2 s.vote.actOfs (s.now.toNat / 64)] ∧
        t.vote.st = .inService ∧ t.pins = s.pins ∧ t.sluice = s.sluice)) ∧
    (ctl → r.code = 2 → s.vote.st = .forming → s.vote.entry = none → ∃ t, exec (.joinAccept k) s = .next t ∧
      t.vote.entry = some r.value.toNat ∧ t.vote.actOfs = Nat.max (ownActOfs s).1 (fld r.w1 15 8) ∧ t.vote.st = .forming ∧ t.now = s.now) ∧
    (ctl → r.code = 2 → s.vote.st = .rejoining → s.vote.rejoin.step = 1 → 0 ≤ (s.cfl k.val).off → (ownActOfs s).1 ≤ fld r.w1 15 8 →
      ∃ t, exec (.joinAccept k) s = .next t ∧ t.vote.actOfs = fld r.w1 15 8 ∧ t.vote.rejoin.step = 2 ∧
      t.now = BitVec.ofNat 64 (s.now.toNat + (s.cfl k.val).off.toNat)) ∧
    (ctl → r.code = 3 → fld r.w1 9 8 ≠ myPos s → voteMode s ≠ 3 → s.vote.votes = [] → s.vote.view.length = 4 →
      nth 0 s.vote.view (fld r.w1 9 8) ≠ 4 → ∃ t, exec (.exclusionNotice k) s = .next t ∧ nth 0 t.vote.view (fld r.w1 9 8) = 4 ∧
        t.vote.st = s.vote.st ∧ t.pins = s.pins ∧ (bitOf s.vote.exclLog 31 = false → fld t.vote.exclLog 1 0 = fld r.w1 9 8 ∧
          fld t.vote.exclLog 7 4 = fld r.w1 15 12 ∧ bitOf t.vote.exclLog 31 = true ∧ t.vote.exclTime = s.now)) ∧
    (ctl → r.code = 3 → fld r.w1 9 8 = myPos s → fld r.w1 15 12 = 9 → s.vote.st = .rejoining → s.vote.votes = [] →
      ∃ t, exec (.exclusionNotice k) s = .next t ∧ t.vote.st = .excluded ∧ t.vote.rejoin.step = 0 ∧
        t.vote.rejoin.result = (if s.vote.rejoin.step = 1 then 1 else 2) ∧ (t.evSrc 1216).count ≠ 0) ∧
    (ctl → r.code = 4 → s.vote.votes = [] → ∃ t, exec (.rejoinDone k) s = .next t ∧ (t.evSrc 1216).count ≠ 0 ∧ t.pins = s.pins ∧
      (fld r.w1 9 8 = myPos s → s.vote.st = .rejoining → t.vote.st = (if voteMode s = 3 then .standby else .inService) ∧
        t.vote.rejoin.step = 0 ∧ t.vote.rejoin.result = 0) ∧
      (fld r.w1 9 8 ≠ myPos s → s.vote.view.length = 4 → t.vote.st = s.vote.st ∧
        nth 0 t.vote.view (fld r.w1 9 8) = if voteMode s = 3 then 3 else 2)) ∧
    (ctl → r.code = 5 → exec (.hold k) s = .next (u.modVote fun v => { v with hold := some (s.now.toNat / 64 + fld r.w1 31 8) })) ∧
    (ctl → r.code = 6 → exec (.release k) s = .next (u.modVote fun v => { v with hold := none }))) ∧
  (∀ (s : State) (k : Fin 3) (pos : Fin 4) (mode : Fin 4) (mem : BitVec 4) (hash : List Word) (rl rn rm : Byte),
    let c := s.cfl k.val
    let e := if pos.val ≠ (myPos s + k.val + 1) % 4 then 2 else if mode.val ≠ voteMode s ∨ mem.toNat ≠ fld (s.reg 0x60000) 7 4 then 4
      else if hash ≠ (List.range 8).map (fun j => s.reg (0x60060 + 4 * j)) then 1
      else if 126 < rm.toNat ∨ 10 < rm.toNat - rn.toNat then 3 else 0
    (cflEnabled s k.val = false ∨ c.st = 2 ∨ c.st = 3 → exec (.cflLinkUp k pos mode mem hash rl rn rm) s = .next s) ∧
    (cflEnabled s k.val = true → c.st ≠ 2 → c.st ≠ 3 → ∃ t, exec (.cflLinkUp k pos mode mem hash rl rn rm) s = .next t ∧
      (∀ j, j ≠ k.val → t.cfl j = s.cfl j) ∧ (t.cfl k.val).rttMax = rm.toNat ∧ (t.cfl k.val).rttMin = rn.toNat ∧
      (e = 0 → (t.cfl k.val).st = 2 ∧ ((t.cfl k.val).ctlQ.length = if s.vote.st = .forming then 1 else 0)) ∧
      (e ≠ 0 → (t.cfl k.val).st = 3 ∧ (t.cfl k.val).err = e))) ∧
  (∀ (s : State) (k : Fin 3), s.posted = [] →
    let c := s.cfl k.val
    let due : Prop := c.st = 2 ∧ c.lastValid.toNat + 2000 ≤ s.now.toNat
    (¬due → exec (.cflLinkDown k) s = .next s) ∧
    (due → s.vote.votes = [] → s.vote.rejoin.step = 0 → ∃ t, exec (.cflLinkDown k) s = .next t ∧ t.vote.st = s.vote.st ∧
      t.cfl k.val = { c with st := 0, downs := satInc 255 c.downs, rx := [], digQ := [], echoQ := [], ctlQ := [] }) ∧
    (∀ who, Writes s who (0x60100 + 0x40 * k.val) 2 → exec (.cflRetrain who k) s =
      .next (if c.st = 3 then s.modCfl k.val fun x => { x with st := 1 } else s))) ∧
  (∀ (s : State) (e d : Nat), s.vote.st = .forming → s.vote.entry = some e → ahead s s.vote.formSet d →
    ((s.now.toNat + d) / 64 < e → exec .formationEntry s = .next s) ∧
    (e ≤ (s.now.toNat + d) / 64 → s.vote.view.length = 4 → (∀ p ∈ s.vote.formSet, p < 4) → ∃ t, exec .formationEntry s = .next t ∧
      t.vote.entry = none ∧ t.now = BitVec.ofNat 64 (s.now.toNat + d) ∧
      t.vote.st = (if isStby s (myPos s) = true then .standby else .inService) ∧
      ∀ p ∈ s.vote.formSet, p ≠ myPos s → nth 0 t.vote.view p = if isStby s p = true then 3 else 2)) ∧
  (∀ (s : State) (m : Fin 4096) (k : Fin 3) (v : Vote) (c : Nat), s.vote.votes = [v] → v.key.sub = m.val → v.own.isSome = true →
    v.ownFirst = some c → v.verdict = none → (s.cfl k.val).st = 2 →
    (v.echoed.contains ((myPos s + k.val + 1) % 4) = true → exec (.digestResend m k) s = .next s) ∧
    (v.echoed.contains ((myPos s + k.val + 1) % 4) = false → (s.cfl k.val).digQ = [] →
      64 * (tget? v.sends k.val).getD c + s.vote.rttMax + 64 ≤ s.now.toNat → exec (.digestResend m k) s =
        .next (s.modCfl k.val fun x => { x with digQ := [v.key], resend := satInc 255 x.resend }))) ∧
  (∀ (s : State) (m : Fin 4096) (v : Vote) (p d c : Nat) (x : DWord), s.vote.votes = [v] → v.key.sub = m.val → v.own = some x →
    v.ownFirst = some c → v.ans = [] → v.verdict = none → s.posted = [] → d = fld (s.reg 0x60004) 16 0 →
    (s.now.toNat < 64 * c + d → exec (.voteWindowClose m) s = .next s) ∧
    (64 * c + d ≤ s.now.toNat → 0 < d → voteMode s = 1 → s.vote.promo = [] → s.vote.st = .inService → p ≠ myPos s → p < 4 → viewOf s p = 2 →
      (∀ q, q < 4 → (expected s q = true ↔ q = myPos s ∨ q = p)) → s.vote.late.length = 4 → nth 0 s.vote.late p = 0 →
      nth 0 s.vote.late (myPos s) = 0 → 1 < lateMax s → ∃ t u, exec (.voteWindowClose m) s = .next t ∧ t.vote.votes = [u] ∧
        u.verdict = some .timeout ∧ u.tAct = BitVec.ofNat 64 ((64 * c + d - 1) / 64 * 64 + s.vote.actOfs) ∧ nth 0 t.vote.late p = 1 ∧
        t.vote.cntTmo = s.vote.cntTmo + 1 ∧ t.pins = s.pins ∧ t.sluice = s.sluice)) ∧
  (∀ (s : State) (m : Fin 4096) (v : Vote) (x : DWord) (q val : Nat) (disc : Bool),
    let n := m.val
    s.vote.votes = [v] → v.key.sub = n → v.own = some x → s.sluice = [(n, ⟨[(q, val)], [q], false, [], disc⟩)] → q < 96 →
    (s.sub n).prog.phase = .sluice → (s.sub n).prog.committed = true →
    (s.now.toNat < v.tAct.toNat → exec (.actuationInstant m) s = .next s) ∧
    (v.tAct.toNat ≤ s.now.toNat →
      (∀ e, v.verdict = some e → e ≠ .apply x → isOutMode (pinMode s q) = true → ∃ t, exec (.actuationInstant m) s = .next t ∧
        t.vote.votes = [] ∧ t.sluice = [] ∧ (t.pin q).atSafe = true ∧ (t.pin q).value = pinSafeValue s q ∧ (∀ j, j ≠ q → t.pin j = s.pin j) ∧
        (t.sub n).prog.phase = .deviceEnd ∧
        (e = .disagree ∨ e = .timeout → (t.sub n).prog.dstat = (s.sub n).prog.dstat ||| (if disc = true then 1 else 0) ||| 0x0C) ∧
        (e = .disagree → (t.sub n).prog.cstat = (s.sub n).prog.cstat ||| 0x100 ∧ (t.sub n).prog.detail = 0x0B01) ∧
        (e = .timeout → (t.sub n).prog.detail = 0x0B02)) ∧
      (v.verdict = some (.apply x) → s.vote.st = .inService → disc = false → s.fd.reports = [] → pinHeldSafe s q = false → pinMode s q ≠ 7 →
        (s.pin q).pwmHold = none → ∃ t, exec (.actuationInstant m) s = .next t ∧ t.vote.votes = [] ∧ t.sluice = [] ∧ ReachesEnd s t n 0 0 ∧
          t.pin q = { s.pin q with
            value := BitVec.ofNat 16 val, atSafe := BitVec.ofNat 16 val == pinSafeValue s q, latchOff := false, lost := false } ∧
          ∀ j, j ≠ q → t.pin j = s.pin j) ∧
      (v.verdict = some (.apply x) → s.vote.st = .standby → isOutMode (pinMode s q) = true → ∃ t, exec (.actuationInstant m) s = .next t ∧
        t.sluice = [] ∧ ReachesEnd s t n 0 0 ∧ (t.pin q).atSafe = true ∧ (t.pin q).value = pinSafeValue s q))) ∧
  (∀ s : State, s.posted = [] → s.vote.st = .inService → s.vote.votes = [] → s.sluice = [] →
    (∀ x ∈ s.subs, x.2.attr.valid = true → ownsLive s x.1 = false) →
    let out (t : State) (reason : Nat) : Prop := t.vote.st = .excluded ∧ t.vote.votes = [] ∧ (t.evSrc 1216).count ≠ 0 ∧ t.subs = s.subs ∧
      (bitOf s.vote.exclLog 31 = false → fld t.vote.exclLog 7 4 = reason ∧ fld t.vote.exclLog 1 0 = myPos s ∧ bitOf t.vote.exclLog 31 = true) ∧
      ∀ q, q < 96 → isOutMode (pinMode s q) = true → (t.pin q).atSafe = true ∧ (t.pin q).value = pinSafeValue s q ∧
        (t.pin q).latchOff = ((s.pin q).latchOff || !(s.pin q).atSafe)
    (s.vote.quorumLostAt = none → exec .quorumLossTimeout s = .next s) ∧ (s.vote.ofsBadAt = none → exec .timebaseOffsetTimeout s = .next s) ∧
    (∀ a, s.vote.quorumLostAt = some a → (s.now.toNat < a.toNat + 1000000 → exec .quorumLossTimeout s = .next s) ∧
      (a.toNat + 1000000 ≤ s.now.toNat → ∃ t, exec .quorumLossTimeout s = .next t ∧ out t 6)) ∧
    (∀ a, s.vote.ofsBadAt = some a → (s.now.toNat < a.toNat + 100000 → exec .timebaseOffsetTimeout s = .next s) ∧
      (a.toNat + 100000 ≤ s.now.toNat → ∃ t, exec .timebaseOffsetTimeout s = .next t ∧ out t 7)) ∧
    (∀ who, Writes s who 0x60008 1 → ∃ t, exec (.leave who) s = .next t ∧ out t 8)) ∧
  (∀ s : State, exec .voteRecordExpiry s = .next (s.modVote fun u =>
    { u with dec := u.dec.filter fun d => decide (s.now.toNat ≤ d.time.toNat + 1000000) })) ∧
  (∀ (s : State) (who : Initiator), Writes s who 0x60008 2 → (s.vote.st ≠ .excluded → exec (.rejoin who) s = .next s) ∧
    (∀ p, s.vote.st = .excluded → referencePos s = some p → reaches s p = true → 0 ≤ (s.cfl (posLink s p)).off →
      ∃ t, exec (.rejoin who) s = .next t ∧ t.vote.st = .rejoining ∧ t.vote.rejoin.step = 1 ∧
        (∃ r, (t.cfl (posLink s p)).ctlQ = (s.cfl (posLink s p)).ctlQ ++ [r] ∧ r.ty = 5 ∧ r.code = 1) ∧ t.pins = s.pins) ∧
    (∀ p, s.vote.st = .excluded → referencePos s = some p → reaches s p = true → (s.cfl (posLink s p)).off < 0 →
      ∃ t, exec (.rejoin who) s = .next t ∧ t.vote.st = .excluded ∧ t.vote.rejoin.result = 1 ∧ (t.cfl (posLink s p)).st = 3 ∧
        (t.cfl (posLink s p)).err = 5)) ∧
  ∀ (s : State) (p c : Nat),
    let r := s.vote.rejoin
    (r.joiner = none → exec .rejoinStepComplete s = .next s ∧ exec .rejoinHoldTimeout s = .next s) ∧
    (r.joiner = some p → r.items = [] → r.bytes = [] → ∃ t, exec .rejoinStepComplete s = .next t ∧
      (r.step = 2 → t.vote.rejoin.step = 3 ∧ ∀ n, (∃ x ∈ s.subs, x.1 = n ∧ x.2.attr.valid = true) → .sub n ∈ t.vote.rejoin.items) ∧
      (r.step = 3 → t.vote.rejoin.step = 4 ∧ t.vote.rejoin.dirty = [] ∧ ∀ a ∈ r.dirty, .blocks a 256 ∈ t.vote.rejoin.items) ∧
      (r.step = 4 → t.vote.rejoin.step = 5 ∧ t.vote.rejoin.attempts = r.attempts + 1 ∧ t.vote.hold = some (s.now.toNat / 64 + 782)) ∧
      (r.step = 5 → t.vote.rejoin.step = 0 ∧ t.vote.rejoin.result = 0 ∧ t.vote.hold = none ∧ (t.evSrc 1216).count ≠ 0)) ∧
    (r.joiner = some p → s.vote.hold = some c → r.step = 5 → (s.now.toNat / 64 < c → exec .rejoinHoldTimeout s = .next s) ∧
      (c ≤ s.now.toNat / 64 → ∃ t, exec .rejoinHoldTimeout s = .next t ∧ t.vote.hold = none ∧
        (r.attempts < 8 → t.vote.rejoin.step = 4 ∧ t.vote.rejoin.joiner = some p) ∧
        (8 ≤ r.attempts → t.vote.rejoin.step = 0 ∧ t.vote.rejoin.result = 2)))

/-- R308 to R313, R315 to R325, R328: the link cycle, the positions, the message slot and its replies, the FIFOs, training and the
shadow receiver of a Brook link. -/
def Obligations.BrookCommands : Prop :=
  ∀ (s : State) (l : Fin 16),
    let k := l.val
    let b := s.bk k
    let at_ (p i : Nat) : Nat := k * 512 + p * 64 + i
    let told (t : State) : Prop := (t.evSrc (1120 + k)).count ≠ 0
    let others (t : State) : Prop := ∀ j, j ≠ k → t.bk j = s.bk j
    let frame (t : State) : Prop := EventFrame { s with bks := t.bks } t ∧ others t
    b.pos.length = 8 → s.posted = [] →
    (∀ (w0 w1 : Word) (param : Nat) (y : List Byte) (win : Nat → Bool), y.length ≤ 256 →
      let f := bkParse (bkBytes w0 w1 param y) win
      f.crcOk = true ∧ f.pos = fld w0 2 0 ∧ f.gen = fld w0 7 4 ∧ f.ty = fld w0 15 8 ∧ f.seq = fld w0 23 16 ∧ f.attn = bitOf w0 24 ∧
      f.busy = bitOf w0 25 ∧ f.payload = y ∧ f.inWindow = win (fld w0 2 0) ∧
      (f.formOk = true ↔ fld w1 15 0 = y.length ∧ bitOf w0 3 = true ∧ bitOf w0 31 = false ∧ fld w1 31 28 = 0 ∧
        (fld w0 15 8 = 2 → y.getD 19 0 = 0))) ∧
    (∀ n : Fin 64, (s.now.toNat + 1000) % 100000 ≠ 0 → exec (.brookOutputLatch l n) s = .next s) ∧
    (∀ n : Fin 64, (s.now.toNat + 1000) % 100000 = 0 → ∃ t, exec (.brookOutputLatch l n) s = .next t ∧
      { t with bks := s.bks } = s ∧ others t ∧
      (t.bk k).errSym.toNat = (if b.link = 2 then Nat.min 0xFFFFFFFF (b.errSym.toNat + n.val) else b.errSym.toNat) ∧
      (t.bk k).cyc = (s.now.toNat + 1000) / 100000 ∧
      (∀ p, (bkPos t k p).fresh = none ∧ (bkPos t k p).asked = false ∧ (bkPos t k p).heard = false) ∧
      ∀ p i, p < 8 → i < 64 → ((nth 0 (t.bk k).latch p).getLsbD i = true ↔ s.brookOut (at_ p i) ≠ 0)) ∧
    (∀ p : Fin 8,
      let safe : Prop := bkPosSt s k p.val ≠ .online ∨ s.ready = false ∨ (voteMode s ≠ 0 ∧ s.vote.st ≠ .inService)
      let now_ : Prop := b.link = 2 ∧ bitOf (s.reg (0x50000 + 0x100 * k)) p.val = true ∧ s.now.toNat = b.cyc * 100000 + 5000 * p.val
      (¬now_ → exec (.pdOut l p) s = .next s) ∧
      let w0 (safe : Bool) : Word := pack [(0, 3, p.val), (8, 8, 1), (16, 8, b.cyc), (26, 1, b2n (!s.ready)), (27, 1, b2n safe),
        (29, 2, if voteMode s = 0 then 0 else fld (s.reg 0x60000) 9 8)]
      let mode := toBytes 4 (fld (s.reg 0x60000) 1 0 + 4 * fld (s.reg 0x60000) 7 4)
      let sends (safe : Bool) (out : DWord) : State := s.modBk k fun x => { x with
        sent := bkBytes (w0 safe) 16 0 (toBytes 8 out.toNat ++ toBytes 4 b.cyc ++ mode)
        pos := x.pos.set p.val { bkPos s k p.val with asked := true } }
      (now_ → safe → exec (.pdOut l p) s = .next (sends true 0)) ∧
      (now_ → ¬safe → exec (.pdOut l p) s = .next (sends false (nth 0 b.latch p.val)))) ∧
    (∀ a : BkArrival,
      let f := bkParse a.bytes (pdWindow s k a.begun)
      let p := f.pos
      let ends := b.cyc * 100000 + 5000 * p + 3040
      (f.inWindow = true ↔ ends ≤ a.begun.toNat ∧ a.begun.toNat ≤ ends + 20000) ∧
      let x := bkPos s k p
      (b.link ≠ 2 → exec (.pdIn l a) s = .next s) ∧
      (b.link = 2 → f.crcOk = false → f.inWindow = false → b.last.valid = true → exec (.pdIn l a) s =
        .next (s.modBk k fun y => { y with errCrc := if y.errCrc = 0xFFFFFFFF then y.errCrc else y.errCrc + 1 })) ∧
      (b.link = 2 → f.crcOk = true → f.formOk = true → f.ty = 2 → f.inWindow = false → b.last.valid = true → exec (.pdIn l a) s =
        .next (s.modBk k fun y => { y with errLate := if y.errLate = 0xFFFFFFFF then y.errLate else y.errLate + 1 })) ∧
      (b.link = 2 → f.crcOk = true → f.formOk = true → f.ty = 2 → f.inWindow = true → bkConfigured s k p = true → f.seq = b.cyc % 256 →
        f.payload.length = 20 → x.busySeen = false → ∃ t, exec (.pdIn l a) s = .next t ∧ frame t ∧
          (bkPos t k p).fresh = some (BitVec.ofNat 64 (ofBytes (f.payload.take 8)), BitVec.ofNat 64 (ofBytes ((f.payload.drop 8).take 8))) ∧
          (bkPos t k p).attn = f.attn ∧ (bkPosSt s k p = .lost → bkPosSt t k p = .ident ∧ told t) ∧
          (bkPosSt s k p ≠ .lost → bkPosSt t k p = bkPosSt s k p) ∧
          (f.attn = true → x.attn = false → (t.bk k).attn.testBit p = true ∧ told t) ∧
          (f.attn = false ∨ x.attn = true → (t.bk k).attn = b.attn) ∧ ∀ q, q ≠ p → bkPos t k q = bkPos s k q)) ∧
    (s.now.toNat ≠ b.cyc * 100000 + 62000 → exec (.brookInputImageWrite l) s = .next s) ∧
    (s.now.toNat = b.cyc * 100000 + 62000 → ∃ t, exec (.brookInputImageWrite l) s = .next t ∧ others t ∧
      ∀ p i, p < 8 → i < 64 →
        let x := bkPos s k p
        let on : Bool := bkPosSt s k p == .online
        let miss := fld (s.reg (0x50000 + 0x100 * k)) 13 10
        let ends : Prop := (if miss = 0 then 3 else miss) ≤ x.miss + 1 ∧ (on = true ∨ bkPosSt s k p = .ident)
        let byte (v q : DWord) (fresh : Bool) (age : Nat) : Byte :=
          BitVec.ofNat 8 (b2n (v.getLsbD i) + 2 * b2n (q.getLsbD i) + 4 * b2n fresh + 8 * b2n (!on) + 16 * age)
        (bkConfigured s k p = false → t.brookIn (at_ p i) = s.brookIn (at_ p i) ∧ t.brookOut (at_ p i) = s.brookOut (at_ p i)) ∧
        (bkConfigured s k p = true →
          (∀ v q, x.fresh = some (v, q) → t.brookIn (at_ p i) = byte v q true 0 ∧ (bkPos t k p).miss = 0) ∧
          (x.fresh = none → ¬ends → t.brookIn (at_ p i) = byte x.val x.qual false (Nat.min 15 (satInc 15 x.age)) ∧
            bkPosSt t k p = bkPosSt s k p ∧ t.brookOut (at_ p i) = s.brookOut (at_ p i)) ∧
          (x.fresh = none → ends → t.brookIn (at_ p i) = BitVec.ofNat 8 (8 + 16 * Nat.min 15 (satInc 15 x.age)) ∧ bkPosSt t k p = .lost ∧
            t.brookOut (at_ p i) = 0 ∧ told t))) ∧
    (let due (e : Exchange) : Prop := s.now.toNat = b.cyc * 100000 + 62000 - 80 * (22 + e.payload.length)
     let frame (e : Exchange) (seq : Nat) (rpt : Bool) : List Byte := bkBytes (pack [(0, 3, e.pos), (4, 4, e.gen), (8, 8, e.ty), (16, 8, seq),
      (26, 1, b2n (!s.ready)), (27, 1, b2n (bkSafeFrame s k e.pos)), (28, 1, b2n rpt), (29, 2, if voteMode s = 0 then 0 else fld (s.reg 0x60000) 9 8)])
      (pack [(0, 16, e.payload.length), (16, 12, e.arg)]) e.param e.payload
     (b.waiting = [] →
      (b.link ≠ 2 ∨ b.msgCyc = some b.cyc ∨ (b.cur.isSome = true ∧ b.retry = false) → exec (.brookMessageSend l) s = .next s) ∧
      (∀ e, due e → b.link = 2 → b.msgCyc ≠ some b.cyc → b.cur = some e → b.retry = true → exec (.brookMessageSend l) s = .next (s.modBk k fun x =>
        { x with sent := frame e e.seq true, cur := some { e with tries := e.tries + 1, crc := false, sentAt := s.now }, retry := false, msgCyc := some x.cyc,
                 retries := if x.retries = 0xFFFFFFFF then x.retries else x.retries + 1 })) ∧
      (∀ p, due { kind := .ident p } → b.link = 2 → b.msgCyc ≠ some b.cyc → b.cur = none → p < 8 → bkPosSt s k p = .ident → (∀ q, q < p → bkPosSt s k q ≠ .ident) →
        exec (.brookMessageSend l) s = .next (s.modBk k fun x => { x with
          sent := frame { kind := .ident p, pos := p, ty := 0x14, arg := 1 } x.seq false, cur := some { kind := .ident p, pos := p, ty := 0x14, arg := 1, seq := x.seq, tries := 1, sentAt := s.now }, retry := false,
          seq := (x.seq + 1) % 256, msgCyc := some x.cyc }))) ∧
    (∀ e n, due e → b.link = 2 → b.msgCyc ≠ some b.cyc → b.cur = none → (∀ p, p < 8 → bkPosSt s k p ≠ .ident) → b.waiting = [e] →
      e.kind = .sub n → bkPosSt s k e.pos = .online → exec (.brookMessageSend l) s = .next (s.modBk k fun x => { x with
        waiting := [], sent := frame e x.seq false, cur := some { e with seq := x.seq, tries := e.tries + 1, crc := false, sentAt := s.now }, retry := false,
        seq := (x.seq + 1) % 256, msgCyc := some x.cyc })) ∧
    (b.link = 2 → b.msgCyc ≠ some b.cyc → b.cur = none → (∀ p, p < 8 → bkPosSt s k p ≠ .ident) → b.waiting = [] → b.stageWait = true →
      b.rx = [] →
      let st := s.reg (0x50044 + 0x100 * k)
      (bkPosSt s k (fld st 2 0) ≠ .online → exec (.brookMessageSend l) s =
        .next (s.modBk k fun x => { x with tx := [], stageWait := false, stageResult := 4 })) ∧
      (bkPosSt s k (fld st 2 0) = .online → due { kind := .staged, payload := b.tx.take (fld st 12 4) } → ∃ t e, exec (.brookMessageSend l) s = .next t ∧ (t.bk k).cur = some e ∧ e.kind = .staged ∧
        e.ty = 0x15 ∧ e.pos = fld st 2 0 ∧ e.arg = fld st 27 16 ∧ e.payload = b.tx.take (fld st 12 4) ∧
        (t.bk k).tx = b.tx.drop (fld st 12 4) ∧ (t.bk k).stageWait = false))) ∧
    (∀ a : BkArrival, let f := bkParse a.bytes fun _ => replyWindow s k a.begun
      f.crcOk = true → f.formOk = true → b.cur = none → b.last.valid = true →
      let late := s.modBk k fun y => { y with errLate := if y.errLate = 0xFFFFFFFF then y.errLate else y.errLate + 1 }
      exec (.ack l a) s = .next late ∧ exec (.data l a) s = .next late ∧ exec (.nak l a) s = .next late) ∧
    (∀ (a : BkArrival) (e : Exchange), let f := bkParse a.bytes fun _ => replyWindow s k a.begun
      let ends := e.sentAt.toNat + 80 * (22 + e.payload.length)
      f.crcOk = true → f.formOk = true → b.cur = some e → b.retry = false → ends ≤ a.begun.toNat → a.begun.toNat ≤ ends + 20000 → f.pos = e.pos →
      f.seq = e.seq → f.gen = e.gen →
      (∀ n, e.kind = .sub n → e.gen = (s.sub n).gen.toNat → s.now.toNat ≤ e.sentAt.toNat + 1000000 → e.dead = false →
        (s.sub n).prog.phase = .exchange → (bkPos s k e.pos).attn = false → e.pos < 8 →
        let d := (s.sub n).prog
        let took := ofBytes (f.payload.take 2)
        let ended (t : State) : Prop := (t.bk k).cur = none ∧ (t.bk k).retry = false ∧ t.mem = s.mem ∧ t.pins = s.pins
        (e.ty = 0x10 → f.ty = 0x11 → f.busy = false → ∃ t, exec (.ack l a) s = .next t ∧ ended t ∧ (t.sub n).prog.phase = .deviceEnd ∧
          (t.sub n).prog.dstat = d.dstat ||| 0x0C ∧ (t.sub n).prog.resid = e.payload.length - took ∧
          (t.sub n).prog.cstat = if took ≠ e.payload.length ∧ d.cur.sli = false
            then d.cstat ||| 2 else d.cstat) ∧
        (e.ty = 0x10 → f.ty = 0x11 → f.busy = true → ∃ t, exec (.ack l a) s = .next t ∧ ended t ∧ (t.sub n).prog.phase = .deviceEnd ∧
          (t.sub n).prog.dstat = d.dstat ||| 0x1C ∧ (bkPos t k e.pos).busySeen = true ∧ n ∈ (bkPos t k e.pos).busySubs) ∧
        (e.ty = 0x14 → e.arg = 2 → f.ty = 0x11 → f.busy = false → bkPosSt s k e.pos = .online → ∃ t, exec (.ack l a) s = .next t ∧
          (t.bk k).cur = none ∧ bkPosSt t k e.pos = .lost ∧ told t ∧ (t.sub n).prog.phase = .deviceEnd) ∧
        (∀ len, e.ty = 0x12 → f.ty = 0x13 → f.busy = false → PlainArea d.cur len → d.cur.aselF = 0 → f.payload.length = len → 0 < len →
          hostErr s (s.sub n).attr.world = none → d.cur.pci = false → n < 4096 → ∃ t, exec (.data l a) s = .next t ∧ ended t ∧
          t.hostMem = cellsSet s.hostMem d.cur.dataAddr f.payload ∧ ReachesEnd s t n 0 0) ∧
        (f.ty = 0x1F → RunsFull s n → (s.sub n).attr.errSafe = false → (s.sub n).cue = false →
          d.cur.pci = false → ∃ t, exec (.nak l a) s = .next t ∧ ended t ∧
            EndsWith s t n { cswProg s n with dstat := d.dstat ||| 2, cstat := d.cstat, detail := 0x0201, resid := d.resid })) ∧
      (∀ p, e.kind = .ident p → e.ty = 0x14 → e.pos = p → p < 8 → bkPosSt s k p = .ident →
        (f.ty = 0x13 → f.busy = false → ∃ t, exec (.data l a) s = .next t ∧ frame { t with brook := s.brook } ∧ (t.bk k).cur = none ∧ told t ∧
          (bkPos t k p).satType = wordAt f.payload 0 ∧
          (wordAt f.payload 0 = tget 0 s.brook.satType (k * 8 + p) → bkPosSt t k p = .online ∧
            ∀ i, i < 64 → t.brookIn (at_ p i) = s.brookIn (at_ p i) &&& 0xF7) ∧
          (wordAt f.payload 0 ≠ tget 0 s.brook.satType (k * 8 + p) → bkPosSt t k p = .failed ∧ t.brook = s.brook)) ∧
        (f.ty = 0x1F → ∃ t, exec (.nak l a) s = .next t ∧ (t.bk k).cur = none ∧ bkPosSt t k p = .lost)) ∧
      (e.kind = .staged → e.ty = 0x15 →
        (f.ty = 0x13 → f.busy = false → exec (.data l a) s = .next (s.modBk k fun x => { x with cur := none, retry := false, rx := f.payload, stageResult := 0 })) ∧
        (f.ty = 0x1F → ∃ t, exec (.nak l a) s = .next t ∧ (t.bk k).cur = none ∧ (t.bk k).stageResult = 3))) ∧
    (b.cur = none ∨ b.retry = true → exec (.brookReplyTimeout l) s = .next s) ∧
    (∀ e, b.cur = some e → b.retry = false → b.last.valid = true →
      let ends := e.sentAt.toNat + 80 * (22 + e.payload.length) + 20000
      let more : Prop := e.tries ≤ fld (s.reg (0x50000 + 0x100 * k)) 9 8 ∧ e.dead = false ∧ b.link = 2
      let tmo := if e.crc = true ∨ b.errTmo = 0xFFFFFFFF then b.errTmo else b.errTmo + 1
      (s.now.toNat < ends → exec (.brookReplyTimeout l) s = .next s) ∧
      (ends ≤ s.now.toNat → more → exec (.brookReplyTimeout l) s = .next (s.modBk k fun x => { x with errTmo := tmo, retry := true })) ∧
      (ends ≤ s.now.toNat → ¬more → e.kind = .staged → exec (.brookReplyTimeout l) s = .next (s.modBk k fun x =>
        { x with errTmo := tmo, cur := none, retry := false, stageResult := if e.crc = true then 2 else 1 })) ∧
      (∀ n, ends ≤ s.now.toNat → ¬more → e.kind = .sub n → e.dead = false → (s.sub n).prog.phase = .exchange → RunsFull s n → (s.sub n).attr.errSafe = false →
        (s.sub n).cue = false → (s.sub n).prog.cur.pci = false → (bkPos s k e.pos).attn = false →
        ∃ t, exec (.brookReplyTimeout l) s = .next t ∧ (t.bk k).cur = none ∧ EndsWith s t n { cswProg s n with
          dstat := (s.sub n).prog.dstat, cstat := (s.sub n).prog.cstat ||| 0x40, detail := if e.crc = true then 0x0902 else 0x0901, resid := (s.sub n).prog.resid })) ∧
    (∀ (who : Initiator) (v : Word), Writes s who (0x5004C + 0x100 * k) v → ∃ t, exec (.bkTxdata who l v) s = .next t ∧
      { t with bks := s.bks } = s ∧ others t ∧
      t.bk k = if b.tx.length + 4 ≤ 256 then { b with tx := b.tx ++ toBytes 4 v.toNat } else b) ∧
    (∀ who : Initiator, Reaches s who → initWorld s who = .safety → ∀ x y z w rest, b.rx = x :: y :: z :: w :: rest →
      exec (.bkRxdata who l) s = .next { s.modBk k fun c => { c with rx := rest } with ans := [BitVec.ofNat 32 (ofBytes [x, y, z, w])] }) ∧
    (b.link ≠ 0 ∨ bitOf (s.reg (0x50004 + 0x100 * k)) 0 = false → exec (.brookSignalDetect l) s = .next s) ∧
    (b.link = 0 → bitOf (s.reg (0x50004 + 0x100 * k)) 0 = true → b.downAt = 0 ∨ b.downAt.toNat + 10000000 ≤ s.now.toNat →
      exec (.brookSignalDetect l) s = .next (raiseEvent (s.modBk k fun x => { x with link := 1, trainAt := s.now }) (1120 + k))) ∧
    (∀ eq : Byte, b.link = 1 → (b.trainAt.toNat + 1000000 ≤ s.now.toNat → s.now.toNat ≤ b.trainAt.toNat + 2000000 → exec (.brookTrainingComplete l eq) s =
        .next (raiseEvent (s.modBk k fun x => { x with link := 2, eqPri := eq.toNat, downAt := 0, shadow := 0, lowMs := 0, eyeAt := s.now }) (1120 + k))) ∧
      (b.trainAt.toNat + 2000000 ≤ s.now.toNat → exec (.brookTrainingTimeout l) s =
        .next (raiseEvent (s.modBk k fun x => { x with link := 0, downAt := s.now }) (1120 + k)))) ∧
    (b.link = 2 → ∀ who : Initiator,
      let fell (t : State) : Prop := told t ∧ ∀ p, p < 8 → bkConfigured s k p = true →
        (bkPosSt s k p ≠ .failed → bkPosSt t k p = .lost ∧ ∀ i, i < 64 → t.brookOut (at_ p i) = 0 ∧
          t.brookIn (at_ p i) = (s.brookIn (at_ p i) &&& 0xF4) ||| 8) ∧
        (bkPosSt s k p = .failed → bkPosSt t k p = .failed)
      (∀ e : Half, ∃ t, exec (.brookLinkDown l e) s = .next t ∧ (t.bk k).link = 0 ∧ fell t ∧
        (t.bk k).errSym.toNat = Nat.min 0xFFFFFFFF (b.errSym.toNat + e.toNat)) ∧
      (Writes s who (0x50004 + 0x100 * k) (BitVec.ofNat 32 (b2n (bkEnabled s k) + 2)) → bkEnabled s k = true →
        ∃ t, exec (.bkRetrain who l) s = .next t ∧ (t.bk k).link = 1 ∧ fell t) ∧
      (Writes s who (0x50004 + 0x100 * k) 0 → ∃ t, exec (.bkEnable who l false) s = .next t ∧ (t.bk k).link = 0 ∧ bkEnabled t k = false ∧ fell t)) ∧
    (∀ who : Initiator, Writes s who (0x50004 + 0x100 * k) 1 → ∃ t, exec (.bkEnable who l true) s = .next t ∧ t.bks = s.bks ∧
      bkEnabled t k = true) ∧
    (∀ who : Initiator, Writes s who (0x50004 + 0x100 * k) (BitVec.ofNat 32 (b2n (bkEnabled s k) + 4)) → bkEnabled s k = true →
      ∃ t, exec (.bkCntClr who l) s = .next t ∧ t.bk k = { b with errCrc := 0, errTmo := 0, errLate := 0, errSym := 0, swaps := 0, retries := 0 }) ∧
    (∀ (who : Initiator) (mask : Byte), Writes s who (0x50004 + 0x100 * k) (BitVec.ofNat 32 (b2n (bkEnabled s k) + 256 * mask.toNat)) →
      bkEnabled s k = true → ∃ t, exec (.bkPosReset who l mask) s = .next t ∧ others t ∧ ∀ p, p < 8 →
        (bitOf mask p = true → bkPosSt s k p = .failed → bkPosSt t k p = .lost ∧ told t) ∧
        (bitOf mask p = false ∨ bkPosSt s k p ≠ .failed → bkPos t k p = bkPos s k p)) ∧
    (∀ v h : Byte,
      let cfg := s.reg (0x5001C + 0x100 * k)
      let hold := if fld cfg 23 16 = 0 then 1 else fld cfg 23 16
      let low : Prop := v.toNat < fld cfg 7 0
      let go : Prop := b.shadow = 0 ∧ low ∧ hold ≤ b.lowMs + 1 ∧ (b.degraded = true → b.lastTry.toNat + 100000000 ≤ s.now.toNat)
      let due : Prop := b.link = 2 ∧ b.eyeAt.toNat + 1000000 ≤ s.now.toNat
      (¬due → exec (.brookEyeMeasure l v h) s = .next s) ∧
      (due → go → exec (.brookEyeMeasure l v h) s = .next (s.modBk k fun x =>
        { x with vPri := v.toNat, hPri := h.toNat, lowMs := x.lowMs + 1, eyeAt := s.now, shadow := 1, lastTry := s.now })) ∧
      (due → ¬go → low → exec (.brookEyeMeasure l v h) s = .next (s.modBk k fun x =>
        { x with vPri := v.toNat, hPri := h.toNat, lowMs := x.lowMs + 1, eyeAt := s.now })) ∧
      (due → ¬low → exec (.brookEyeMeasure l v h) s = .next (s.modBk k fun x => { x with vPri := v.toNat, hPri := h.toNat, lowMs := 0, eyeAt := s.now })) ∧
      (b.shadow ≠ 1 → exec (.shadowTrainingComplete l true v) s = .next s) ∧
      (b.shadow = 1 → exec (.shadowTrainingComplete l true v) s = .next (s.modBk k fun x => { x with shadow := 2, eqSh := v.toNat, verAt := s.now })) ∧
      (b.shadow = 1 → b.degraded = false → (b.fails ≠ 3 → exec (.shadowTrainingComplete l false v) s =
          .next (s.modBk k fun x => { x with shadow := 0, fails := satInc 255 x.fails })) ∧
        (b.fails = 3 → exec (.shadowTrainingComplete l false v) s =
          .next (raiseEvent (s.modBk k fun x => { x with shadow := 0, fails := 4, degraded := true }) (1120 + k)))) ∧
      (b.shadow = 2 → s.now.toNat < b.verAt.toNat + 8388608 → exec (.shadowVerified l true v h) s = .next s) ∧
      (b.shadow = 2 → b.verAt.toNat + 8388608 ≤ s.now.toNat → b.vPri + fld cfg 15 8 ≤ v.toNat → exec (.shadowVerified l true v h) s =
        .next (s.modBk k fun x => { x with vSh := v.toNat, hSh := h.toNat, shadow := 3 })) ∧
      (b.shadow = 2 → b.degraded = true → exec (.shadowVerified l false v h) s =
        .next (s.modBk k fun x => { x with vSh := v.toNat, hSh := h.toNat, shadow := 0, fails := satInc 255 x.fails }))) ∧
    (b.shadow ≠ 3 ∨ b.link ≠ 2 → exec (.shadowSwap l) s = .next s) ∧
    (b.shadow = 3 → b.link = 2 → exec (.shadowSwap l) s = .next (s.modBk k fun x => { x with
      shadow := 0, vPri := x.vSh, hPri := x.hSh, eqPri := x.eqSh, eqSh := x.eqPri, fails := 0, degraded := false, lowMs := 0,
      swaps := if x.swaps = 0xFFFFFFFF then x.swaps else x.swaps + 1 }))

/-- R272 to R274, R278, R281 to R285, R287 to R290, R292: the drives, the NVMe commands, the records, the archive rings and the
drive-to-drive copy of the Silt store. -/
def Obligations.SiltCommands : Prop :=
  ∀ (s : State) (drv : Fin 16) (sub : Fin 4096) (ring : Fin 256),
    let d := drv.val
    let n := sub.val
    let x := s.drv d
    let told (t : State) : State := raiseEvent t Config.srcSilt
    let dw (f : Drive → Drive) : State := s.modDrv d f
    let nv (f : List NvCmd → List NvCmd) (t : State) : State := t.modSilt fun y => { y with nv := f y.nv }
    let other (r : Nat) : Prop := ∀ q, q < 256 → q ≠ r → ringOn s q d = false
    let quiet : Prop := (∀ c ∈ s.silt.nv, c.drive ≠ d) ∧ ∀ q, q < 256 → ringOn s q d = false
    let broken (blocks : Nat) : Prop := ∃ e, e < 4096 ∧ extValid s e = true ∧ d ∈ extDrives s e ∧ blocks < extLba s e + extShare s e
    let dsc (m i : Nat) : Word := wordAt (s.sub m).prog.work.bytes (8 * (s.sub m).prog.work.desc + i)
    let cmd : Nat := 0x70104 + 0x20 * d
    let bounced (t : State) : Prop := MemOk s → ∀ a, a < s.silt.bounceBase ∨ s.silt.bounceBase + 4096 * s.silt.bouncePages ≤ a →
      cellGet t.mem a = cellGet s.mem a
    let ext0 := Config.basinBase + fld (s.reg Reg.siltExtBase) 23 14 * 0x4000
    let apart : Prop := ext0 + 32 * 4096 ≤ arRingAddr s 0 ∨ arRingAddr s 256 ≤ ext0
    let ready (y : Drive) (b : Bool) : Drive := { y with
      st := .ready, tmoRun := 0, broken := b, wcache := true, flushed := false, latSum := 0, latN := 0, latMax := 0, latAt := s.now }
    let failed (k : Nat) (y : Drive) : Drive := { y with st := .failed, reason := k, ioq := 0, wcache := false }
    s.posted = [] →
    -- drives
    (∀ (width : Fin 8) (speed : Fin 5),
      let split := fld (s.reg (0x70010 + 4 * (d / 4))) 1 0
      let lanes := if split = 0 then (if d % 4 = 0 then 4 else 0) else if split = 1 then (if d % 4 < 2 then 2 else 0) else if split = 2 then 1 else 0
      let gen := 4 - fld (s.reg (0x70010 + 4 * (d / 4))) 3 2
      let held : Prop := x.st ≠ .absent ∨ bitOf (s.reg 0x70000) 0 = false ∨ lanes = 0 ∨ (x.perst = true ∧ s.now.toNat < x.since.toNat + 100000000)
      (held → exec (.driveLinkUp drv width speed) s = .next s) ∧
      (¬held → exec (.driveLinkUp drv width speed) s = .next (dw fun y => { y with
        st := .init, linkUp := true, width := Nat.min width.val lanes, speed := Nat.min speed.val gen, perst := false, since := s.now }))) ∧
    (∀ i : DriveId,
      let size (y : Drive) : Drive := { y with blocks := i.blocks, maxXfer := Nat.min 32 (Nat.max 1 i.mdts), ioq := Nat.min 8 i.queues }
      let fit : Prop := x.any = true ∨ x.serial = i.serial
      (x.st ≠ .init → exec (.driveIdentifyComplete drv i) s = .next s) ∧
      (x.st = .init → quiet →
        (i.nvme = false → exec (.driveIdentifyComplete drv i) s = .next (told (dw (failed 2)))) ∧
        (i.nvme = true → i.adminOk = false → exec (.driveIdentifyComplete drv i) s =
          .next (told (dw (failed 3)))) ∧
        (i.nvme = true → i.adminOk = true → ¬fit → exec (.driveIdentifyComplete drv i) s =
          .next (dw fun y => { size y with st := .foreign })) ∧
        (i.nvme = true → i.adminOk = true → fit → i.fmt4k = false → exec (.driveIdentifyComplete drv i) s =
          .next (told (dw fun y => failed 4 (size y)))) ∧
        (i.nvme = true → i.adminOk = true → fit → i.fmt4k = true → ∃ b : Bool, (b = true ↔ broken i.blocks) ∧
          exec (.driveIdentifyComplete drv i) s = .next (told (dw fun y => ready (size y) b))))) ∧
    (x.st ≠ .init → exec (.driveInitTimeout drv) s = .next s) ∧
    (x.st ≠ .ready → exec (.driveCstsCfs drv) s = .next s) ∧
    (x.st ≠ .removing → exec (.driveShutdownComplete drv) s = .next s) ∧
    (x.st = .absent → exec (.driveLinkDown drv) s = .next s) ∧
    (x.st = .foreign ∨ x.st = .failed → exec (.driveLinkDown drv) s = .next (dw fun y => { y with linkUp := false, width := 0, speed := 0 })) ∧
    (let gone (perst : Bool) (y : Drive) : Drive := { y with
       st := .absent, linkUp := false, width := 0, speed := 0, ioq := 0, slow := false, wcache := false, perst := perst, since := s.now }
     (quiet →
      (x.st = .init → exec (.driveInitTimeout drv) s = .next (told (dw (failed 1)))) ∧
      (x.st = .ready → exec (.driveCstsCfs drv) s = .next (told (dw (failed 5)))) ∧
      (x.st = .ready ∨ x.st = .init ∨ x.st = .removing → exec (.driveLinkDown drv) s = .next (told (dw (gone false)))) ∧
      (x.st = .removing → x.flushed = true ∨ x.since.toNat + 2000000000 ≤ s.now.toNat →
        exec (.driveShutdownComplete drv) s = .next (told (dw (gone true)))) ∧
      (x.st = .removing → x.flushed = false → s.now.toNat < x.since.toNat + 2000000000 → exec (.driveShutdownComplete drv) s = .next s) ∧
      (∀ who, Writes s who cmd (BitVec.ofNat 32 (2 ^ 31 + 1)) → exec (.driveReset who drv) s =
        .next (if x.st = .failed then told (dw (gone true)) else s)) ∧
      (∀ who, Writes s who cmd (BitVec.ofNat 32 (2 ^ 31 + 2)) →
        (x.st ≠ .foreign → exec (.driveAdopt who drv) s = .next s) ∧
        (x.st = .foreign → ∃ b : Bool, (b = true ↔ broken x.blocks) ∧ exec (.driveAdopt who drv) s =
          .next (told (dw fun y => ready y b)))) ∧
      (∀ who, Writes s who cmd (BitVec.ofNat 32 (2 ^ 31 + 3)) →
        (x.st ≠ .ready → exec (.driveRemove who drv) s = .next s) ∧
        (x.st = .ready → exec (.driveRemove who drv) s = .next ((dw fun y => { y with st := .removing, flushed := true, since := s.now }).modSilt fun y =>
          { y with nv := y.nv ++ [{ id := y.nextId, drive := d, lba := 0, blocks := 0, use := .flush, issued := s.now,
                                    wait := decide (x.ioq = 0) }],
                   nextId := y.nextId + 1 })))) ∧
     -- the rings of a drive
     (∀ r, r < 256 → other r → MemOk s → apart → (∀ c ∈ s.silt.nv, c.drive ≠ d) →
      (ringOn s r d = true → arState s r = 1 ∨ arState s r = 2 → s.silt.recs = [] → s.silt.cmdS.busy = false → s.silt.cmdV.busy = false →
        (x.st = .ready → ∃ t, exec (.driveCstsCfs drv) s = .next t ∧ (t.drv d).st = .failed ∧ arState t r = 3) ∧
        (x.st = .ready → ∃ t, exec (.driveLinkDown drv) s = .next t ∧ (t.drv d).st = .absent ∧ arState t r = 3)) ∧
      (∀ who, Writes s who cmd (BitVec.ofNat 32 (2 ^ 31 + 2)) → x.st = .foreign → ∃ t, exec (.driveAdopt who drv) s = .next t ∧ (t.drv d).st = .ready ∧
          arNext t r = arNext s r ∧
          (ringHas s r d = true → arOld t r = arNext s r ∧ arRel t r = arNext s r ∧ arDone t r = (arNext s r + 2 ^ 32 - 1) % 2 ^ 32 ∧
            arEpoch t r = (arEpoch s r + 1) % 2 ^ 32 ∧ arWrblk t r = 0) ∧
          (ringHas s r d = false → arOld t r = arOld s r ∧ arRel t r = arRel s r ∧ arDone t r = arDone s r ∧
            arEpoch t r = arEpoch s r ∧ arWrblk t r = arWrblk s r)))) ∧
    (∀ meanUp maxUp : Bool,
     let us (up : Bool) (ns n : Nat) := Nat.min 0xFFFF (if up = true ∧ ns % (1000 * n) ≠ 0 then ns / (1000 * n) + 1 else ns / (1000 * n))
     let slow : Bool := decide (100000 * fld (s.reg 0x70000) 23 16 * x.latN < x.latSum)
     let due : Prop := x.st = .ready ∧ x.latAt.toNat + 100000000 ≤ s.now.toNat
     let t := dw fun y => { y with
       mean := us meanUp y.latSum (Nat.max 1 y.latN), max := us maxUp y.latMax 1, slow := slow, latSum := 0, latN := 0, latMax := 0, latAt := s.now }
     (¬due → exec (.driveLatencyWindow drv meanUp maxUp) s = .next s) ∧
     (due → slow = false ∨ x.slow = true → exec (.driveLatencyWindow drv meanUp maxUp) s = .next t) ∧
     (due → slow = true → x.slow = false → exec (.driveLatencyWindow drv meanUp maxUp) s = .next (told t))) ∧
    -- NVMe commands
    (∀ (id : Nat) (sct : Fin 8) (sc : Byte) (data : List Byte) (cor unc : Bool),
      (s.silt.nv.find? (fun c => c.id == id && !c.done && !c.wait) = none → exec (.nvmeCompletion id sct sc ⟨data, cor, unc⟩) s = .next s ∧
        exec (.nvmeCommandTimeout id) s = .next s) ∧
      (∀ c, s.silt.nv.find? (fun c => c.id == id && !c.done && !c.wait) = some c →
        (∀ z ∈ s.silt.nv, z.drive = c.drive → z.wait = false) → (s.drv c.drive).st ≠ .removing → s.silt.copy.busy = false →
        let ns := s.now.toNat - c.issued.toNat
        let got (y : Drive) : Drive := { y with
          tmoRun := 0, aerCor := if cor then satInc 255 y.aerCor else y.aerCor, aerUnc := if unc then satInc 255 y.aerUnc else y.aerUnc,
          latSum := if c.write then y.latSum + ns else y.latSum, latN := if c.write then y.latN + 1 else y.latN,
          latMax := if c.write then Nat.max y.latMax ns else y.latMax }
        let s1 := s.modDrv c.drive got
        let without := nv (fun l => l.filter fun z => z.id != c.id)
        let late : Prop := c.issued.toNat + 1000000 * Nat.max 1 (fld (s.reg 0x70000) 15 8) ≤ s.now.toNat
        (sct.val = 0 → sc = 0 →
          ((∃ r q, c.use = .payload r q) ∨ (∃ r, c.use = .checkpoint r) ∨ c.use = .flush ∨ c.use = .copyWrite →
            exec (.nvmeCompletion id sct sc ⟨data, cor, unc⟩) s = .next (without s1)) ∧
          (∀ r q, c.use = .header r q → c.dead = false → exec (.nvmeCompletion id sct sc ⟨data, cor, unc⟩) s = .next ((without s1).modSilt fun y =>
            { y with recs := y.recs.map fun z => if z.ring == r && z.seq == q then { z with written := true } else z })) ∧
          (∀ m, c.use = .fetch m (s.sub m).gen.toNat → c.dead = false →
            let bs := padTo 0 (4096 * c.blocks) (data.take (4096 * c.blocks))
            exec (.nvmeCompletion id sct sc ⟨data, cor, unc⟩) s = .next
              (bouncePut (nv (fun l => l.map fun z => if z.id == c.id then { z with done := true, data := bs } else z) s1) bs))) ∧
        (sct.val ≠ 0 ∨ sc ≠ 0 → c.use = .flush → exec (.nvmeCompletion id sct sc ⟨data, cor, unc⟩) s =
          .next (without (s.modDrv c.drive fun y => { got y with errStatus := satInc 255 y.errStatus }))) ∧
        (sct.val ≠ 0 ∨ sc ≠ 0 → ∀ m, c.use = .fetch m (s.sub m).gen.toNat → c.dead = false → (s.sub m).prog.phase = .fetching → RunsFull s m →
          (s.sub m).attr.errSafe = false → (s.sub m).cue = false → (s.sub m).prog.dstat % 4 = 0 →
          (s.sub m).prog.cur.pci = false → ∃ t, exec (.nvmeCompletion id sct sc ⟨data, cor, unc⟩) s = .next t ∧
            EndsWith s t m { cswProg s m with
              dstat := (s.sub m).prog.dstat, cstat := (s.sub m).prog.cstat ||| 0x40, detail := 0x0903, resid := (s.sub m).prog.resid } ∧
            (t.sub m).sense.dev = [pack [(0, 4, c.drive), (8, 3, sct.val), (16, 8, sc.toNat), (24, 8, 1)], BitVec.ofNat 32 c.lba,
              pack [(0, 16, c.lba / 2 ^ 32)], pack [(0, 8, if bitOf (dsc m 1) 16 then 0 else fld (dsc m 1) 7 0)],
              if bitOf (dsc m 1) 16 then 0 else dsc m 0]) ∧
        (¬late → exec (.nvmeCommandTimeout id) s = .next s) ∧
        (late → c.use = .flush →
          let s2 := without (s.modDrv c.drive fun y => { y with errTmo := satInc 255 y.errTmo, tmoRun := y.tmoRun + 1 })
          ((s.drv c.drive).tmoRun < 2 ∨ (s.drv c.drive).st ≠ .ready → exec (.nvmeCommandTimeout id) s = .next s2) ∧
          (2 ≤ (s.drv c.drive).tmoRun → (s.drv c.drive).st = .ready → s.silt.nv = [c] → (∀ q, q < 256 → ringOn s q c.drive = false) →
            exec (.nvmeCommandTimeout id) s = .next (told (s2.modDrv c.drive (failed 5))))))) ∧
    -- records
    (let w := (s.sub n).prog.work
     let r := w.ring
     let writes (t : State) (u : NvUse) : Prop := ∀ c ∈ t.silt.nv, c ∈ s.silt.nv ∨ (c.write = true ∧ c.fua = true ∧ c.use = u)
     ((s.sub n).prog.phase ≠ .archive ∨ w.seq = none ∨ w.bounce = true ∨ w.left ≠ 0 → exec (.bounceSpaceGrant sub) s = .next s) ∧
     (∀ q rc, (s.sub n).prog.phase = .archive → w.seq = some q → w.bounce = false → w.left = 0 →
        s.silt.recs.find? (fun z => z.ring == r && z.seq == q) = some rc →
        bounceUsed s + recBlocks w.bytes.length ≤ s.silt.bouncePages ∨ bounceUsed s = 0 →
        ∃ t, exec (.bounceSpaceGrant sub) s = .next t ∧ (t.sub n).prog.phase = .commitReq ∧ (t.sub n).prog.held.mark = some (r, q) ∧
          (t.sub n).prog.work.bounce = true ∧ bounced t ∧ t.silt.recs = s.silt.recs ∧ writes t (.payload r q)) ∧
     ((s.sub n).prog.phase ≠ .archive ∨ w.seq.isSome = true ∨ w.raw ≠ [] ∨ (s.sub n).prog.committed = true ∨ (arState s r = 1 ∧ (s.sub n).st ≠ .haltPending) →
        exec (.recordAllocate sub) s = .next s) ∧
     ((s.sub n).prog.phase = .archive → w.seq = none → w.raw = [] → (s.sub n).prog.committed = false →
        let blocks := recBlocks (recLen w)
        let at_ := placeRec s r blocks
        let ends (c : Csw) : Prop := RunsFull s n → (s.sub n).attr.errSafe = false → (s.sub n).cue = false →
          (s.sub n).prog.cur.pci = false → ∃ t, exec (.recordAllocate sub) s = .next t ∧ EndsWith s t n { c with
            dstat := (s.sub n).prog.dstat, cstat := (s.sub n).prog.cstat ||| c.cstat, resid := (s.sub n).prog.resid } ∧ t.mem = s.mem
        (arState s r = 3 → ends { cswProg s n with cstat := 0x40, detail := 0x0903 }) ∧
        (arState s r = 0 → ends { cswProg s n with cstat := 0x4, detail := 0x0108 }) ∧
        let first : Prop := ∀ y ∈ s.subs, y.1 ≠ n → awaitsRec y.2.prog r = true → w.arr ≤ y.2.prog.work.arr
        let clear : Prop := s.silt.bounceBase + 4096 * s.silt.bouncePages ≤ arRingAddr s 0 ∨ arRingAddr s 256 ≤ s.silt.bounceBase
        (arState s r = 2 → ¬first → exec (.recordAllocate sub) s = .next s) ∧
        (arState s r = 2 → first → extFault s (s.sub n).attr.world true false (arBase s r + 4096 * at_.1) blocks = none →
          (meetsUnread s r at_.1 blocks = true → exec (.recordAllocate sub) s = .next s) ∧
          (meetsUnread s r at_.1 blocks = false → ringFullFor s r at_.1 blocks = true → ends { cswProg s n with cstat := 0x2000, detail := 0x0C02 }) ∧
          (meetsUnread s r at_.1 blocks = false → ringFullFor s r at_.1 blocks = false → 255 ≤ arOpen s r → exec (.recordAllocate sub) s = .next s) ∧
          (meetsUnread s r at_.1 blocks = false → ringFullFor s r at_.1 blocks = false → MemOk s → clear → w.unread = false → arOpen s r < 255 → ∃ t rc, exec (.recordAllocate sub) s = .next t ∧
            arNext t r = (arNext s r + 1) % 2 ^ 32 ∧ arEpoch t r = at_.2 ∧ arWrblk t r = (at_.1 + blocks) % 2 ^ 32 ∧
            arOpen t r = arOpen s r + 1 ∧ arDone t r = arDone s r ∧ t.silt.recs = s.silt.recs ++ [rc] ∧ rc.ring = r ∧
            rc.seq = arNext s r ∧ rc.epoch = at_.2 ∧ rc.blk = at_.1 ∧ rc.blocks = blocks ∧ rc.sub = n ∧ rc.mark = false ∧
            (t.sub n).prog.work.seq = some (arNext s r))))) ∧
    (let r := ring.val
     let quietRing : Prop := arIdxBase s r + 16 * arIdxN s r ≤ arRingAddr s 0 ∨ arRingAddr s 256 ≤ arIdxBase s r
     (recsOf s r = [] → exec (.recordHeaderWrite ring) s = .next s ∧ exec (.recordCommitted ring) s = .next s ∧
        exec (.recordVoid ring) s = .next s) ∧
     (∀ rc l, recsOf s r = rc :: l →
        let q := rc.seq
        let issued (t : State) (u : NvUse) : Prop := t.subs = s.subs ∧
          (∀ c ∈ t.silt.nv, c ∈ s.silt.nv ∨ (c.write = true ∧ c.fua = true ∧ c.use = u)) ∧
          t.silt.recs = s.silt.recs.map fun z => if z.ring == r && z.seq == q then { z with issued := true } else z
        (rc.mark = false ∨ rc.issued = true ∨ payloadLeft s r q = true → exec (.recordHeaderWrite ring) s = .next s) ∧
        (rc.mark = true → rc.issued = false → payloadLeft s r q = false → ∃ t, exec (.recordHeaderWrite ring) s = .next t ∧ issued t (.header r q) ∧ bounced t) ∧
        (rc.dead = false ∨ rc.mark = true ∨ rc.issued = true → exec (.recordVoid ring) s = .next s) ∧
        (rc.dead = true → rc.mark = false → rc.issued = false → ∃ t, exec (.recordVoid ring) s = .next t ∧ issued t (.void r q) ∧ t.mem = s.mem) ∧
        (rc.written = false ∨ rc.sub = 4096 → exec (.recordCommitted ring) s = .next s) ∧
        (rc.written = true → rc.sub ≠ 4096 → MemOk s → quietRing → q < 2 ^ 32 → s.silt.cmdS.busy = false → s.silt.cmdV.busy = false →
          rc.gen = (s.sub rc.sub).gen.toNat → ∃ t, exec (.recordCommitted ring) s = .next t ∧ arDone t r = q ∧ arOpen t r = arOpen s r - 1 ∧
            idxW t r q 0 = BitVec.ofNat 32 q ∧ idxW t r q 1 = BitVec.ofNat 32 rc.epoch ∧ idxW t r q 2 = BitVec.ofNat 32 rc.blk ∧
            idxW t r q 3 = pack [(0, 13, rc.blocks)] ∧ t.silt.recs = s.silt.recs.filter (fun z => !(z.ring == r && z.seq == q)) ∧
            ((s.sub rc.sub).prog.work.seq = some q → (s.sub rc.sub).prog.work.ring = r → (s.sub rc.sub).prog.phase = .archive →
              (t.sub rc.sub).prog.phase = .deviceEnd ∧ (t.sub rc.sub).prog.dstat = (s.sub rc.sub).prog.dstat ||| 0x0C))) ∧
     -- ring commands
     (∀ (who : Initiator) (seq : Word),
        let wd := initWorld s who
        let o := if wd = .safety then 0x70030 else 0x70040
        let c := ringCmd s wd
        let res (t : State) (k : Nat) : State := setRingCmd t wd { c with ring := r, result := k }
        let foreign : Prop := arValid s r = true ∧ arWorld s r ≠ wd
        let s1 := s.setReg (o + 4) seq
        let v (op : Nat) : Word := BitVec.ofNat 32 (2 ^ 31 + op * 256 + r)
        let next := (seq.toNat + 1) % 2 ^ 32
        let ahead : Prop := seqDist (arRel s r) (arNext s r) < seqDist (arRel s r) next
        c.busy = false →
        (Writes s who (o + 4) seq → Writes s1 who o (v 1) →
          (foreign → exec (.ringRelease who ring seq) s = .next (setRingCmd s1 wd { c with result := 1 })) ∧
          (¬foreign → arValid s r = false ∨ arState s r = 0 → exec (.ringRelease who ring seq) s = .next (res s1 3)) ∧
          (¬foreign → arValid s r = true → arState s r ≠ 0 → ahead → exec (.ringRelease who ring seq) s = .next (res s1 2)) ∧
          (¬foreign → arValid s r = true → arState s r ≠ 0 → ¬ahead → exec (.ringRelease who ring seq) s =
            .next (res (if arOverwrite s r = true then s1 else setArW s1 r 13 next) 0))) ∧
        (Writes s who o (v 2) →
          (foreign → exec (.ringEnable who ring) s = .next (setRingCmd s wd { c with result := 1 })) ∧
          (¬foreign → arValid s r = false ∨ arState s r ≠ 0 → exec (.ringEnable who ring) s = .next (res s 3)) ∧
          (¬foreign → arValid s r = true → arState s r = 0 → exec (.ringEnable who ring) s = .next (res (setArState s r 1) 0))) ∧
        (Writes s who o (v 3) →
          (foreign → exec (.ringDisable who ring) s = .next (setRingCmd s wd { c with result := 1 })) ∧
          (¬foreign → arValid s r = false ∨ arState s r = 0 ∨ arState s r = 1 → exec (.ringDisable who ring) s = .next (res s 3)) ∧
          (¬foreign → arValid s r = true → arState s r = 2 ∨ arState s r = 3 → arOpen s r ≠ 0 → exec (.ringDisable who ring) s =
            .next (setRingCmd s wd { c with ring := r, busy := true })) ∧
          (¬foreign → arValid s r = true → arState s r = 3 → arOpen s r = 0 → exec (.ringDisable who ring) s = .next (res (setArState s r 0) 0)) ∧
          (¬foreign → arValid s r = true → arState s r = 2 → arOpen s r = 0 → MemOk s → ∃ t, exec (.ringDisable who ring) s = .next t ∧
            arState t r = 0 ∧ (ringCmd t wd).result = 0 ∧
            ∀ z ∈ t.silt.nv, z ∈ s.silt.nv ∨ (z.write = true ∧ z.fua = true ∧ z.use = .checkpoint r)))) ∧
     (∀ (ckA ckB : List Byte) (blocks : Tbl (List Byte)),
        (arState s r ≠ 1 ∨ ringReady s r = false → exec (.ringScanComplete ring ckA ckB blocks) s = .next s) ∧
        (∀ bs isB, arState s r = 1 → recsOf s r = [] → ringReady s r = true → MemOk s → takeCkpt ckA ckB = some (bs, isB) →
          ∃ t, exec (.ringScanComplete ring ckA ckB []) s = .next t ∧ arState t r = 2 ∧ arIndexed t r = false ∧ arOpen t r = 0 ∧
            (∀ i, i < 7 → arW t r (8 + i) = wordAt bs i) ∧
            (tget {} t.silt.ringx r : RingX).ckcnt = ((wordAt bs 8).toNat + 1) % 2 ^ 32 ∧ (tget {} t.silt.ringx r : RingX).nextB = isB ∧
            (tget {} t.silt.ringx r : RingX).scanFrom = (wordAt bs 0).toNat ∧ (tget {} t.silt.ringx r : RingX).scanBlk = (wordAt bs 2).toNat) ∧
        (arState s r ≠ 2 ∨ arIndexed s r = true → exec (.indexRebuildComplete ring blocks) s = .next s) ∧
        (arState s r = 2 → arIndexed s r = false → MemOk s →
          (∀ i, i < seqDist (arOld s r) ((arDone s r + 1) % 2 ^ 32) →
            seqDist (tget {} s.silt.ringx r : RingX).scanFrom ((arOld s r + i) % 2 ^ 32) < 2 ^ 31) →
          exec (.indexRebuildComplete ring blocks) s = .next (setIndexed s r true)))) ∧
    -- the copy
    (let c := s.silt.copy
     let set (c : SiltCopy) : State := s.modSilt fun y => { y with copy := c }
     let src := (s.reg 0x70060).toNat + 2 ^ 32 * fld (s.reg 0x70064) 15 0
     let dst := (s.reg 0x70068).toNat + 2 ^ 32 * fld (s.reg 0x7006C) 15 0
     let len := (s.reg 0x70070).toNat
     let es := extentsOf src len ++ extentsOf dst len
     let bad : Prop := (∃ e ∈ es, extValid s e = false ∨ extBroken s e = true) ∨ ∃ e ∈ extentsOf dst len, extRo s e = true
     let onRing : Prop := ∃ q, q < 256 ∧ arValid s q = true ∧ arBase s q < dst + 4096 * len ∧ dst < arBase s q + 4096 * arSize s q
     let off : Prop := ∃ k ∈ drivesOf s src len ++ drivesOf s dst len, (s.drv k).st ≠ .ready
     (∀ who, Writes s who 0x70074 1 →
       (len = 0 → exec (.siltCopyGo who) s = .next (set { busy := false, done := true, result := 0 })) ∧
       (len ≠ 0 → bad → exec (.siltCopyGo who) s = .next (set { c with result := 1 })) ∧
       (len ≠ 0 → ¬bad → onRing → exec (.siltCopyGo who) s = .next (set { c with result := 2 })) ∧
       (len ≠ 0 → ¬bad → ¬onRing → off → exec (.siltCopyGo who) s = .next (set { c with result := 3 })) ∧
       (len ≠ 0 → ¬bad → ¬onRing → ¬off → copyBusy s = false → ∃ t l, exec (.siltCopyGo who) s = .next t ∧
         t.silt.copy = { busy := true, done := false, result := 0, next := Nat.min 1024 len, err := false } ∧ t.mem = s.mem ∧
         t.silt.nv = s.silt.nv ++ l ∧ ∀ z ∈ l, z.write = false ∧ ∃ o, o < Nat.min 1024 len ∧ z.use = .copyRead o)) ∧
     ∀ err : Bool,
     let bad : Bool := err || c.err
     let ends : Prop := c.busy = true ∧ copyBusy s = false ∧ (bad = true ∨ len ≤ c.next)
     (¬ends → exec (.siltCopyComplete err) s = .next s) ∧
     (ends → exec (.siltCopyComplete err) s = .next (set { busy := false, done := !bad, result := if bad then 3 else 0 })))

/-- R293 to R299, R301, R302: the descriptors of a DMA channel, its bursts and fills, its completion pulses, RESUME and ABORT, and
the blocks of the Sift unit. -/
def Obligations.DmaCommands : Prop :=
  ∀ (s : State) (ch : Fin 32),
    let c := ch.val
    let x := s.dch c
    let me : Initiator := .dma ch
    let slot := dmaSlot s c x.head
    let next := (x.head + 1) % dmaSlots s c
    let calm (t : State) : Prop := t.dma = s.dma ∧ t.regs = s.regs ∧ t.posted = [] ∧ t.cu.pl = .none
    let word (done bad : Bool) (err : Nat) : List Byte :=
      toBytes 4 (pack [(1, 1, b2n done), (2, 1, b2n bad), (3, 1, b2n (x.pad != 0)), (4, 4, err), (16, 16, Nat.min 0xFFFF x.pad)]).toNat
    let turned (t : State) : State := { t with dma := { t.dma with ptr := setNth t.dma.ptr (fld (t.reg (0x80000 + 0x20 * c)) 3 2) ((c + 1) % 32) } }
    let isBad (t : State) : Prop := (t.dch c).badSeen = true ∧ (t.dch c).badCnt = satInc 0xFFFF x.badCnt ∧
      (x.badSeen = false → (t.evSrc Config.srcDma).count ≠ 0)
    s.posted = [] →
    -- the start of a channel
    (∀ (who : Initiator) (tail : BitVec 12), Writes s who (0x80000 + 0x20 * c + 0xC) (BitVec.ofNat 32 tail.toNat) →
      let s1 := s.modDch c fun y => { y with tail := tail.toNat, st := .running }
      (x.st ≠ .idle ∨ x.head = tail.toNat → exec (.dmaChTail who ch tail) s = .next (s.modDch c fun y => { y with tail := tail.toNat })) ∧
      (x.st = .idle → x.head ≠ tail.toNat → x.desc = none → ∀ u bs, devRead s1 me slot 32 = (u, .ok bs) → u.dma = s1.dma → u.regs = s.regs →
        u.posted = [] → u.cu.pl = .none → s.cu.pl = .none →
        let d := (List.range 8).map (wordAt bs)
        (ddOk d = true → ddFenced u d = false → exec (.dmaChTail who ch tail) s = .next (u.modDch c fun y =>
          { y with desc := some d, pos := 0, pad := 0, moved := false, bytes := 0, prev := 0 })) ∧
        (ddOk d = false → next = tail.toNat → x.pad = 0 → ∀ v, devWrite u me (slot + 28) (toBytes 4 0x44) = (v, 4, none) → v.dma = s1.dma →
          v.regs = s.regs → v.posted = [] → v.cu.pl = .none → ∃ t, exec (.dmaChTail who ch tail) s = .next t ∧ (t.dch c).st = .idle ∧
            (t.dch c).head = tail.toNat ∧ isBad t ∧ t.mem = v.mem))) ∧
    -- bursts
    (dmaPick s = none → exec .dmaBurst s = .next s) ∧
    (∀ d, x.desc = some d →
      let p := ddPat d
      let e := ddE d
      let ways := ddWays d
      let i := if p = 3 ∨ p = 4 then x.pos / ways else x.pos
      let k := if p = 3 ∨ p = 4 then x.pos % ways else 0
      let total := if p = 3 ∨ p = 4 then ddCount d * ways else ddCount d
      let one : Prop := Nat.min (total - x.pos) (ddBurst d * (if p = 3 ∨ p = 4 then ways else 1)) = 1
      (∀ s1 idx u bs v, dmaPick s = some c → one → dmaReq s c = 0 →
        (p = 1 ∨ p = 2 → ∃ ib, devRead s me (ddTable d + 4 * i) 4 = (s1, .ok ib) ∧ idx = ofBytes ib) → (p ≠ 1 ∧ p ≠ 2 → s1 = s) →
        let src := ddSrc d + (if p = 1 then idx else if p = 3 then k * ddAux d + i * e else if p = 4 then (i * ways + k) * e else i * e)
        let dst := ddDst d + (if p = 2 then idx else if p = 3 then (i * ways + k) * e else if p = 4 then k * ddAux d + i * e else i * e)
        devRead s1 me src e = (u, .ok bs) → u.regs = s.regs → devWrite u me dst bs = (v, bs.length, none) → v.posted = [] →
        exec .dmaBurst s = .next (turned (v.modDch c fun y => { y with pos := x.pos + 1, moved := decide (total ≤ x.pos + 1) }))) ∧
      (∀ read : Fin 1025, dmaReq s c = 0 ∨ (dmaReady s c = false ∧ siftReady s c = false) → exec (.dmaRequestWithdraw ch read) s = .next s) ∧
      (dmaReady s c = true → one → p = 0 →
        let fill := (List.range e).map fun j => nth 0 (toBytes 4 (s.reg (0x80000 + 0x20 * c + 0x14)).toNat) (j % 4)
        let s1 := s.modDch c fun y => { y with pad := y.pad + 1 }
        let moves (y : DmaCh) : DmaCh := { y with pos := x.pos + 1, moved := decide (total ≤ x.pos + 1) }
        let gone (t : State) : State := if dmaAsserted t c = true then s else t
        (∀ v, 97 ≤ dmaReq s c → devWrite s1 me (ddDst d + x.pos * e) fill = (v, e, none) → v.posted = [] →
          exec (.dmaRequestWithdraw ch 0) s = .next (gone (turned (v.modDch c moves)))) ∧
        (1 ≤ dmaReq s c → dmaReq s c ≤ 96 → e = 2 → exec (.dmaRequestWithdraw ch 0) s =
          .next (gone (turned ((s1.modPin (dmaReq s c - 1) fun y =>
            { y with fifo := (y.fifo ++ [(s.reg (0x80000 + 0x20 * c + 0x14)).setWidth 16]).take 32 }).modDch c moves)))))) ∧
    -- completion
    (x.moved = false ∨ x.desc = none ∨ x.st ≠ .running ∨ x.fence = true → exec (.dmaDescriptorComplete ch) s = .next s) ∧
    (∀ d, x.desc = some d → x.moved = true → x.st = .running → x.fence = false → ddPat d ≤ 4 →
      (∀ v, devWrite s me (slot + 28) (word true false 0) = (v, 4, none) → calm v → next = x.tail →
        let v1 := v.modDch c fun y => { y with head := next, desc := none, pos := 0, pad := 0, moved := false, bytes := 0, prev := 0, fence := false }
        let idle (t : State) : State := t.modDch c fun y => { y with st := .idle }
        (ddKind d = 0 → exec (.dmaDescriptorComplete ch) s = .next (idle v1)) ∧
        (ddKind d = 1 → ddGen d = (v.sub (ddOwner d)).gen.toNat → exec (.dmaDescriptorComplete ch) s = .next (idle (raiseEvent v1 (ddArg d)))) ∧
        (ddKind d = 1 → ddGen d ≠ (v.sub (ddOwner d)).gen.toNat → exec (.dmaDescriptorComplete ch) s =
          .next (idle (v1.modReach (v.sub (ddOwner d)).attr.reach fun r =>
            { r with staleCnt := satInc 0xFFFFFF r.staleCnt, staleClass := 3, staleAge := false }))) ∧
        (ddKind d = 2 → fld (s.reg (0x50044 + 0x100 * ddArg d)) 12 4 ≤ (v.bk (ddArg d)).tx.length → exec (.dmaDescriptorComplete ch) s =
          .next (idle (v1.modBk (ddArg d) fun b => { b with stageWait := true }))) ∧
        (ddKind d = 3 → ∃ t, exec (.dmaDescriptorComplete ch) s = .next t ∧ (t.dch c).st = .idle ∧ t.mem = v.mem ∧
          ((t.bank (ddArg d)).result = 0 ↔ (t.bank (ddArg d)).scanBusy = true))) ∧
      (∀ v n err, devWrite s me (slot + 28) (word true false 0) = (v, n, some err) → calm v →
        let v1 := v.modDch c fun y => { y with st := .halted, badSeen := true, desc := none, fence := false }
        exec (.dmaDescriptorComplete ch) s = .next (if x.badSeen = true then v1 else raiseEvent v1 Config.srcDma))) ∧
    -- RESUME and ABORT
    (∀ who : Initiator, Writes s who (0x80000 + 0x20 * c + 0x18) 1 →
      (x.st ≠ .halted → exec (.dmaResume who ch) s = .next s) ∧
      (x.st = .halted → next = x.tail → s.cu.pl = .none → exec (.dmaResume who ch) s = .next (s.modDch c fun y => { y with st := .idle, head := next, desc := none }))) ∧
    (∀ who : Initiator, Writes s who (0x80000 + 0x20 * c + 0x18) 2 →
      (x.st = .disabled → exec (.dmaAbort who ch) s = .next s) ∧
      (x.st = .idle ∨ x.st = .halted ∨ (x.st = .running ∧ x.desc = none) → exec (.dmaAbort who ch) s = .next (s.modDch c fun y =>
        { y with st := .idle, head := x.tail, desc := none, pos := 0, pad := 0, moved := false, fence := false })) ∧
      (∀ d v, x.st = .running → x.desc = some d → ddPat d ≤ 4 → devWrite s me (slot + 28) (word false true 0) = (v, 4, none) → calm v →
        ∃ t, exec (.dmaAbort who ch) s = .next t ∧ (t.dch c).st = .idle ∧ (t.dch c).head = x.tail ∧ (t.dch c).desc = none ∧ isBad t ∧
          t.mem = v.mem)) ∧
    -- the Sift unit
    (x.desc = none ∨ x.st ≠ .running ∨ x.moved = true ∨ x.fence = true ∨ s.cu.pl ≠ .none → exec (.siftBlock (.dma ch)) s = .next s) ∧
    (s.cu.pl ≠ .none → exec .dmaBurst s = .next s) ∧
    (∀ d, x.desc = some d → x.st = .running → x.moved = false → x.fence = false → s.cu.pl = .none → dmaAsserted s c = true →
      (ddPat d = 5 →
        let n := Nat.min 256 (ddCount d - x.pos)
        ∀ u raw v, devRead s me (ddSrc d + 2 * x.pos) (2 * n) = (u, .ok raw) → raw.length = 2 * n →
          let r := siftForward (ddDiff d) x.prev raw
          devWrite u me (ddDst d + x.bytes) r.1 = (v, r.1.length, none) → v.posted = [] → exec (.siftBlock (.dma ch)) s =
            .next (v.modDch c fun y => { y with
              pos := x.pos + n, bytes := x.bytes + r.1.length, prev := r.2.2, moved := decide (ddCount d ≤ x.pos + n) })) ∧
      (ddPat d = 6 → ∀ u h len u2 bs r v, devRead s me (ddSrc d + x.bytes) 4 = (u, .ok h) → siftBlockLen h = some len →
        devRead u me (ddSrc d + x.bytes) len = (u2, .ok bs) → siftInverse (ddDiff d) x.prev (ddCount d - x.pos) bs = some r →
        devWrite u2 me (ddDst d + 2 * x.pos) r.1 = (v, r.1.length, none) → v.posted = [] → exec (.siftBlock (.dma ch)) s =
          .next (v.modDch c fun y => { y with pos := x.pos + r.1.length / 2, bytes := x.bytes + len, prev := r.2.2,
                                              moved := decide (ddCount d ≤ x.pos + r.1.length / 2) }))) ∧
    (∀ n : Fin 4096,
      let w := (s.sub n.val).prog.work
      (w.raw = [] → exec (.siftBlock (.sub n)) s = .next s) ∧
      (w.raw ≠ [] → (s.sub n.val).prog.phase = .archive → exec (.siftBlock (.sub n)) s =
        let r := siftForward (decide (w.kind / 2 % 2 = 1)) w.prev w.raw
        let t := s.modSub n.val fun b => { b with prog := { b.prog with work := { b.prog.work with
          bytes := w.bytes ++ r.1, raw := r.2.1, prev := r.2.2 } } }
        .next (if r.2.1 = [] then siltArrive t n.val else t)))

/-- R454, R455, R459 to R468: the endpoint's link, its configuration space, requests before READY, MSI-X masks and held messages,
completions and their timeouts, poisoned data, Function Level Reset, link reset and power states. -/
def Obligations.HostCommands : Prop :=
  ∀ (s : State) (pf : Fin 2),
    let f := pf.val
    let h := s.hostFn f
    let note (t : State) : State := raiseEvent t Config.srcHost
    let fn (g : HostFn → HostFn) : State := s.modHostFn f g
    let out (v : Word) : State := { s with ans := [v] }
    let up : Prop := 2 ≤ hostPeriod s ∧ fnPresent s f = true
    let more (k : Nat) : Nat := if 255 ≤ k then 255 else k + 1
    s.posted = [] → s.host.fns.length = 2 →
    -- the link, and requests before READY
    (∀ speed width : Fin 5,
      (hostPeriod s = 0 ∨ s.host.linkUp = true → exec (.hostLinkUp speed width) s = .next s) ∧
      (hostPeriod s ≠ 0 → s.host.linkUp = false → exec (.hostLinkUp speed width) s =
        .next (note (s.modHost fun p => { p with linkUp := true, speed := speed.val, width := width.val })))) ∧
    (hostPeriod s = 0 ∨ hostPeriod s = 3 → ∀ w, exec (.hostMemoryRequestBeforeReady pf w) s = .next s) ∧
    (hostPeriod s = 1 ∨ hostPeriod s = 2 → exec (.hostMemoryRequestBeforeReady pf false) s = .next (note { s with ans := [] })) ∧
    (hostPeriod s = 1 → exec (.hostMemoryRequestBeforeReady pf true) s = .next s) ∧
    (hostPeriod s = 2 → exec (.hostMemoryRequestBeforeReady pf true) s = .next (fn fun g => { g with dropped := satInc 0xFFFF g.dropped })) ∧
    -- configuration requests
    (∀ req, ¬up → exec (.hostConfigRequest pf req) s = .next { s with ans := [] }) ∧
    (up →
      exec (.hostConfigRequest pf (.read 0)) s = .next (out (pack [(0, 16, 0x1F3A), (16, 16, 0x4896 + f)])) ∧
      exec (.hostConfigRequest pf (.read 8)) s = .next (out 0x118000B1) ∧
      exec (.hostConfigRequest pf (.read 0x2C)) s = .next (out s.boot.subsys) ∧
      exec (.hostConfigRequest pf (.read 0x300)) s = .next (out 0x0001000B) ∧
      exec (.hostConfigRequest pf (.read 0x304)) s = .next (out 0x01410001) ∧
      exec (.hostConfigRequest pf (.read 0x308)) s =
        .next (out (pack [(0, 1, b2n s.ready), (1, 4, bootStep s), (5, 2, s.cu.lastReset), (8, 3, mstCode s.vote.st)])) ∧
      exec (.hostConfigRequest pf (.read 0x30C)) s = .next (out (if s.boot.slot = true then s.boot.seqB else s.boot.seqA)) ∧
      exec (.hostConfigRequest pf (.read 0x310)) s = .next (out (pack [(0, 1, b2n s.boot.slot), (1, 1, b2n s.boot.fallback)])) ∧
      (∀ o : BitVec 12, o.toNat ∉ [0, 8, 0x2C, 0x300, 0x304, 0x308, 0x30C, 0x310] → ∃ v, exec (.hostConfigRequest pf (.read o)) s =
        .next { s with ans := [v], freeCtr := s.freeCtr + 1 }) ∧
      (∀ v : BitVec 4, exec (.hostConfigRequest pf (.timeout v)) s = .next (fn fun g => { g with cto := v.toNat })) ∧
      exec (.hostConfigRequest pf .other) s = .next s ∧
      (h.pba = 0 →
        exec (.hostConfigRequest pf .busMaster) s = .next (fn fun g => { g with bme := true }) ∧
        ∀ en mask, exec (.hostConfigRequest pf (.msix en mask)) s = .next (fn fun g => { g with msixEn := en, funcMask := mask }) ∧
          exec (.msixUnmask pf (.control en mask)) s = .next (fn fun g => { g with msixEn := en, funcMask := mask }))) ∧
    -- MSI-X table entries
    (∀ w, ¬up → exec (.msixUnmask pf w) s = .next s) ∧
    (up → ∀ (v : Fin 64) (a : DWord) (d : Word) (m : Bool),
      let set (g : HostFn) : HostFn := { g with table := tset g.table v.val (a.toNat, d, m) }
      (hostPeriod s = 2 → exec (.msixUnmask pf (.entry v a d m)) s = .next (fn fun g => { g with dropped := satInc 0xFFFF g.dropped })) ∧
      (hostPeriod s = 3 → h.d3 = true → exec (.msixUnmask pf (.entry v a d m)) s = .next s) ∧
      (hostPeriod s = 3 → h.d3 = false → h.pba = 0 → exec (.msixUnmask pf (.entry v a d m)) s = .next (fn set)) ∧
      (hostPeriod s = 3 → h.d3 = false → h.pba = BitVec.ofNat 64 (2 ^ v.val) → m = true → exec (.msixUnmask pf (.entry v a d m)) s = .next (fn set)) ∧
      (hostPeriod s = 3 → h.d3 = false → h.pba = BitVec.ofNat 64 (2 ^ v.val) → m = false → h.msixEn = true → h.funcMask = false → h.bme = true →
        s.ev.vsent.length = 2 →
        let due : Prop := bitOf (nth 0 s.ev.vsent f) v.val = true ∧ ∃ x ∈ s.ev.src, claimable s (2 + f) x.2 = true ∧ x.2.vector = v.val
        ∃ t, exec (.msixUnmask pf (.entry v a d m)) s = .next t ∧ (t.hostFn f).pba = 0 ∧ t.mem = s.mem ∧
          (due → t.hostMem = cellsSet s.hostMem a.toNat (toBytes 4 d.toNat)) ∧ (¬due → t.hostMem = s.hostMem))) ∧
    -- Bus Master Enable, power states, poison
    (h.bme = false → exec (.busMasterDisable pf) s = .next s) ∧
    (h.bme = true → exec (.busMasterDisable pf) s = .next (note (fn fun g => { g with bme := false }))) ∧
    (∀ d3 : Bool,
      (¬up ∨ h.d3 = d3 → exec (.dStateChange pf d3) s = .next s) ∧
      (up → h.d3 ≠ d3 → h.pba = 0 → exec (.dStateChange pf d3) s = .next (note (fn fun g => { g with d3 := d3 })))) ∧
    (hostPeriod s = 0 ∨ fnPresent s f = false → exec (.poisonedWriteReceive pf) s = .next s) ∧
    (hostPeriod s ≠ 0 → fnPresent s f = true → exec (.poisonedWriteReceive pf) s =
      .next (note (s.modHost fun p => { p with poison := more p.poison }))) ∧
    -- completions
    (∀ (use : HostUse) (a : BitVec 48) (data : List Byte) (status : Fin 4),
      let waits (at_ : DWord) (w : World) : Prop :=
        let v := (s.hostFn (if w = .safety then 0 else 1)).cto
        at_.toNat + (if v = 1 then 80000 else if v = 2 then 8000000 else if v = 6 then 160000000 else 40000000) ≤ s.now.toNat
      (hostOut s use = false → exec (.hostCompletionReceive use a data status) s = .next s ∧ exec (.hostCompletionTimeout use) s = .next s) ∧
      (hostOut s use = true → status.val = 0 → exec (.hostCompletionReceive use a data status) s =
        .next { s with hostMem := cellsSet s.hostMem a.toNat data }) ∧
      (∀ sub : Fin 4096, use = .data sub → hostOut s use = true → RunsFull s sub.val →
        let n := sub.val
        let b := s.sub n
        let ends (t : State) (flag : Word) (detail : Nat) : Prop := EndsWith s t n { cswProg s n with
          dstat := b.prog.dstat, cstat := b.prog.cstat ||| flag, detail := detail, resid := b.prog.cur.count }
        b.attr.errSafe = false → b.cue = false → b.prog.cur.pci = false → b.prog.cur.ida = false → b.prog.cur.cd = false →
        (status.val = 1 ∨ status.val = 2 → ∃ t, exec (.hostCompletionReceive use a data status) s = .next t ∧ t.host.urca = more s.host.urca ∧
          ends t 0x20 0x0505) ∧
        (status.val = 3 → ∃ t, exec (.hostCompletionReceive use a data status) s = .next t ∧ t.host.poison = more s.host.poison ∧
          (t.evSrc Config.srcHost).count ≠ 0 ∧
          ends t 0x10 0x0601) ∧
        (waits b.prog.cmdAt b.attr.world → ∃ t, exec (.hostCompletionTimeout use) s = .next t ∧ t.host.cto = more s.host.cto ∧
          (t.evSrc Config.srcHost).count ≠ 0 ∧
          ends t 0x20 0x0504)) ∧
      (∀ q : Fin 1024, use = .tail q ∨ use = .entry q → hostOut s use = true →
        (status.val = 1 ∨ status.val = 2 → ∃ t, exec (.hostCompletionReceive use a data status) s = .next t ∧ (t.sq q.val).st = .error ∧
          (t.sq q.val).err = 5 ∧ (t.evSrc Config.srcQueueEngine).count ≠ 0) ∧
        ((use = .tail q → waits (s.sq q.val).readAt (s.sq q.val).desc.world) →
          (use = .entry q → ∃ x rest, (s.sq q.val).issued = x :: rest ∧ waits x.2.2 (s.sq q.val).desc.world) →
          ∃ t, exec (.hostCompletionTimeout use) s = .next t ∧ (t.sq q.val).st = .error ∧ (t.sq q.val).err = 5 ∧ t.host.cto = more s.host.cto)) ∧
      (∀ k : Fin 1024, use = .head k → hostOut s use = true → waits (s.ring k.val).readAt (s.ring k.val).desc.world → ∃ t, exec (.hostCompletionTimeout use) s = .next t ∧
        (t.ring k.val).st = .error ∧ (t.ring k.val).err = 5 ∧ t.host.cto = more s.host.cto)) ∧
    -- resets
    (¬up → exec (.functionLevelReset pf) s = .next s) ∧
    (hostPeriod s = 0 → exec .hostLinkReset s = .next s) ∧
    (s.subs = [] → s.q.sq = [] → s.q.cq = [] →
      let clear (t : State) (g : Nat) : Prop := (t.hostFn g).bme = false ∧ (t.hostFn g).msixEn = false ∧ (t.hostFn g).funcMask = false ∧
        (t.hostFn g).d3 = false ∧ (t.hostFn g).cto = 0 ∧ (∀ x ∈ t.ev.src, x.2.active ≠ some (2 + g)) ∧
        ∀ ch, (if g = 0 then ch < 8 else 8 ≤ ch ∧ ch < 15) → (t.mb ch false).inq = []
      (up → ∃ t, exec (.functionLevelReset pf) s = .next t ∧ clear t f ∧ t.host.flrs = more s.host.flrs ∧ t.mem = s.mem ∧
        (t.evSrc Config.srcHost).count ≠ 0) ∧
      (hostPeriod s ≠ 0 → ∃ t, exec .hostLinkReset s = .next t ∧ clear t 0 ∧ clear t 1 ∧ t.host.linkUp = false ∧ t.host.speed = 0 ∧
        t.host.width = 0 ∧ t.host.linkDowns = (if s.host.linkUp = true then more s.host.linkDowns else s.host.linkDowns) ∧ t.mem = s.mem ∧
        (t.evSrc Config.srcHost).count ≠ 0))

/-- R479 to R488: the steps of start-up, the choice of a slot and its second try, READY, the updates of the inactive slot, and the
fuses. -/
def Obligations.BootCommands : Prop :=
  ∀ (s : State),
    let b := s.boot
    let bt (t : State) (g : Boot → Boot) : State := t.modBoot g
    let halt (t : State) (code : Nat) : State := (bt t fun b => { b with st := .stopped, stop := code }).modMon fun m =>
      { m with run := b.monEn, noimg := true, banner := b.monEn }
    let fails (t : State) (e : Nat × Nat × Nat) : State :=
      let u := bt t fun b => { b with errCode := e.1, errSec := e.2.1, errRec := e.2.2, errSlot := s.boot.slot }
      match b.other with
      | some x => bt u fun b => { b with slot := x, other := none, fallback := true, st := .reading, readAt := s.now, len := 0 }
      | none => halt u 1
    let done (t : State) (result : Nat) : State :=
      raiseEvent (bt t fun b => { b with updBusy := 0, updResult := result, updData := [] }) Config.srcBoot
    s.posted = [] →
    -- steps 2 to 7
    (∀ failed, (b.st ≠ .fieldTest → exec (.fieldSelfTestComplete failed) s = .next s) ∧
      (b.st = .fieldTest → ∃ t, exec (.fieldSelfTestComplete failed) s = .next t ∧ t.boot = { b with st := .resetWait } ∧
        t.fd = { s.fd with fdPass := ~~~failed, fdDone := true } ∧ t.pins = s.pins ∧ t.mem = s.mem ∧
        ∀ k, k < 12 → t.bank k = if bitOf failed k = true then { s.bank k with failed := true } else s.bank k)) ∧
    (∀ (monEn : Bool) (cpos : Fin 4), (b.st ≠ .resetWait → exec (.mainDieResetRelease monEn cpos) s = .next s) ∧
      (b.st = .resetWait → ∃ t, exec (.mainDieResetRelease monEn cpos) s = .next t ∧ t.now = 0 ∧ t.mem = s.mem ∧
        t.boot = { b with st := .memory, monEn := monEn, cpos := cpos.val, unprov := s.fuses.keys.all (·.isNone) } ∧
        fld (t.reg 0x60000) 9 8 = cpos.val ∧ (∀ o, o ≠ 0x60000 → t.reg o = s.reg o) ∧ ∀ i, i < 212 → (t.island i).clk = 2)) ∧
    (∀ r : MemInit, (b.st ≠ .memory → exec (.memoryInitComplete r) s = .next s) ∧
      (b.st = .memory →
        (r.memOk = false → exec (.memoryInitComplete r) s = .next (halt s 2)) ∧
        (r.memOk = true → r.dramOk = false → exec (.memoryInitComplete r) s = .next (halt s 3)) ∧
        (r.memOk = true → r.dramOk = true → r.romOk = false → exec (.memoryInitComplete r) s = .next (halt s 4)) ∧
        (r.memOk = true → r.dramOk = true → r.romOk = true →
          let a := candidate s r.hdrA
          let c := candidate s r.hdrB
          let seqs (b : Boot) : Boot := { b with seqA := if a = true then imgSeq r.hdrA else 0, seqB := if c = true then imgSeq r.hdrB else 0 }
          let takes (slot : Bool) (other : Option Bool) : State := bt s fun b => { seqs b with slot := slot, other := other, st := .reading, readAt := s.now }
          (r.loamBad = [] →
            (a = false → c = false → exec (.memoryInitComplete r) s = .next (halt (bt s seqs) 1)) ∧
            (a = true → c = false → exec (.memoryInitComplete r) s = .next (takes false none)) ∧
            (a = false → c = true → exec (.memoryInitComplete r) s = .next (takes true none)) ∧
            (a = true → c = true → (imgSeq r.hdrB).toNat ≤ (imgSeq r.hdrA).toNat → exec (.memoryInitComplete r) s =
              .next (takes false (some true))) ∧
            (a = true → c = true → (imgSeq r.hdrA).toNat < (imgSeq r.hdrB).toNat → exec (.memoryInitComplete r) s =
              .next (takes true (some false)))) ∧
          (∃ t, exec (.memoryInitComplete r) s = .next t ∧ ∀ n ∈ r.loamBad, (t.te n.val).st = .retired)))) ∧
    (let early := b.readAt.toNat ≤ s.now.toNat ∧ s.now.toNat < b.readAt.toNat + 1000000
     ∀ bytes : List Byte, (b.st ≠ .reading ∨ early → exec .flashReadTimeout s = .next s) ∧
      (b.st ≠ .reading → exec (.imageReadComplete bytes) s = .next s) ∧
      (b.st = .reading →
        let s1 := bt (pokeMem s 0x1DE000000 bytes) fun b => { b with len := bytes.length }
        (¬early → exec .flashReadTimeout s = .next (fails s (3, 0, 0))) ∧
        (headerFault s bytes ≠ 0 → exec (.imageReadComplete bytes) s = .next (fails s1 (headerFault s bytes, 0, 0))) ∧
        (headerFault s bytes = 0 → sectionsOk bytes = false → exec (.imageReadComplete bytes) s = .next (fails s1 (6, 0, 0))) ∧
        (headerFault s bytes = 0 → sectionsOk bytes = true → exec (.imageReadComplete bytes) s =
          .next (bt s1 fun b => { b with st := .auth })) ∧
        (MemOk s → ∀ i, i < bytes.length → cellGet s1.mem (0x1DE000000 + i) = nth 0 bytes i))) ∧
    (let img := (List.range b.len).map fun i => cellGet s.mem (0x1DE000000 + i)
     (b.st ≠ .auth → exec .authenticationComplete s = .next s) ∧
     (b.st = .auth →
       (authFault s img ≠ 0 → exec .authenticationComplete s = .next (fails s (authFault s img, 0, 0))) ∧
       (∀ key, authFault s img = 0 → (if b.unprov = true then key = 2 else matchingKey s img = some key) →
         exec .authenticationComplete s = .next (bt (s.modFuses fun x => { x with used := key }) fun b =>
           { b with st := .apply, svn := imgSvn img }))) ∧
     (∀ (cx : List (Fin 66)) (cal : List CalRead), (b.st ≠ .apply → exec (.imageApplyComplete cx cal) s = .next s) ∧
       (b.st = .apply →
         let calibrated (u : State) : Prop := ∀ k, k < 12 → (u.bank k).failed = true ∨ ∃ c ∈ cal, c.bank.val = k
         (∀ e, loadImage s img = .error e → ∃ m g u,
           exec (.imageApplyComplete cx cal) s = .next (fails { s with mem := m, tags := g, ue := u } e) ∧
           ((∀ r ∈ allRecords img, e.2.1 < r.sec ∨ (e.2.1 = r.sec ∧ e.2.2 ≤ r.idx)) → m = s.mem ∧ g = s.tags ∧ u = s.ue)) ∧
         (∀ u, loadImage s img = .ok u → (bitOf (u.reg 0x420) 0 = true ∧ b.zeroed = false) ∨ ¬calibrated u →
           exec (.imageApplyComplete cx cal) s = .next s) ∧
         (∀ u, loadImage s img = .ok u → bitOf (u.reg 0x420) 0 = false ∨ b.zeroed = true → calibrated u → ∃ t, exec (.imageApplyComplete cx cal) s = .next t ∧
           t.boot.st = .forming ∧ t.boot.formAt = t.now ∧ bitOf (t.reg 0x70000) 0 = true ∧
           (∀ k, k < 2 → (t.core (64 + k)).run = true ∧ (t.core (64 + k)).pc = (t.core (64 + k)).evbase ∧ (t.core (64 + k)).cause = 0 ∧
             (t.core (64 + k)).lvl = true ∧ (t.core (64 + k)).world = if k = 0 then .safety else .service) ∧
           (voteMode t = 0 → t.vote.st = .inService) ∧ (voteMode t ≠ 0 → t.vote.st = .forming))))) ∧
    (let may : Prop := b.zeroed = false ∧ (b.st = .reading ∨ b.st = .auth ∨ b.st = .apply)
     (¬may → exec .dramZeroingComplete s = .next s) ∧
     (may → exec .dramZeroingComplete s = .next { s with
       mem := s.mem.filter (fun c => decide (0x1DC000000 ≤ c.1)), ue := s.ue.filter (fun g => decide (0x1DC000000 ≤ g)),
       boot := { b with zeroed := true } })) ∧
    -- READY
    (let serve (t : State) : State := raiseEvent (bt ((t.setReg 0xC0000 (setBit (t.reg 0xC0000) 0 true)).modEv fun e => { e with en := true })
       fun b => { b with st := .ready, ready := true }) Config.srcBoot
     let late : Prop := b.formAt.toNat + 1000000 * b.formWait ≤ s.now.toNat
     let formed_ : Prop := voteMode s = 0 ∨ s.vote.st ≠ .forming
     let bit (i : Nat) : Bool := bitOf (nth 0 b.qenable (i / 8)) (i % 8)
     (b.st ≠ .forming ∨ s.cu.pl ≠ .none ∨ ¬late → exec .formWaitExpiry s = .next s) ∧
     (b.st ≠ .forming ∨ s.cu.pl ≠ .none ∨ ¬formed_ → exec .ready s = .next s) ∧
     (b.st = .forming → s.cu.pl = .none →
       ((∀ i, i < 2048 → bit i = false) →
         (late → exec .formWaitExpiry s = .next (serve s)) ∧ (formed_ → exec .ready s = .next (serve s))) ∧
       (∀ k, k < 1024 → (∀ i, i < 2048 → (bit i = true ↔ i = 1024 + k)) → (s.ring k).st = .disabled → (enableRing s k).posted = [] →
         formed_ → exec .ready s = .next (serve (enableRing s k))) ∧
       (∀ k, k < 1024 → (∀ i, i < 2048 → (bit i = true ↔ i = k)) → (s.sq k).st = .disabled → (enableQueue s k).posted = [] →
         formed_ → exec .ready s = .next (serve (enableQueue s k))))) ∧
    -- updates of the inactive slot
    (∀ who : Initiator,
      let ofs := fld (s.reg 0x1024) 24 0
      let len := fld (s.reg 0x1030) 16 0
      let a := (s.reg 0x1028).toNat + 2 ^ 32 * fld (s.reg 0x102C) 3 0
      let locked : Prop := bitOf (s.reg 0x1010) 0 = true
      let refused (t : State) (r : Nat) : State := bt t fun b => { b with updResult := r }
      let begins (t : State) (op : Nat) (data : List Byte) : State := bt t fun b =>
        { b with updBusy := op, updResult := 0, vcode := 0, updData := data, updAt := s.now }
      let fits : Prop := ofs % 256 = 0 ∧ len % 256 = 0 ∧ 256 ≤ len ∧ len ≤ 65536 ∧ ofs + len ≤ 0x2000000
      (Writes s who 0x1020 (BitVec.ofNat 32 (2 ^ 31 + 1)) →
        (locked → exec (.clayErase who) s = .next (refused s 1)) ∧
        (¬locked → ofs % 65536 ≠ 0 → exec (.clayErase who) s = .next (refused s 2)) ∧
        (¬locked → ofs % 65536 = 0 → exec (.clayErase who) s = .next (begins s 1 []))) ∧
      (Writes s who 0x1020 (BitVec.ofNat 32 (2 ^ 31 + 2)) →
        (locked → exec (.clayProgram who) s = .next (refused s 1)) ∧
        (¬locked → ¬fits → exec (.clayProgram who) s = .next (refused s 2)) ∧
        (∀ u e, ¬locked → fits → devRead s .scV a len = (u, .error e) → u.posted = [] → exec (.clayProgram who) s = .next (refused u 3)) ∧
        (∀ u bs, ¬locked → fits → devRead s .scV a len = (u, .ok bs) → u.posted = [] → u.now = s.now →
          exec (.clayProgram who) s = .next (begins u 2 bs))) ∧
      (Writes s who 0x1020 (BitVec.ofNat 32 (2 ^ 31 + 3)) →
        (locked → exec (.clayVerify who) s = .next (refused s 1)) ∧
        (¬locked → exec (.clayVerify who) s = .next (begins s 3 [])))) ∧
    (∀ (ok : Bool) (slot : List Byte), (b.updBusy = 0 → exec (.clayUpdateComplete ok slot) s = .next s) ∧
      (b.updBusy ≠ 0 →
        (exec (.clayUpdateComplete false slot) s = .next (done s 4)) ∧
        (b.updBusy ≠ 3 → exec (.clayUpdateComplete true slot) s = .next (done s 0)) ∧
        (b.updBusy = 3 → verifyFault s slot ≠ 0 → exec (.clayUpdateComplete true slot) s =
          .next (done (bt s fun b => { b with vcode := verifyFault s slot }) 5)) ∧
        (b.updBusy = 3 → verifyFault s slot = 0 → exec (.clayUpdateComplete true slot) s =
          .next (done (bt s fun b => { b with vseq := imgSeq slot, vhash := identityHash slot }) 0)))) ∧
    (let late : Prop := (b.updBusy = 1 ∨ b.updBusy = 2) ∧ b.updAt.toNat + 5000000000 ≤ s.now.toNat
     (¬late → exec .clayUpdateTimeout s = .next s) ∧ (late → exec .clayUpdateTimeout s = .next (done s 4))) ∧
    -- fuses
    (∀ (who : Initiator) (k : Fin 2) (svn : Fin 64),
      let f := s.fuses
      let no (r : Nat) : State := s.modFuses fun f => { f with result := r }
      let go (op key svn : Nat) : State := s.modFuses fun f => { f with
        busy := true, result := 0, op := (op, key, svn), data := (List.range 8).map fun i => s.reg (0x1070 + 4 * i) }
      let v (op key svn : Nat) : Word := BitVec.ofNat 32 (2 ^ 31 + op + key * 8 + svn * 16)
      (Writes s who 0x1064 (v 1 k.val 0) → exec (.fuseKey who k) s =
        .next (if f.lock = true ∨ nth none f.keys k.val ≠ none then no 1 else go 1 k.val 0)) ∧
      (Writes s who 0x1064 (v 2 k.val 0) → exec (.fuseRevoke who k) s = .next (if keyUsable s (1 - k.val) = true then go 2 k.val 0 else no 2)) ∧
      (Writes s who 0x1064 (v 3 0 svn.val) → exec (.fuseSvn who svn) s =
        .next (if svn.val < f.floor ∨ b.svn < svn.val then no 3 else go 3 0 svn.val)) ∧
      (Writes s who 0x1064 (v 4 0 0) → exec (.fuseLock who) s = .next (if f.keys.all (·.isNone) = true then no 4 else go 4 0 0)) ∧
      (f.busy = false → exec .fuseOperationComplete s = .next s) ∧
      (f.busy = true →
        let ends (g : Fuses → Fuses) : Prop := exec .fuseOperationComplete s = .next (s.modFuses fun f => { g f with busy := false })
        (f.op = (1, k.val, 0) → ends fun f => { f with keys := f.keys.set k.val (some f.data) }) ∧
        (f.op = (2, k.val, 0) → ends fun f => { f with revoked := f.revoked.set k.val true }) ∧
        (f.op = (3, 0, svn.val) → ends fun f => { f with floor := svn.val }) ∧
        (f.op = (4, 0, 0) → ends fun f => { f with lock := true })))

/-- R513 to R525: the lines of the Daster monitor, each with its refusals in their order, its action and its answer; the line rate;
and a core's halt at a breakpoint. -/
def Obligations.MonitorCommands : Prop :=
  ∀ (s : State) (te : Byte),
    let n := te.toNat
    let no (code : Nat) : State := s.modMon fun m =>
      { m with answers := m.answers ++ [{ no := code }], rateAt := none, refused := satInc 255 m.refused }
    let bad (code : Nat) : State := s.modMon fun m =>
      { m with answers := m.answers ++ [{ no := code }], refused := satInc 255 m.refused }
    let ok (t : State) (data : List Word) : State := t.modMon fun m =>
      { m with answers := m.answers ++ [{ data := data }], rateAt := none, lines := satInc 0xFFFF m.lines }
    let may : Prop := voteMode s = 0 ∧ s.mon.sWrite = true
    let away : Prop := (s.island n).clk ≠ 2 ∨ (s.te n).st = .retired ∨ (s.te n).st = .loading
    let safe : Prop := ∃ x ∈ s.subs, x.2.attr.valid = true ∧ x.2.attr.world = .safety ∧ (x.2.attr.owner = n ∨ inTeMask s x.2.attr.cls n = true)
    let free : Prop := n < 64 ∧ (safe → may) ∧ ¬away
    let dbg (f : TeDbg → TeDbg) : State := s.modDbg n f
    let ctl (t : State) : Word := regValue t (.te n 0x40)
    let at_ (t : State) : Word := regValue t (.te n 0x44)
    s.posted = [] →
    -- when the monitor runs, how a line reaches it, and without an image
    (∀ (a : BitVec 36) (v : Word) (k r : Byte) (cls : Option Byte), ∀ c ∈ ([.monDisplay a k, .monWriteWord a v, .monReadRegister a,
        .monWriteRegister a v, .monHalt te, .monStep te, .monResume te, .monBreakpoint te k a cls, .monCoreRegister te r,
        .monTraceDump k, .monIslandStatus k, .monSlotStatus, .monCxemu te k, .monLineRate k] : List (LineIs → Instr)),
      (s.mon.run = false → ∀ l, exec (c l) s = .next s) ∧
      (s.mon.run = true → exec (c .badSum) s = .next (bad 1) ∧ exec (c .malformed) s = .next (bad 2) ∧
        exec (c .overrun) s = .next (bad 3) ∧ exec (c .unknown) s = .next (no 4))) ∧
    (s.mon.run = true → s.mon.noimg = true →
      (∀ a v, exec (.monWriteWord a v .good) s = .next (no 9)) ∧ (∀ o v, exec (.monWriteRegister o v .good) s = .next (no 9)) ∧
      exec (.monHalt te .good) s = .next (no 9) ∧ exec (.monStep te .good) s = .next (no 9) ∧ exec (.monResume te .good) s = .next (no 9) ∧
      (∀ k a c, exec (.monBreakpoint te k a c .good) s = .next (no 9)) ∧ (∀ r, exec (.monCoreRegister te r .good) s = .next (no 9)) ∧
      (∀ k, exec (.monTraceDump k .good) s = .next (no 9)) ∧ ∀ e, exec (.monCxemu te e .good) s = .next (no 9)) ∧
    (s.mon.run = true →
      -- D, Q, I, L, B
      (∀ (a : BitVec 36) (k : Byte),
        let args : Prop := k ≠ 0 ∧ k.toNat ≤ 64 ∧ a.toNat % 4 = 0
        let seen : Prop := ∀ i, i < k.toNat → a.toNat + 4 * i < 2 ^ 36 ∧ monReads s (a.toNat + 4 * i) = true
        (¬args → exec (.monDisplay a k .good) s = .next (no 4)) ∧
        (args → ¬seen → exec (.monDisplay a k .good) s = .next (no 5)) ∧
        (args → seen → ueHit s a.toNat (4 * k.toNat) = none → exec (.monDisplay a k .good) s =
          .next (ok s ((List.range k.toNat).map fun i => peekWord s (a.toNat + 4 * i)))) ∧
        (args → seen → ∀ g, ueHit s a.toNat (4 * k.toNat) = some g → ∃ t, exec (.monDisplay a k .good) s = .next t ∧
          t.mon.answers = s.mon.answers ++ [{ no := 5 }] ∧ t.memErrs.ueCount = satInc 255 s.memErrs.ueCount)) ∧
      (∀ o : BitVec 36,
        let off := o.toNat
        let named : Prop := off < 0x200000 ∧ off % 4 = 0
        let open_ : Prop := (s.mon.noimg = true → bareRegister off = true) ∧ readActs s off = false ∧ readRefused s .monitor (regAt off) = false
        (¬named → exec (.monReadRegister o .good) s = .next (no 4)) ∧
        (named → ¬open_ → exec (.monReadRegister o .good) s = .next (no 5)) ∧
        (named → open_ → regStalled s off = true → exec (.monReadRegister o .good) s = .next (no 8)) ∧
        (∀ u v, named → open_ → regStalled s off = false → readReg s .monitor off = (u, v) → exec (.monReadRegister o .good) s =
          .next (ok u [if off = 0xB0004 then v ||| 2 else if off = 0xA0100 then (v &&& ~~~3) ||| 1 else v]))) ∧
      (∀ i : Byte, (212 ≤ i.toNat → exec (.monIslandStatus i .good) s = .next (no 4)) ∧
        (i.toNat < 212 →
          let x := s.island i.toNat
          exec (.monIslandStatus i .good) s = .next (ok s [pack [(0, 2, x.clk), (2, 1, b2n x.slow), (3, 1, b2n x.wdog), (4, 12, x.freq), (16, 8, x.cnt)]]))) ∧
      exec (.monSlotStatus .good) s = .next (ok s ([0x1008, 0x100C, 0x1000, 0x1004, 0x1038].map fun o => regValue s (.boot o))) ∧
      (∀ r : Byte, (6 ≤ r.toNat → exec (.monLineRate r .good) s = .next (no 4)) ∧
        (r.toNat < 6 → exec (.monLineRate r .good) s = .next ((ok s []).modMon fun m => { m with rate := r.toNat, rateAt := some s.now })))) ∧
    (s.mon.rateAt = none → exec .monRateRevert s = .next s) ∧
    (∀ t, s.mon.rateAt = some t → s.mon.run = true →
      (t.toNat + 10000000000 ≤ s.now.toNat → exec .monRateRevert s = .next (s.modMon fun m => { m with rate := 0, rateAt := none })) ∧
      (s.now.toNat < t.toNat + 10000000000 → exec .monRateRevert s = .next s)) ∧
    (s.mon.run = true → s.mon.noimg = false →
      -- M and W
      (∀ (a : BitVec 36) (v : Word),
        let p := placeOf s a.toNat
        (a.toNat % 4 ≠ 0 → exec (.monWriteWord a v .good) s = .next (no 4)) ∧
        (a.toNat % 4 = 0 →
          (p = .nowhere ∨ p = .regs ∨ deciding (rgnNow s) (a.toNat / 4096) = none → exec (.monWriteWord a v .good) s = .next (no 5)) ∧
          (∀ k attr, p ≠ .nowhere → p ≠ .regs → deciding (rgnNow s) (a.toNat / 4096) = some (k, attr) →
            let w (x : World) (c : Col) : Bool := grants attr x c .write
            let safeTarget : Prop := w .safety .u = true ∨ w .safety .p = true ∨ w .safety .e = true
            let good : Prop := w .service .p = true ∨ (may ∧ w .safety .p = true)
            (w .service .p = false → safeTarget → ¬may → exec (.monWriteWord a v .good) s = .next (no 6)) ∧
            (w .service .p = false → ¬safeTarget → exec (.monWriteWord a v .good) s = .next (no 5)) ∧
            (good → uePart s a.toNat 4 = none → ∃ t, exec (.monWriteWord a v .good) s = .next t ∧
              t.mem = cellsSet s.mem a.toNat (toBytes 4 v.toNat) ∧ t.mon = (ok s []).mon ∧ t.regs = s.regs)))) ∧
      (∀ (o : BitVec 36) (v : Word),
        let off := o.toNat
        let named : Prop := off < 0x200000 ∧ off % 4 = 0
        (¬named → exec (.monWriteRegister o v .good) s = .next (no 4)) ∧
        (named → (0x40000 ≤ off ∧ off < 0x50000) ∨ (0x60000 ≤ off ∧ off < 0x70000) ∨ (0x2000 ≤ off ∧ off < 0x4000) ∨
          (0x1060 ≤ off ∧ off < 0x1090) ∨ off = 0xB0000 ∨ (∃ k r, regAt off = .te k r ∧ (r = 0x40 ∨ r = 0x44 ∨ r = 0x50)) →
          exec (.monWriteRegister o v .good) s = .next (no 10)) ∧
        (named → monNever off = false →
          (∀ who, monWriter s off = some who →
            (who = .scS → ¬may → exec (.monWriteRegister o v .good) s = .next (no 6)) ∧
            ((who = .scS → may) → regRefuses s who off v = true → exec (.monWriteRegister o v .good) s = .next (no 5)) ∧
            ((who = .scS → may) → regRefuses s who off v = false → regStalled s off = true → exec (.monWriteRegister o v .good) s = .next (no 8)) ∧
            ((who = .scS → may) → regRefuses s who off v = false → regStalled s off = false → (regEffect s who off v).posted = [] →
              exec (.monWriteRegister o v .good) s = .next (ok (regEffect s who off v) []))) ∧
          (monWriter s off = none → exec (.monWriteRegister o v .good) s = .next (no 5)))) ∧
      -- H, S, G, K
      (64 ≤ n → exec (.monHalt te .good) s = .next (no 4) ∧ exec (.monStep te .good) s = .next (no 4) ∧ exec (.monResume te .good) s = .next (no 4)) ∧
      (n < 64 → safe → ¬may → exec (.monHalt te .good) s = .next (no 6) ∧ exec (.monStep te .good) s = .next (no 6) ∧ exec (.monResume te .good) s = .next (no 6)) ∧
      (n < 64 → (safe → may) → away → exec (.monHalt te .good) s = .next (no 8) ∧ exec (.monStep te .good) s = .next (no 8) ∧
        exec (.monResume te .good) s = .next (no 8)) ∧
      (free →
        ((s.dbg n).halted = true → exec (.monHalt te .good) s = .next (ok s [ctl s, at_ s])) ∧
        ((s.dbg n).halted = false → teRuns s n = false →
          let u := dbg fun d => { d with haltReq := true }
          exec (.monHalt te .good) s = .next (ok u [ctl u, at_ u])) ∧
        ((s.dbg n).halted = false → teRuns s n = true → ∃ t, exec (.monHalt te .good) s = .next t ∧ (t.dbg n).halted = true ∧ (t.dbg n).why = 1 ∧
          (t.dbg n).haltReq = false ∧ t.cores = s.cores ∧ t.subs = s.subs ∧ t.mem = s.mem ∧
          t.mon.answers = s.mon.answers ++ [{ data := [ctl t, at_ t] }]) ∧
        ((s.dbg n).halted = false → exec (.monStep te .good) s = .next (no 7) ∧ exec (.monResume te .good) s = .next (no 7)) ∧
        ((s.dbg n).halted = true →
          (∃ a b, exec (.monStep te .good) s = .next (ok { dbg (fun d => { d with halted := false, passed := true, step := true }) with
            freeCtr := s.freeCtr + 2 } [a, b])) ∧
          (let u := dbg fun d => { d with halted := false, passed := true }
           exec (.monResume te .good) s = .next (ok u [ctl u])))) ∧
      (∀ (k : Byte) (a : BitVec 36) (c : Option Byte),
        let cls := (c.map (·.toNat)).getD 0
        let args : Prop := k.toNat < 2 ∧ (a = 0xFFFFF ∨ (a.toNat < 0x10000 ∧ a.toNat % 2 = 0)) ∧ cls < 64
        let set (d : TeDbg) : TeDbg := if a = 0xFFFFF then { d with bkpt := setNth d.bkpt k.toNat 0, bkptEn := setBit d.bkptEn k.toNat false }
          else { d with bkpt := setNth d.bkpt k.toNat (pack [(0, 16, a.toNat), (16, 6, cls), (22, 1, b2n c.isSome)]),
                        bkptEn := setBit d.bkptEn k.toNat true }
        (¬args → exec (.monBreakpoint te k a c .good) s = .next (no 4)) ∧
        (args → free → exec (.monBreakpoint te k a c .good) s = .next (ok (dbg set) [nth 0 ((dbg set).dbg n).bkpt k.toNat]))) ∧
      -- X, T, C
      (∀ r : Byte,
        (64 ≤ n ∨ 53 ≤ r.toNat → exec (.monCoreRegister te r .good) s = .next (no 4)) ∧
        (n < 64 → r.toNat < 53 → away → exec (.monCoreRegister te r .good) s = .next (no 8)) ∧
        (n < 64 → r.toNat < 53 → ¬away → (s.dbg n).halted = false → exec (.monCoreRegister te r .good) s = .next (no 7)) ∧
        (n < 64 → r.toNat < 32 → ¬away → (s.dbg n).halted = true → exec (.monCoreRegister te r .good) s =
          .next (ok (s.modMon fun m => { m with sel := pack [(0, 6, n), (8, 6, r.toNat)] }) [nth 0 (s.core n).g r.toNat])) ∧
        (n < 64 → 32 ≤ r.toNat → r.toNat < 53 → ¬away → (s.dbg n).halted = true → ∃ t v, exec (.monCoreRegister te r .good) s = .next t ∧
          t.mon.answers = s.mon.answers ++ [{ data := [v] }] ∧ t.cores = s.cores)) ∧
      (∀ k : Byte,
        (32 < k.toNat → exec (.monTraceDump k .good) s = .next (no 4)) ∧
        (k = 0 → exec (.monTraceDump k .good) s = .next (ok (s.modMon fun m => { m with trace := [], traceDrop := 0 }) [])) ∧
        (k ≠ 0 → k.toNat ≤ 32 → exec (.monTraceDump k .good) s = .next (ok s ((s.mon.trace.drop (s.mon.trace.length - k.toNat)).flatMap fun (t : TraceRec) =>
          [t.time.setWidth 32, (t.time >>> 32).setWidth 32, pack [(0, 6, t.te), (6, 3, t.kind), (9, 12, t.sub), (21, 8, t.code)], t.pc])))) ∧
      (∀ e : Byte,
        let core : Prop := n < 66 ∧ e.toNat < 2
        let guarded : Prop := n = 64 ∨ (n < 64 ∧ safe)
        let o := if n < 32 then 0x500 else if n < 64 then 0x504 else 0x508
        let u := s.setReg o (setBit (s.reg o) (if n < 64 then n % 32 else n - 64) (e == 1))
        (¬core → exec (.monCxemu te e .good) s = .next (no 4)) ∧
        (core → guarded → ¬may → exec (.monCxemu te e .good) s = .next (no 6)) ∧
        (core → (guarded → may) → n < 64 → away → exec (.monCxemu te e .good) s = .next (no 8)) ∧
        (core → (guarded → may) → (n < 64 → ¬away) → exec (.monCxemu te e .good) s = .next (ok u [u.reg o])))) ∧
    -- breakpoints
    (∀ t : Fin 64,
      (coreGoes s t.val = false ∨ bkptAt s t.val = none → exec (.breakpointHalt t) s = .next s) ∧
      (∀ i, coreGoes s t.val = true → bkptAt s t.val = some i → ∃ u, exec (.breakpointHalt t) s = .next u ∧ (u.dbg t.val).halted = true ∧
        (u.dbg t.val).why = 4 + i ∧ u.cores = s.cores ∧ u.subs = s.subs ∧ u.mem = s.mem))
end

