-- ==== Sys2Proof/Laws/Cells.lean ====
section
/-! SUPPORT. The byte memories: reading back what was written, and the canonical form. -/

namespace Sys2Proof.Machine

@[simp] theorem cellGet_nil (a : Nat) : cellGet [] a = blankByte := rfl

/-- Every address of a canonical memory lies at or above its first entry. -/
theorem cellGet_below {m : List Host.Cell} {a b : Nat} {u : Byte} (h : cellsWf ((b, u) :: m) = true) (ha : a < b) :
    cellGet ((b, u) :: m) a = blankByte := by
  induction m generalizing b u with
  | nil => simp only [cellGet]; rw [if_neg (by omega)]
  | cons e m ih =>
    obtain ⟨c, w⟩ := e
    simp only [cellsWf, Bool.and_eq_true, decide_eq_true_eq] at h
    have := ih h.2 (by omega)
    simp only [cellGet] at this ⊢
    rw [if_neg (by omega)]
    exact this

theorem cellsWf_tail {e : Host.Cell} {m : List Host.Cell} (h : cellsWf (e :: m) = true) : cellsWf m = true := by
  cases m with
  | nil => rfl
  | cons f m => simp only [cellsWf, Bool.and_eq_true] at h; exact h.2

theorem cellGet_tail {m : List Host.Cell} {a : Nat} {u : Byte} (h : cellsWf ((a, u) :: m) = true) :
    cellGet m a = blankByte := by
  cases m with
  | nil => rfl
  | cons e m =>
    obtain ⟨c, w⟩ := e
    simp only [cellsWf, Bool.and_eq_true, decide_eq_true_eq] at h
    exact cellGet_below h.2 h.1.1

/-- Reading after a write of one byte. -/
theorem cellGet_cellSet {m : List Host.Cell} (h : cellsWf m = true) (a b : Nat) (v : Byte) :
    cellGet (cellSet m a v) b = if a = b then v else cellGet m b := by
  induction m with
  | nil =>
    simp only [cellSet]
    split
    · split <;> simp_all
    · simp only [cellGet]
  | cons e m ih =>
    obtain ⟨c, w⟩ := e
    have hm := cellsWf_tail h
    simp only [cellSet]
    split
    · split
      · split
        · subst_vars; exact cellGet_below h (by omega)
        · rfl
      · simp only [cellGet]
    · split
      · subst_vars
        split
        · split
          · subst_vars; exact cellGet_tail h
          · simp only [cellGet]; rw [if_neg (by omega)]
        · simp only [cellGet]
          split <;> rfl
      · simp only [cellGet, ih hm]
        split
        · rw [if_neg (by omega)]
        · rfl

/-- The head of a memory after a write lies above any address that was below both. -/
theorem cellsWf_cons {m : List Host.Cell} {c : Nat} {w : Byte} (hm : cellsWf m = true) (hw : (w != blankByte) = true)
    (hc : ∀ e ∈ m.head?, c < e.1) : cellsWf ((c, w) :: m) = true := by
  cases m with
  | nil => simpa [cellsWf] using hw
  | cons e m =>
    simp only [cellsWf, Bool.and_eq_true, decide_eq_true_eq]
    exact ⟨⟨hc e (by simp), hw⟩, hm⟩

theorem cellsWf_head {c : Nat} {w : Byte} {m : List Host.Cell} (h : cellsWf ((c, w) :: m) = true) :
    (w != blankByte) = true ∧ ∀ e ∈ m.head?, c < e.1 := by
  cases m with
  | nil => simpa [cellsWf] using h
  | cons e m =>
    simp only [cellsWf, Bool.and_eq_true, decide_eq_true_eq] at h
    refine ⟨h.1.2, ?_⟩
    intro e' he
    simp at he
    subst he
    exact h.1.1

theorem cellSet_head {m : List Host.Cell} {a c : Nat} {v : Byte} (hm : cellsWf m = true) (hc : ∀ e ∈ m.head?, c < e.1)
    (ha : c < a) : ∀ e ∈ (cellSet m a v).head?, c < e.1 := by
  cases m with
  | nil =>
    simp only [cellSet]
    split
    · simp
    · intro e he; simp at he; subst he; exact ha
  | cons f m =>
    obtain ⟨b, u⟩ := f
    have hb : c < b := hc (b, u) (by simp)
    have hh := (cellsWf_head hm).2
    simp only [cellSet]
    split
    · split <;> (intro e he; simp at he; subst he; simp_all)
    · split
      · split
        · intro e he
          have := hh e he
          omega
        · intro e he; simp at he; subst he; simp_all
      · intro e he; simp at he; subst he; simp_all

/-- A write of one byte keeps the canonical form. -/
theorem cellsWf_cellSet {m : List Host.Cell} (h : cellsWf m = true) (a : Nat) (v : Byte) : cellsWf (cellSet m a v) = true := by
  induction m with
  | nil =>
    simp only [cellSet]
    split
    · rfl
    · simpa [cellsWf] using (by assumption)
  | cons e m ih =>
    obtain ⟨c, w⟩ := e
    have hm := cellsWf_tail h
    obtain ⟨hw, hh⟩ := cellsWf_head h
    simp only [cellSet]
    split
    · split
      · exact h
      · exact cellsWf_cons h (by simpa using (by assumption)) (by intro e he; simp at he; subst he; assumption)
    · split
      · split
        · exact hm
        · exact cellsWf_cons hm (by simpa using (by assumption)) (by intro e he; have := hh e he; omega)
      · exact cellsWf_cons (ih hm) hw (cellSet_head hm hh (by omega))

/-- A write of bytes keeps the canonical form. -/
theorem cellsWf_cellsSet {m : List Host.Cell} (h : cellsWf m = true) (a : Nat) (bs : List Byte) :
    cellsWf (cellsSet m a bs) = true := by
  induction bs generalizing m a with
  | nil => exact h
  | cons v vs ih => exact ih (cellsWf_cellSet h a v) (a + 1)

/-- Reading after a write of bytes. -/
theorem cellGet_cellsSet {m : List Host.Cell} (h : cellsWf m = true) (a b : Nat) (bs : List Byte) :
    cellGet (cellsSet m a bs) b = if a ≤ b ∧ b < a + bs.length then nth 0 bs (b - a) else cellGet m b := by
  induction bs generalizing m a with
  | nil => simp only [cellsSet]; rw [if_neg (by simp)]
  | cons v vs ih =>
    simp only [cellsSet]
    rw [ih (cellsWf_cellSet h a v), cellGet_cellSet h]
    by_cases hb : a = b
    · subst hb
      rw [if_neg (by omega), if_pos rfl, if_pos (by simp)]
      simp [nth]
    · rw [if_neg hb]
      by_cases hr : a + 1 ≤ b ∧ b < a + 1 + vs.length
      · rw [if_pos hr, if_pos (by simp only [List.length_cons]; omega)]
        obtain ⟨n, rfl⟩ : ∃ n, b = a + 1 + n := ⟨b - (a + 1), by omega⟩
        have h1 : a + 1 + n - (a + 1) = n := by omega
        have h2 : a + 1 + n - a = n + 1 := by omega
        rw [h1, h2]
        simp [nth]
      · rw [if_neg hr, if_neg (by simp only [List.length_cons]; omega)]

/-- Entries of a canonical memory taken out one by one leave it canonical. -/
theorem cellsWf_filter {m : List Host.Cell} (h : cellsWf m = true) (p : Host.Cell → Bool) : cellsWf (m.filter p) = true := by
  suffices hs : cellsWf (m.filter p) = true ∧ ∀ e ∈ (m.filter p).head?, ∀ c, (∀ f ∈ m.head?, c < f.1) → c < e.1 from hs.1
  induction m with
  | nil => exact ⟨rfl, by simp⟩
  | cons e m ih =>
    obtain ⟨c, w⟩ := e
    obtain ⟨hw, hh⟩ := cellsWf_head h
    obtain ⟨h1, h2⟩ := ih (cellsWf_tail h)
    simp only [List.filter]
    split
    · exact ⟨cellsWf_cons h1 hw fun e he => h2 e he c hh, by intro e he; simp at he; subst he; intro c hc; exact hc _ (by simp)⟩
    · refine ⟨h1, fun e he d hd => h2 e he d fun f hf => ?_⟩
      have := hd (c, w) (by simp)
      have := hh f hf
      omega

end Sys2Proof.Machine
end

