-- ==== Sys2Proof/Laws/State.lean ====
section
/-! SUPPORT. What each update of the state leaves unchanged, field by field, and what it writes. -/

namespace Sys2Proof.Machine

@[simp] theorem State.setNow_pending (s : State) (t : DWord) : (s.setNow t).pending = s.pending := rfl
@[simp] theorem State.setNow_ans (s : State) (t : DWord) : (s.setNow t).ans = s.ans := rfl
@[simp] theorem State.setNow_posted (s : State) (t : DWord) : (s.setNow t).posted = s.posted := rfl
@[simp] theorem State.setNow_freeCtr (s : State) (t : DWord) : (s.setNow t).freeCtr = s.freeCtr := rfl
@[simp] theorem State.setNow_islands (s : State) (t : DWord) : (s.setNow t).islands = s.islands := rfl
@[simp] theorem State.setNow_latch (s : State) (t : DWord) : (s.setNow t).latch = s.latch := rfl
@[simp] theorem State.setNow_regs (s : State) (t : DWord) : (s.setNow t).regs = s.regs := rfl
@[simp] theorem State.setNow_shadow (s : State) (t : DWord) : (s.setNow t).shadow = s.shadow := rfl
@[simp] theorem State.setNow_mem (s : State) (t : DWord) : (s.setNow t).mem = s.mem := rfl
@[simp] theorem State.setNow_tags (s : State) (t : DWord) : (s.setNow t).tags = s.tags := rfl
@[simp] theorem State.setNow_ue (s : State) (t : DWord) : (s.setNow t).ue = s.ue := rfl
@[simp] theorem State.setNow_hostMem (s : State) (t : DWord) : (s.setNow t).hostMem = s.hostMem := rfl
@[simp] theorem State.setNow_subs (s : State) (t : DWord) : (s.setNow t).subs = s.subs := rfl
@[simp] theorem State.setNow_q (s : State) (t : DWord) : (s.setNow t).q = s.q := rfl
@[simp] theorem State.setNow_reaches (s : State) (t : DWord) : (s.setNow t).reaches = s.reaches := rfl
@[simp] theorem State.setNow_pages (s : State) (t : DWord) : (s.setNow t).pages = s.pages := rfl
@[simp] theorem State.setNow_tes (s : State) (t : DWord) : (s.setNow t).tes = s.tes := rfl
@[simp] theorem State.setNow_mig (s : State) (t : DWord) : (s.setNow t).mig = s.mig := rfl
@[simp] theorem State.setNow_disp (s : State) (t : DWord) : (s.setNow t).disp = s.disp := rfl
@[simp] theorem State.setNow_cu (s : State) (t : DWord) : (s.setNow t).cu = s.cu := rfl
@[simp] theorem State.setNow_pins (s : State) (t : DWord) : (s.setNow t).pins = s.pins := rfl
@[simp] theorem State.setNow_banks (s : State) (t : DWord) : (s.setNow t).banks = s.banks := rfl
@[simp] theorem State.setNow_fd (s : State) (t : DWord) : (s.setNow t).fd = s.fd := rfl
@[simp] theorem State.setNow_sluice (s : State) (t : DWord) : (s.setNow t).sluice = s.sluice := rfl
@[simp] theorem State.setNow_ev (s : State) (t : DWord) : (s.setNow t).ev = s.ev := rfl
@[simp] theorem State.setNow_mbx (s : State) (t : DWord) : (s.setNow t).mbx = s.mbx := rfl
@[simp] theorem State.setNow_levee (s : State) (t : DWord) : (s.setNow t).levee = s.levee := rfl
@[simp] theorem State.setNow_weir (s : State) (t : DWord) : (s.setNow t).weir = s.weir := rfl
@[simp] theorem State.setNow_memErrs (s : State) (t : DWord) : (s.setNow t).memErrs = s.memErrs := rfl
@[simp] theorem State.setNow_host (s : State) (t : DWord) : (s.setNow t).host = s.host := rfl
@[simp] theorem State.setNow_cfls (s : State) (t : DWord) : (s.setNow t).cfls = s.cfls := rfl
@[simp] theorem State.setNow_vote (s : State) (t : DWord) : (s.setNow t).vote = s.vote := rfl
@[simp] theorem State.setNow_bks (s : State) (t : DWord) : (s.setNow t).bks = s.bks := rfl
@[simp] theorem State.setNow_brook (s : State) (t : DWord) : (s.setNow t).brook = s.brook := rfl
@[simp] theorem State.setNow_silt (s : State) (t : DWord) : (s.setNow t).silt = s.silt := rfl
@[simp] theorem State.setNow_dma (s : State) (t : DWord) : (s.setNow t).dma = s.dma := rfl
@[simp] theorem State.setNow_cores (s : State) (t : DWord) : (s.setNow t).cores = s.cores := rfl
@[simp] theorem State.setNow_scS (s : State) (t : DWord) : (s.setNow t).scS = s.scS := rfl
@[simp] theorem State.setNow_scV (s : State) (t : DWord) : (s.setNow t).scV = s.scV := rfl
@[simp] theorem State.setNow_mon (s : State) (t : DWord) : (s.setNow t).mon = s.mon := rfl
@[simp] theorem State.setNow_boot (s : State) (t : DWord) : (s.setNow t).boot = s.boot := rfl
@[simp] theorem State.setNow_fuses (s : State) (t : DWord) : (s.setNow t).fuses = s.fuses := rfl
@[simp] theorem State.setNow_supply (s : State) (t : DWord) : (s.setNow t).supply = s.supply := rfl
@[simp] theorem State.setNow_now (s : State) (t : DWord) : (s.setNow t).now = t := rfl
@[simp] theorem State.modIsland_pending (s : State) (i : Nat) (f : Island → Island) : (s.modIsland i f).pending = s.pending := rfl
@[simp] theorem State.modIsland_ans (s : State) (i : Nat) (f : Island → Island) : (s.modIsland i f).ans = s.ans := rfl
@[simp] theorem State.modIsland_posted (s : State) (i : Nat) (f : Island → Island) : (s.modIsland i f).posted = s.posted := rfl
@[simp] theorem State.modIsland_freeCtr (s : State) (i : Nat) (f : Island → Island) : (s.modIsland i f).freeCtr = s.freeCtr := rfl
@[simp] theorem State.modIsland_now (s : State) (i : Nat) (f : Island → Island) : (s.modIsland i f).now = s.now := rfl
@[simp] theorem State.modIsland_latch (s : State) (i : Nat) (f : Island → Island) : (s.modIsland i f).latch = s.latch := rfl
@[simp] theorem State.modIsland_regs (s : State) (i : Nat) (f : Island → Island) : (s.modIsland i f).regs = s.regs := rfl
@[simp] theorem State.modIsland_shadow (s : State) (i : Nat) (f : Island → Island) : (s.modIsland i f).shadow = s.shadow := rfl
@[simp] theorem State.modIsland_mem (s : State) (i : Nat) (f : Island → Island) : (s.modIsland i f).mem = s.mem := rfl
@[simp] theorem State.modIsland_tags (s : State) (i : Nat) (f : Island → Island) : (s.modIsland i f).tags = s.tags := rfl
@[simp] theorem State.modIsland_ue (s : State) (i : Nat) (f : Island → Island) : (s.modIsland i f).ue = s.ue := rfl
@[simp] theorem State.modIsland_hostMem (s : State) (i : Nat) (f : Island → Island) : (s.modIsland i f).hostMem = s.hostMem := rfl
@[simp] theorem State.modIsland_subs (s : State) (i : Nat) (f : Island → Island) : (s.modIsland i f).subs = s.subs := rfl
@[simp] theorem State.modIsland_q (s : State) (i : Nat) (f : Island → Island) : (s.modIsland i f).q = s.q := rfl
@[simp] theorem State.modIsland_reaches (s : State) (i : Nat) (f : Island → Island) : (s.modIsland i f).reaches = s.reaches := rfl
@[simp] theorem State.modIsland_pages (s : State) (i : Nat) (f : Island → Island) : (s.modIsland i f).pages = s.pages := rfl
@[simp] theorem State.modIsland_tes (s : State) (i : Nat) (f : Island → Island) : (s.modIsland i f).tes = s.tes := rfl
@[simp] theorem State.modIsland_mig (s : State) (i : Nat) (f : Island → Island) : (s.modIsland i f).mig = s.mig := rfl
@[simp] theorem State.modIsland_disp (s : State) (i : Nat) (f : Island → Island) : (s.modIsland i f).disp = s.disp := rfl
@[simp] theorem State.modIsland_cu (s : State) (i : Nat) (f : Island → Island) : (s.modIsland i f).cu = s.cu := rfl
@[simp] theorem State.modIsland_pins (s : State) (i : Nat) (f : Island → Island) : (s.modIsland i f).pins = s.pins := rfl
@[simp] theorem State.modIsland_banks (s : State) (i : Nat) (f : Island → Island) : (s.modIsland i f).banks = s.banks := rfl
@[simp] theorem State.modIsland_fd (s : State) (i : Nat) (f : Island → Island) : (s.modIsland i f).fd = s.fd := rfl
@[simp] theorem State.modIsland_sluice (s : State) (i : Nat) (f : Island → Island) : (s.modIsland i f).sluice = s.sluice := rfl
@[simp] theorem State.modIsland_ev (s : State) (i : Nat) (f : Island → Island) : (s.modIsland i f).ev = s.ev := rfl
@[simp] theorem State.modIsland_mbx (s : State) (i : Nat) (f : Island → Island) : (s.modIsland i f).mbx = s.mbx := rfl
@[simp] theorem State.modIsland_levee (s : State) (i : Nat) (f : Island → Island) : (s.modIsland i f).levee = s.levee := rfl
@[simp] theorem State.modIsland_weir (s : State) (i : Nat) (f : Island → Island) : (s.modIsland i f).weir = s.weir := rfl
@[simp] theorem State.modIsland_memErrs (s : State) (i : Nat) (f : Island → Island) : (s.modIsland i f).memErrs = s.memErrs := rfl
@[simp] theorem State.modIsland_host (s : State) (i : Nat) (f : Island → Island) : (s.modIsland i f).host = s.host := rfl
@[simp] theorem State.modIsland_cfls (s : State) (i : Nat) (f : Island → Island) : (s.modIsland i f).cfls = s.cfls := rfl
@[simp] theorem State.modIsland_vote (s : State) (i : Nat) (f : Island → Island) : (s.modIsland i f).vote = s.vote := rfl
@[simp] theorem State.modIsland_bks (s : State) (i : Nat) (f : Island → Island) : (s.modIsland i f).bks = s.bks := rfl
@[simp] theorem State.modIsland_brook (s : State) (i : Nat) (f : Island → Island) : (s.modIsland i f).brook = s.brook := rfl
@[simp] theorem State.modIsland_silt (s : State) (i : Nat) (f : Island → Island) : (s.modIsland i f).silt = s.silt := rfl
@[simp] theorem State.modIsland_dma (s : State) (i : Nat) (f : Island → Island) : (s.modIsland i f).dma = s.dma := rfl
@[simp] theorem State.modIsland_cores (s : State) (i : Nat) (f : Island → Island) : (s.modIsland i f).cores = s.cores := rfl
@[simp] theorem State.modIsland_scS (s : State) (i : Nat) (f : Island → Island) : (s.modIsland i f).scS = s.scS := rfl
@[simp] theorem State.modIsland_scV (s : State) (i : Nat) (f : Island → Island) : (s.modIsland i f).scV = s.scV := rfl
@[simp] theorem State.modIsland_mon (s : State) (i : Nat) (f : Island → Island) : (s.modIsland i f).mon = s.mon := rfl
@[simp] theorem State.modIsland_boot (s : State) (i : Nat) (f : Island → Island) : (s.modIsland i f).boot = s.boot := rfl
@[simp] theorem State.modIsland_fuses (s : State) (i : Nat) (f : Island → Island) : (s.modIsland i f).fuses = s.fuses := rfl
@[simp] theorem State.modIsland_supply (s : State) (i : Nat) (f : Island → Island) : (s.modIsland i f).supply = s.supply := rfl
@[simp] theorem State.modSub_pending (s : State) (n : Nat) (f : Sub → Sub) : (s.modSub n f).pending = s.pending := rfl
@[simp] theorem State.modSub_ans (s : State) (n : Nat) (f : Sub → Sub) : (s.modSub n f).ans = s.ans := rfl
@[simp] theorem State.modSub_posted (s : State) (n : Nat) (f : Sub → Sub) : (s.modSub n f).posted = s.posted := rfl
@[simp] theorem State.modSub_freeCtr (s : State) (n : Nat) (f : Sub → Sub) : (s.modSub n f).freeCtr = s.freeCtr := rfl
@[simp] theorem State.modSub_now (s : State) (n : Nat) (f : Sub → Sub) : (s.modSub n f).now = s.now := rfl
@[simp] theorem State.modSub_islands (s : State) (n : Nat) (f : Sub → Sub) : (s.modSub n f).islands = s.islands := rfl
@[simp] theorem State.modSub_latch (s : State) (n : Nat) (f : Sub → Sub) : (s.modSub n f).latch = s.latch := rfl
@[simp] theorem State.modSub_regs (s : State) (n : Nat) (f : Sub → Sub) : (s.modSub n f).regs = s.regs := rfl
@[simp] theorem State.modSub_shadow (s : State) (n : Nat) (f : Sub → Sub) : (s.modSub n f).shadow = s.shadow := rfl
@[simp] theorem State.modSub_mem (s : State) (n : Nat) (f : Sub → Sub) : (s.modSub n f).mem = s.mem := rfl
@[simp] theorem State.modSub_tags (s : State) (n : Nat) (f : Sub → Sub) : (s.modSub n f).tags = s.tags := rfl
@[simp] theorem State.modSub_ue (s : State) (n : Nat) (f : Sub → Sub) : (s.modSub n f).ue = s.ue := rfl
@[simp] theorem State.modSub_hostMem (s : State) (n : Nat) (f : Sub → Sub) : (s.modSub n f).hostMem = s.hostMem := rfl
@[simp] theorem State.modSub_q (s : State) (n : Nat) (f : Sub → Sub) : (s.modSub n f).q = s.q := rfl
@[simp] theorem State.modSub_reaches (s : State) (n : Nat) (f : Sub → Sub) : (s.modSub n f).reaches = s.reaches := rfl
@[simp] theorem State.modSub_pages (s : State) (n : Nat) (f : Sub → Sub) : (s.modSub n f).pages = s.pages := rfl
@[simp] theorem State.modSub_tes (s : State) (n : Nat) (f : Sub → Sub) : (s.modSub n f).tes = s.tes := rfl
@[simp] theorem State.modSub_mig (s : State) (n : Nat) (f : Sub → Sub) : (s.modSub n f).mig = s.mig := rfl
@[simp] theorem State.modSub_disp (s : State) (n : Nat) (f : Sub → Sub) : (s.modSub n f).disp = s.disp := rfl
@[simp] theorem State.modSub_cu (s : State) (n : Nat) (f : Sub → Sub) : (s.modSub n f).cu = s.cu := rfl
@[simp] theorem State.modSub_pins (s : State) (n : Nat) (f : Sub → Sub) : (s.modSub n f).pins = s.pins := rfl
@[simp] theorem State.modSub_banks (s : State) (n : Nat) (f : Sub → Sub) : (s.modSub n f).banks = s.banks := rfl
@[simp] theorem State.modSub_fd (s : State) (n : Nat) (f : Sub → Sub) : (s.modSub n f).fd = s.fd := rfl
@[simp] theorem State.modSub_sluice (s : State) (n : Nat) (f : Sub → Sub) : (s.modSub n f).sluice = s.sluice := rfl
@[simp] theorem State.modSub_ev (s : State) (n : Nat) (f : Sub → Sub) : (s.modSub n f).ev = s.ev := rfl
@[simp] theorem State.modSub_mbx (s : State) (n : Nat) (f : Sub → Sub) : (s.modSub n f).mbx = s.mbx := rfl
@[simp] theorem State.modSub_levee (s : State) (n : Nat) (f : Sub → Sub) : (s.modSub n f).levee = s.levee := rfl
@[simp] theorem State.modSub_weir (s : State) (n : Nat) (f : Sub → Sub) : (s.modSub n f).weir = s.weir := rfl
@[simp] theorem State.modSub_memErrs (s : State) (n : Nat) (f : Sub → Sub) : (s.modSub n f).memErrs = s.memErrs := rfl
@[simp] theorem State.modSub_host (s : State) (n : Nat) (f : Sub → Sub) : (s.modSub n f).host = s.host := rfl
@[simp] theorem State.modSub_cfls (s : State) (n : Nat) (f : Sub → Sub) : (s.modSub n f).cfls = s.cfls := rfl
@[simp] theorem State.modSub_vote (s : State) (n : Nat) (f : Sub → Sub) : (s.modSub n f).vote = s.vote := rfl
@[simp] theorem State.modSub_bks (s : State) (n : Nat) (f : Sub → Sub) : (s.modSub n f).bks = s.bks := rfl
@[simp] theorem State.modSub_brook (s : State) (n : Nat) (f : Sub → Sub) : (s.modSub n f).brook = s.brook := rfl
@[simp] theorem State.modSub_silt (s : State) (n : Nat) (f : Sub → Sub) : (s.modSub n f).silt = s.silt := rfl
@[simp] theorem State.modSub_dma (s : State) (n : Nat) (f : Sub → Sub) : (s.modSub n f).dma = s.dma := rfl
@[simp] theorem State.modSub_cores (s : State) (n : Nat) (f : Sub → Sub) : (s.modSub n f).cores = s.cores := rfl
@[simp] theorem State.modSub_scS (s : State) (n : Nat) (f : Sub → Sub) : (s.modSub n f).scS = s.scS := rfl
@[simp] theorem State.modSub_scV (s : State) (n : Nat) (f : Sub → Sub) : (s.modSub n f).scV = s.scV := rfl
@[simp] theorem State.modSub_mon (s : State) (n : Nat) (f : Sub → Sub) : (s.modSub n f).mon = s.mon := rfl
@[simp] theorem State.modSub_boot (s : State) (n : Nat) (f : Sub → Sub) : (s.modSub n f).boot = s.boot := rfl
@[simp] theorem State.modSub_fuses (s : State) (n : Nat) (f : Sub → Sub) : (s.modSub n f).fuses = s.fuses := rfl
@[simp] theorem State.modSub_supply (s : State) (n : Nat) (f : Sub → Sub) : (s.modSub n f).supply = s.supply := rfl
@[simp] theorem State.modQ_pending (s : State) (f : QEngine → QEngine) : (s.modQ f).pending = s.pending := rfl
@[simp] theorem State.modQ_ans (s : State) (f : QEngine → QEngine) : (s.modQ f).ans = s.ans := rfl
@[simp] theorem State.modQ_posted (s : State) (f : QEngine → QEngine) : (s.modQ f).posted = s.posted := rfl
@[simp] theorem State.modQ_freeCtr (s : State) (f : QEngine → QEngine) : (s.modQ f).freeCtr = s.freeCtr := rfl
@[simp] theorem State.modQ_now (s : State) (f : QEngine → QEngine) : (s.modQ f).now = s.now := rfl
@[simp] theorem State.modQ_islands (s : State) (f : QEngine → QEngine) : (s.modQ f).islands = s.islands := rfl
@[simp] theorem State.modQ_latch (s : State) (f : QEngine → QEngine) : (s.modQ f).latch = s.latch := rfl
@[simp] theorem State.modQ_regs (s : State) (f : QEngine → QEngine) : (s.modQ f).regs = s.regs := rfl
@[simp] theorem State.modQ_shadow (s : State) (f : QEngine → QEngine) : (s.modQ f).shadow = s.shadow := rfl
@[simp] theorem State.modQ_mem (s : State) (f : QEngine → QEngine) : (s.modQ f).mem = s.mem := rfl
@[simp] theorem State.modQ_tags (s : State) (f : QEngine → QEngine) : (s.modQ f).tags = s.tags := rfl
@[simp] theorem State.modQ_ue (s : State) (f : QEngine → QEngine) : (s.modQ f).ue = s.ue := rfl
@[simp] theorem State.modQ_hostMem (s : State) (f : QEngine → QEngine) : (s.modQ f).hostMem = s.hostMem := rfl
@[simp] theorem State.modQ_subs (s : State) (f : QEngine → QEngine) : (s.modQ f).subs = s.subs := rfl
@[simp] theorem State.modQ_reaches (s : State) (f : QEngine → QEngine) : (s.modQ f).reaches = s.reaches := rfl
@[simp] theorem State.modQ_pages (s : State) (f : QEngine → QEngine) : (s.modQ f).pages = s.pages := rfl
@[simp] theorem State.modQ_tes (s : State) (f : QEngine → QEngine) : (s.modQ f).tes = s.tes := rfl
@[simp] theorem State.modQ_mig (s : State) (f : QEngine → QEngine) : (s.modQ f).mig = s.mig := rfl
@[simp] theorem State.modQ_disp (s : State) (f : QEngine → QEngine) : (s.modQ f).disp = s.disp := rfl
@[simp] theorem State.modQ_cu (s : State) (f : QEngine → QEngine) : (s.modQ f).cu = s.cu := rfl
@[simp] theorem State.modQ_pins (s : State) (f : QEngine → QEngine) : (s.modQ f).pins = s.pins := rfl
@[simp] theorem State.modQ_banks (s : State) (f : QEngine → QEngine) : (s.modQ f).banks = s.banks := rfl
@[simp] theorem State.modQ_fd (s : State) (f : QEngine → QEngine) : (s.modQ f).fd = s.fd := rfl
@[simp] theorem State.modQ_sluice (s : State) (f : QEngine → QEngine) : (s.modQ f).sluice = s.sluice := rfl
@[simp] theorem State.modQ_ev (s : State) (f : QEngine → QEngine) : (s.modQ f).ev = s.ev := rfl
@[simp] theorem State.modQ_mbx (s : State) (f : QEngine → QEngine) : (s.modQ f).mbx = s.mbx := rfl
@[simp] theorem State.modQ_levee (s : State) (f : QEngine → QEngine) : (s.modQ f).levee = s.levee := rfl
@[simp] theorem State.modQ_weir (s : State) (f : QEngine → QEngine) : (s.modQ f).weir = s.weir := rfl
@[simp] theorem State.modQ_memErrs (s : State) (f : QEngine → QEngine) : (s.modQ f).memErrs = s.memErrs := rfl
@[simp] theorem State.modQ_host (s : State) (f : QEngine → QEngine) : (s.modQ f).host = s.host := rfl
@[simp] theorem State.modQ_cfls (s : State) (f : QEngine → QEngine) : (s.modQ f).cfls = s.cfls := rfl
@[simp] theorem State.modQ_vote (s : State) (f : QEngine → QEngine) : (s.modQ f).vote = s.vote := rfl
@[simp] theorem State.modQ_bks (s : State) (f : QEngine → QEngine) : (s.modQ f).bks = s.bks := rfl
@[simp] theorem State.modQ_brook (s : State) (f : QEngine → QEngine) : (s.modQ f).brook = s.brook := rfl
@[simp] theorem State.modQ_silt (s : State) (f : QEngine → QEngine) : (s.modQ f).silt = s.silt := rfl
@[simp] theorem State.modQ_dma (s : State) (f : QEngine → QEngine) : (s.modQ f).dma = s.dma := rfl
@[simp] theorem State.modQ_cores (s : State) (f : QEngine → QEngine) : (s.modQ f).cores = s.cores := rfl
@[simp] theorem State.modQ_scS (s : State) (f : QEngine → QEngine) : (s.modQ f).scS = s.scS := rfl
@[simp] theorem State.modQ_scV (s : State) (f : QEngine → QEngine) : (s.modQ f).scV = s.scV := rfl
@[simp] theorem State.modQ_mon (s : State) (f : QEngine → QEngine) : (s.modQ f).mon = s.mon := rfl
@[simp] theorem State.modQ_boot (s : State) (f : QEngine → QEngine) : (s.modQ f).boot = s.boot := rfl
@[simp] theorem State.modQ_fuses (s : State) (f : QEngine → QEngine) : (s.modQ f).fuses = s.fuses := rfl
@[simp] theorem State.modQ_supply (s : State) (f : QEngine → QEngine) : (s.modQ f).supply = s.supply := rfl
@[simp] theorem State.modQ_q (s : State) (f : QEngine → QEngine) : (s.modQ f).q = f s.q := rfl
@[simp] theorem State.modSq_pending (s : State) (k : Nat) (f : SubQ → SubQ) : (s.modSq k f).pending = s.pending := rfl
@[simp] theorem State.modSq_ans (s : State) (k : Nat) (f : SubQ → SubQ) : (s.modSq k f).ans = s.ans := rfl
@[simp] theorem State.modSq_posted (s : State) (k : Nat) (f : SubQ → SubQ) : (s.modSq k f).posted = s.posted := rfl
@[simp] theorem State.modSq_freeCtr (s : State) (k : Nat) (f : SubQ → SubQ) : (s.modSq k f).freeCtr = s.freeCtr := rfl
@[simp] theorem State.modSq_now (s : State) (k : Nat) (f : SubQ → SubQ) : (s.modSq k f).now = s.now := rfl
@[simp] theorem State.modSq_islands (s : State) (k : Nat) (f : SubQ → SubQ) : (s.modSq k f).islands = s.islands := rfl
@[simp] theorem State.modSq_latch (s : State) (k : Nat) (f : SubQ → SubQ) : (s.modSq k f).latch = s.latch := rfl
@[simp] theorem State.modSq_regs (s : State) (k : Nat) (f : SubQ → SubQ) : (s.modSq k f).regs = s.regs := rfl
@[simp] theorem State.modSq_shadow (s : State) (k : Nat) (f : SubQ → SubQ) : (s.modSq k f).shadow = s.shadow := rfl
@[simp] theorem State.modSq_mem (s : State) (k : Nat) (f : SubQ → SubQ) : (s.modSq k f).mem = s.mem := rfl
@[simp] theorem State.modSq_tags (s : State) (k : Nat) (f : SubQ → SubQ) : (s.modSq k f).tags = s.tags := rfl
@[simp] theorem State.modSq_ue (s : State) (k : Nat) (f : SubQ → SubQ) : (s.modSq k f).ue = s.ue := rfl
@[simp] theorem State.modSq_hostMem (s : State) (k : Nat) (f : SubQ → SubQ) : (s.modSq k f).hostMem = s.hostMem := rfl
@[simp] theorem State.modSq_subs (s : State) (k : Nat) (f : SubQ → SubQ) : (s.modSq k f).subs = s.subs := rfl
@[simp] theorem State.modSq_reaches (s : State) (k : Nat) (f : SubQ → SubQ) : (s.modSq k f).reaches = s.reaches := rfl
@[simp] theorem State.modSq_pages (s : State) (k : Nat) (f : SubQ → SubQ) : (s.modSq k f).pages = s.pages := rfl
@[simp] theorem State.modSq_tes (s : State) (k : Nat) (f : SubQ → SubQ) : (s.modSq k f).tes = s.tes := rfl
@[simp] theorem State.modSq_mig (s : State) (k : Nat) (f : SubQ → SubQ) : (s.modSq k f).mig = s.mig := rfl
@[simp] theorem State.modSq_disp (s : State) (k : Nat) (f : SubQ → SubQ) : (s.modSq k f).disp = s.disp := rfl
@[simp] theorem State.modSq_cu (s : State) (k : Nat) (f : SubQ → SubQ) : (s.modSq k f).cu = s.cu := rfl
@[simp] theorem State.modSq_pins (s : State) (k : Nat) (f : SubQ → SubQ) : (s.modSq k f).pins = s.pins := rfl
@[simp] theorem State.modSq_banks (s : State) (k : Nat) (f : SubQ → SubQ) : (s.modSq k f).banks = s.banks := rfl
@[simp] theorem State.modSq_fd (s : State) (k : Nat) (f : SubQ → SubQ) : (s.modSq k f).fd = s.fd := rfl
@[simp] theorem State.modSq_sluice (s : State) (k : Nat) (f : SubQ → SubQ) : (s.modSq k f).sluice = s.sluice := rfl
@[simp] theorem State.modSq_ev (s : State) (k : Nat) (f : SubQ → SubQ) : (s.modSq k f).ev = s.ev := rfl
@[simp] theorem State.modSq_mbx (s : State) (k : Nat) (f : SubQ → SubQ) : (s.modSq k f).mbx = s.mbx := rfl
@[simp] theorem State.modSq_levee (s : State) (k : Nat) (f : SubQ → SubQ) : (s.modSq k f).levee = s.levee := rfl
@[simp] theorem State.modSq_weir (s : State) (k : Nat) (f : SubQ → SubQ) : (s.modSq k f).weir = s.weir := rfl
@[simp] theorem State.modSq_memErrs (s : State) (k : Nat) (f : SubQ → SubQ) : (s.modSq k f).memErrs = s.memErrs := rfl
@[simp] theorem State.modSq_host (s : State) (k : Nat) (f : SubQ → SubQ) : (s.modSq k f).host = s.host := rfl
@[simp] theorem State.modSq_cfls (s : State) (k : Nat) (f : SubQ → SubQ) : (s.modSq k f).cfls = s.cfls := rfl
@[simp] theorem State.modSq_vote (s : State) (k : Nat) (f : SubQ → SubQ) : (s.modSq k f).vote = s.vote := rfl
@[simp] theorem State.modSq_bks (s : State) (k : Nat) (f : SubQ → SubQ) : (s.modSq k f).bks = s.bks := rfl
@[simp] theorem State.modSq_brook (s : State) (k : Nat) (f : SubQ → SubQ) : (s.modSq k f).brook = s.brook := rfl
@[simp] theorem State.modSq_silt (s : State) (k : Nat) (f : SubQ → SubQ) : (s.modSq k f).silt = s.silt := rfl
@[simp] theorem State.modSq_dma (s : State) (k : Nat) (f : SubQ → SubQ) : (s.modSq k f).dma = s.dma := rfl
@[simp] theorem State.modSq_cores (s : State) (k : Nat) (f : SubQ → SubQ) : (s.modSq k f).cores = s.cores := rfl
@[simp] theorem State.modSq_scS (s : State) (k : Nat) (f : SubQ → SubQ) : (s.modSq k f).scS = s.scS := rfl
@[simp] theorem State.modSq_scV (s : State) (k : Nat) (f : SubQ → SubQ) : (s.modSq k f).scV = s.scV := rfl
@[simp] theorem State.modSq_mon (s : State) (k : Nat) (f : SubQ → SubQ) : (s.modSq k f).mon = s.mon := rfl
@[simp] theorem State.modSq_boot (s : State) (k : Nat) (f : SubQ → SubQ) : (s.modSq k f).boot = s.boot := rfl
@[simp] theorem State.modSq_fuses (s : State) (k : Nat) (f : SubQ → SubQ) : (s.modSq k f).fuses = s.fuses := rfl
@[simp] theorem State.modSq_supply (s : State) (k : Nat) (f : SubQ → SubQ) : (s.modSq k f).supply = s.supply := rfl
@[simp] theorem State.modRing_pending (s : State) (k : Nat) (f : Ring → Ring) : (s.modRing k f).pending = s.pending := rfl
@[simp] theorem State.modRing_ans (s : State) (k : Nat) (f : Ring → Ring) : (s.modRing k f).ans = s.ans := rfl
@[simp] theorem State.modRing_posted (s : State) (k : Nat) (f : Ring → Ring) : (s.modRing k f).posted = s.posted := rfl
@[simp] theorem State.modRing_freeCtr (s : State) (k : Nat) (f : Ring → Ring) : (s.modRing k f).freeCtr = s.freeCtr := rfl
@[simp] theorem State.modRing_now (s : State) (k : Nat) (f : Ring → Ring) : (s.modRing k f).now = s.now := rfl
@[simp] theorem State.modRing_islands (s : State) (k : Nat) (f : Ring → Ring) : (s.modRing k f).islands = s.islands := rfl
@[simp] theorem State.modRing_latch (s : State) (k : Nat) (f : Ring → Ring) : (s.modRing k f).latch = s.latch := rfl
@[simp] theorem State.modRing_regs (s : State) (k : Nat) (f : Ring → Ring) : (s.modRing k f).regs = s.regs := rfl
@[simp] theorem State.modRing_shadow (s : State) (k : Nat) (f : Ring → Ring) : (s.modRing k f).shadow = s.shadow := rfl
@[simp] theorem State.modRing_mem (s : State) (k : Nat) (f : Ring → Ring) : (s.modRing k f).mem = s.mem := rfl
@[simp] theorem State.modRing_tags (s : State) (k : Nat) (f : Ring → Ring) : (s.modRing k f).tags = s.tags := rfl
@[simp] theorem State.modRing_ue (s : State) (k : Nat) (f : Ring → Ring) : (s.modRing k f).ue = s.ue := rfl
@[simp] theorem State.modRing_hostMem (s : State) (k : Nat) (f : Ring → Ring) : (s.modRing k f).hostMem = s.hostMem := rfl
@[simp] theorem State.modRing_subs (s : State) (k : Nat) (f : Ring → Ring) : (s.modRing k f).subs = s.subs := rfl
@[simp] theorem State.modRing_reaches (s : State) (k : Nat) (f : Ring → Ring) : (s.modRing k f).reaches = s.reaches := rfl
@[simp] theorem State.modRing_pages (s : State) (k : Nat) (f : Ring → Ring) : (s.modRing k f).pages = s.pages := rfl
@[simp] theorem State.modRing_tes (s : State) (k : Nat) (f : Ring → Ring) : (s.modRing k f).tes = s.tes := rfl
@[simp] theorem State.modRing_mig (s : State) (k : Nat) (f : Ring → Ring) : (s.modRing k f).mig = s.mig := rfl
@[simp] theorem State.modRing_disp (s : State) (k : Nat) (f : Ring → Ring) : (s.modRing k f).disp = s.disp := rfl
@[simp] theorem State.modRing_cu (s : State) (k : Nat) (f : Ring → Ring) : (s.modRing k f).cu = s.cu := rfl
@[simp] theorem State.modRing_pins (s : State) (k : Nat) (f : Ring → Ring) : (s.modRing k f).pins = s.pins := rfl
@[simp] theorem State.modRing_banks (s : State) (k : Nat) (f : Ring → Ring) : (s.modRing k f).banks = s.banks := rfl
@[simp] theorem State.modRing_fd (s : State) (k : Nat) (f : Ring → Ring) : (s.modRing k f).fd = s.fd := rfl
@[simp] theorem State.modRing_sluice (s : State) (k : Nat) (f : Ring → Ring) : (s.modRing k f).sluice = s.sluice := rfl
@[simp] theorem State.modRing_ev (s : State) (k : Nat) (f : Ring → Ring) : (s.modRing k f).ev = s.ev := rfl
@[simp] theorem State.modRing_mbx (s : State) (k : Nat) (f : Ring → Ring) : (s.modRing k f).mbx = s.mbx := rfl
@[simp] theorem State.modRing_levee (s : State) (k : Nat) (f : Ring → Ring) : (s.modRing k f).levee = s.levee := rfl
@[simp] theorem State.modRing_weir (s : State) (k : Nat) (f : Ring → Ring) : (s.modRing k f).weir = s.weir := rfl
@[simp] theorem State.modRing_memErrs (s : State) (k : Nat) (f : Ring → Ring) : (s.modRing k f).memErrs = s.memErrs := rfl
@[simp] theorem State.modRing_host (s : State) (k : Nat) (f : Ring → Ring) : (s.modRing k f).host = s.host := rfl
@[simp] theorem State.modRing_cfls (s : State) (k : Nat) (f : Ring → Ring) : (s.modRing k f).cfls = s.cfls := rfl
@[simp] theorem State.modRing_vote (s : State) (k : Nat) (f : Ring → Ring) : (s.modRing k f).vote = s.vote := rfl
@[simp] theorem State.modRing_bks (s : State) (k : Nat) (f : Ring → Ring) : (s.modRing k f).bks = s.bks := rfl
@[simp] theorem State.modRing_brook (s : State) (k : Nat) (f : Ring → Ring) : (s.modRing k f).brook = s.brook := rfl
@[simp] theorem State.modRing_silt (s : State) (k : Nat) (f : Ring → Ring) : (s.modRing k f).silt = s.silt := rfl
@[simp] theorem State.modRing_dma (s : State) (k : Nat) (f : Ring → Ring) : (s.modRing k f).dma = s.dma := rfl
@[simp] theorem State.modRing_cores (s : State) (k : Nat) (f : Ring → Ring) : (s.modRing k f).cores = s.cores := rfl
@[simp] theorem State.modRing_scS (s : State) (k : Nat) (f : Ring → Ring) : (s.modRing k f).scS = s.scS := rfl
@[simp] theorem State.modRing_scV (s : State) (k : Nat) (f : Ring → Ring) : (s.modRing k f).scV = s.scV := rfl
@[simp] theorem State.modRing_mon (s : State) (k : Nat) (f : Ring → Ring) : (s.modRing k f).mon = s.mon := rfl
@[simp] theorem State.modRing_boot (s : State) (k : Nat) (f : Ring → Ring) : (s.modRing k f).boot = s.boot := rfl
@[simp] theorem State.modRing_fuses (s : State) (k : Nat) (f : Ring → Ring) : (s.modRing k f).fuses = s.fuses := rfl
@[simp] theorem State.modRing_supply (s : State) (k : Nat) (f : Ring → Ring) : (s.modRing k f).supply = s.supply := rfl
@[simp] theorem State.modReach_pending (s : State) (r : Nat) (f : Reach → Reach) : (s.modReach r f).pending = s.pending := rfl
@[simp] theorem State.modReach_ans (s : State) (r : Nat) (f : Reach → Reach) : (s.modReach r f).ans = s.ans := rfl
@[simp] theorem State.modReach_posted (s : State) (r : Nat) (f : Reach → Reach) : (s.modReach r f).posted = s.posted := rfl
@[simp] theorem State.modReach_freeCtr (s : State) (r : Nat) (f : Reach → Reach) : (s.modReach r f).freeCtr = s.freeCtr := rfl
@[simp] theorem State.modReach_now (s : State) (r : Nat) (f : Reach → Reach) : (s.modReach r f).now = s.now := rfl
@[simp] theorem State.modReach_islands (s : State) (r : Nat) (f : Reach → Reach) : (s.modReach r f).islands = s.islands := rfl
@[simp] theorem State.modReach_latch (s : State) (r : Nat) (f : Reach → Reach) : (s.modReach r f).latch = s.latch := rfl
@[simp] theorem State.modReach_regs (s : State) (r : Nat) (f : Reach → Reach) : (s.modReach r f).regs = s.regs := rfl
@[simp] theorem State.modReach_shadow (s : State) (r : Nat) (f : Reach → Reach) : (s.modReach r f).shadow = s.shadow := rfl
@[simp] theorem State.modReach_mem (s : State) (r : Nat) (f : Reach → Reach) : (s.modReach r f).mem = s.mem := rfl
@[simp] theorem State.modReach_tags (s : State) (r : Nat) (f : Reach → Reach) : (s.modReach r f).tags = s.tags := rfl
@[simp] theorem State.modReach_ue (s : State) (r : Nat) (f : Reach → Reach) : (s.modReach r f).ue = s.ue := rfl
@[simp] theorem State.modReach_hostMem (s : State) (r : Nat) (f : Reach → Reach) : (s.modReach r f).hostMem = s.hostMem := rfl
@[simp] theorem State.modReach_subs (s : State) (r : Nat) (f : Reach → Reach) : (s.modReach r f).subs = s.subs := rfl
@[simp] theorem State.modReach_q (s : State) (r : Nat) (f : Reach → Reach) : (s.modReach r f).q = s.q := rfl
@[simp] theorem State.modReach_pages (s : State) (r : Nat) (f : Reach → Reach) : (s.modReach r f).pages = s.pages := rfl
@[simp] theorem State.modReach_tes (s : State) (r : Nat) (f : Reach → Reach) : (s.modReach r f).tes = s.tes := rfl
@[simp] theorem State.modReach_mig (s : State) (r : Nat) (f : Reach → Reach) : (s.modReach r f).mig = s.mig := rfl
@[simp] theorem State.modReach_disp (s : State) (r : Nat) (f : Reach → Reach) : (s.modReach r f).disp = s.disp := rfl
@[simp] theorem State.modReach_cu (s : State) (r : Nat) (f : Reach → Reach) : (s.modReach r f).cu = s.cu := rfl
@[simp] theorem State.modReach_pins (s : State) (r : Nat) (f : Reach → Reach) : (s.modReach r f).pins = s.pins := rfl
@[simp] theorem State.modReach_banks (s : State) (r : Nat) (f : Reach → Reach) : (s.modReach r f).banks = s.banks := rfl
@[simp] theorem State.modReach_fd (s : State) (r : Nat) (f : Reach → Reach) : (s.modReach r f).fd = s.fd := rfl
@[simp] theorem State.modReach_sluice (s : State) (r : Nat) (f : Reach → Reach) : (s.modReach r f).sluice = s.sluice := rfl
@[simp] theorem State.modReach_ev (s : State) (r : Nat) (f : Reach → Reach) : (s.modReach r f).ev = s.ev := rfl
@[simp] theorem State.modReach_mbx (s : State) (r : Nat) (f : Reach → Reach) : (s.modReach r f).mbx = s.mbx := rfl
@[simp] theorem State.modReach_levee (s : State) (r : Nat) (f : Reach → Reach) : (s.modReach r f).levee = s.levee := rfl
@[simp] theorem State.modReach_weir (s : State) (r : Nat) (f : Reach → Reach) : (s.modReach r f).weir = s.weir := rfl
@[simp] theorem State.modReach_memErrs (s : State) (r : Nat) (f : Reach → Reach) : (s.modReach r f).memErrs = s.memErrs := rfl
@[simp] theorem State.modReach_host (s : State) (r : Nat) (f : Reach → Reach) : (s.modReach r f).host = s.host := rfl
@[simp] theorem State.modReach_cfls (s : State) (r : Nat) (f : Reach → Reach) : (s.modReach r f).cfls = s.cfls := rfl
@[simp] theorem State.modReach_vote (s : State) (r : Nat) (f : Reach → Reach) : (s.modReach r f).vote = s.vote := rfl
@[simp] theorem State.modReach_bks (s : State) (r : Nat) (f : Reach → Reach) : (s.modReach r f).bks = s.bks := rfl
@[simp] theorem State.modReach_brook (s : State) (r : Nat) (f : Reach → Reach) : (s.modReach r f).brook = s.brook := rfl
@[simp] theorem State.modReach_silt (s : State) (r : Nat) (f : Reach → Reach) : (s.modReach r f).silt = s.silt := rfl
@[simp] theorem State.modReach_dma (s : State) (r : Nat) (f : Reach → Reach) : (s.modReach r f).dma = s.dma := rfl
@[simp] theorem State.modReach_cores (s : State) (r : Nat) (f : Reach → Reach) : (s.modReach r f).cores = s.cores := rfl
@[simp] theorem State.modReach_scS (s : State) (r : Nat) (f : Reach → Reach) : (s.modReach r f).scS = s.scS := rfl
@[simp] theorem State.modReach_scV (s : State) (r : Nat) (f : Reach → Reach) : (s.modReach r f).scV = s.scV := rfl
@[simp] theorem State.modReach_mon (s : State) (r : Nat) (f : Reach → Reach) : (s.modReach r f).mon = s.mon := rfl
@[simp] theorem State.modReach_boot (s : State) (r : Nat) (f : Reach → Reach) : (s.modReach r f).boot = s.boot := rfl
@[simp] theorem State.modReach_fuses (s : State) (r : Nat) (f : Reach → Reach) : (s.modReach r f).fuses = s.fuses := rfl
@[simp] theorem State.modReach_supply (s : State) (r : Nat) (f : Reach → Reach) : (s.modReach r f).supply = s.supply := rfl
@[simp] theorem State.modPage_pending (s : State) (k : Nat) (f : Page → Page) : (s.modPage k f).pending = s.pending := rfl
@[simp] theorem State.modPage_ans (s : State) (k : Nat) (f : Page → Page) : (s.modPage k f).ans = s.ans := rfl
@[simp] theorem State.modPage_posted (s : State) (k : Nat) (f : Page → Page) : (s.modPage k f).posted = s.posted := rfl
@[simp] theorem State.modPage_freeCtr (s : State) (k : Nat) (f : Page → Page) : (s.modPage k f).freeCtr = s.freeCtr := rfl
@[simp] theorem State.modPage_now (s : State) (k : Nat) (f : Page → Page) : (s.modPage k f).now = s.now := rfl
@[simp] theorem State.modPage_islands (s : State) (k : Nat) (f : Page → Page) : (s.modPage k f).islands = s.islands := rfl
@[simp] theorem State.modPage_latch (s : State) (k : Nat) (f : Page → Page) : (s.modPage k f).latch = s.latch := rfl
@[simp] theorem State.modPage_regs (s : State) (k : Nat) (f : Page → Page) : (s.modPage k f).regs = s.regs := rfl
@[simp] theorem State.modPage_shadow (s : State) (k : Nat) (f : Page → Page) : (s.modPage k f).shadow = s.shadow := rfl
@[simp] theorem State.modPage_mem (s : State) (k : Nat) (f : Page → Page) : (s.modPage k f).mem = s.mem := rfl
@[simp] theorem State.modPage_tags (s : State) (k : Nat) (f : Page → Page) : (s.modPage k f).tags = s.tags := rfl
@[simp] theorem State.modPage_ue (s : State) (k : Nat) (f : Page → Page) : (s.modPage k f).ue = s.ue := rfl
@[simp] theorem State.modPage_hostMem (s : State) (k : Nat) (f : Page → Page) : (s.modPage k f).hostMem = s.hostMem := rfl
@[simp] theorem State.modPage_subs (s : State) (k : Nat) (f : Page → Page) : (s.modPage k f).subs = s.subs := rfl
@[simp] theorem State.modPage_q (s : State) (k : Nat) (f : Page → Page) : (s.modPage k f).q = s.q := rfl
@[simp] theorem State.modPage_reaches (s : State) (k : Nat) (f : Page → Page) : (s.modPage k f).reaches = s.reaches := rfl
@[simp] theorem State.modPage_tes (s : State) (k : Nat) (f : Page → Page) : (s.modPage k f).tes = s.tes := rfl
@[simp] theorem State.modPage_mig (s : State) (k : Nat) (f : Page → Page) : (s.modPage k f).mig = s.mig := rfl
@[simp] theorem State.modPage_disp (s : State) (k : Nat) (f : Page → Page) : (s.modPage k f).disp = s.disp := rfl
@[simp] theorem State.modPage_cu (s : State) (k : Nat) (f : Page → Page) : (s.modPage k f).cu = s.cu := rfl
@[simp] theorem State.modPage_pins (s : State) (k : Nat) (f : Page → Page) : (s.modPage k f).pins = s.pins := rfl
@[simp] theorem State.modPage_banks (s : State) (k : Nat) (f : Page → Page) : (s.modPage k f).banks = s.banks := rfl
@[simp] theorem State.modPage_fd (s : State) (k : Nat) (f : Page → Page) : (s.modPage k f).fd = s.fd := rfl
@[simp] theorem State.modPage_sluice (s : State) (k : Nat) (f : Page → Page) : (s.modPage k f).sluice = s.sluice := rfl
@[simp] theorem State.modPage_ev (s : State) (k : Nat) (f : Page → Page) : (s.modPage k f).ev = s.ev := rfl
@[simp] theorem State.modPage_mbx (s : State) (k : Nat) (f : Page → Page) : (s.modPage k f).mbx = s.mbx := rfl
@[simp] theorem State.modPage_levee (s : State) (k : Nat) (f : Page → Page) : (s.modPage k f).levee = s.levee := rfl
@[simp] theorem State.modPage_weir (s : State) (k : Nat) (f : Page → Page) : (s.modPage k f).weir = s.weir := rfl
@[simp] theorem State.modPage_memErrs (s : State) (k : Nat) (f : Page → Page) : (s.modPage k f).memErrs = s.memErrs := rfl
@[simp] theorem State.modPage_host (s : State) (k : Nat) (f : Page → Page) : (s.modPage k f).host = s.host := rfl
@[simp] theorem State.modPage_cfls (s : State) (k : Nat) (f : Page → Page) : (s.modPage k f).cfls = s.cfls := rfl
@[simp] theorem State.modPage_vote (s : State) (k : Nat) (f : Page → Page) : (s.modPage k f).vote = s.vote := rfl
@[simp] theorem State.modPage_bks (s : State) (k : Nat) (f : Page → Page) : (s.modPage k f).bks = s.bks := rfl
@[simp] theorem State.modPage_brook (s : State) (k : Nat) (f : Page → Page) : (s.modPage k f).brook = s.brook := rfl
@[simp] theorem State.modPage_silt (s : State) (k : Nat) (f : Page → Page) : (s.modPage k f).silt = s.silt := rfl
@[simp] theorem State.modPage_dma (s : State) (k : Nat) (f : Page → Page) : (s.modPage k f).dma = s.dma := rfl
@[simp] theorem State.modPage_cores (s : State) (k : Nat) (f : Page → Page) : (s.modPage k f).cores = s.cores := rfl
@[simp] theorem State.modPage_scS (s : State) (k : Nat) (f : Page → Page) : (s.modPage k f).scS = s.scS := rfl
@[simp] theorem State.modPage_scV (s : State) (k : Nat) (f : Page → Page) : (s.modPage k f).scV = s.scV := rfl
@[simp] theorem State.modPage_mon (s : State) (k : Nat) (f : Page → Page) : (s.modPage k f).mon = s.mon := rfl
@[simp] theorem State.modPage_boot (s : State) (k : Nat) (f : Page → Page) : (s.modPage k f).boot = s.boot := rfl
@[simp] theorem State.modPage_fuses (s : State) (k : Nat) (f : Page → Page) : (s.modPage k f).fuses = s.fuses := rfl
@[simp] theorem State.modPage_supply (s : State) (k : Nat) (f : Page → Page) : (s.modPage k f).supply = s.supply := rfl
@[simp] theorem State.modTe_pending (s : State) (n : Nat) (f : Te → Te) : (s.modTe n f).pending = s.pending := rfl
@[simp] theorem State.modTe_ans (s : State) (n : Nat) (f : Te → Te) : (s.modTe n f).ans = s.ans := rfl
@[simp] theorem State.modTe_posted (s : State) (n : Nat) (f : Te → Te) : (s.modTe n f).posted = s.posted := rfl
@[simp] theorem State.modTe_freeCtr (s : State) (n : Nat) (f : Te → Te) : (s.modTe n f).freeCtr = s.freeCtr := rfl
@[simp] theorem State.modTe_now (s : State) (n : Nat) (f : Te → Te) : (s.modTe n f).now = s.now := rfl
@[simp] theorem State.modTe_islands (s : State) (n : Nat) (f : Te → Te) : (s.modTe n f).islands = s.islands := rfl
@[simp] theorem State.modTe_latch (s : State) (n : Nat) (f : Te → Te) : (s.modTe n f).latch = s.latch := rfl
@[simp] theorem State.modTe_regs (s : State) (n : Nat) (f : Te → Te) : (s.modTe n f).regs = s.regs := rfl
@[simp] theorem State.modTe_shadow (s : State) (n : Nat) (f : Te → Te) : (s.modTe n f).shadow = s.shadow := rfl
@[simp] theorem State.modTe_mem (s : State) (n : Nat) (f : Te → Te) : (s.modTe n f).mem = s.mem := rfl
@[simp] theorem State.modTe_tags (s : State) (n : Nat) (f : Te → Te) : (s.modTe n f).tags = s.tags := rfl
@[simp] theorem State.modTe_ue (s : State) (n : Nat) (f : Te → Te) : (s.modTe n f).ue = s.ue := rfl
@[simp] theorem State.modTe_hostMem (s : State) (n : Nat) (f : Te → Te) : (s.modTe n f).hostMem = s.hostMem := rfl
@[simp] theorem State.modTe_subs (s : State) (n : Nat) (f : Te → Te) : (s.modTe n f).subs = s.subs := rfl
@[simp] theorem State.modTe_q (s : State) (n : Nat) (f : Te → Te) : (s.modTe n f).q = s.q := rfl
@[simp] theorem State.modTe_reaches (s : State) (n : Nat) (f : Te → Te) : (s.modTe n f).reaches = s.reaches := rfl
@[simp] theorem State.modTe_pages (s : State) (n : Nat) (f : Te → Te) : (s.modTe n f).pages = s.pages := rfl
@[simp] theorem State.modTe_mig (s : State) (n : Nat) (f : Te → Te) : (s.modTe n f).mig = s.mig := rfl
@[simp] theorem State.modTe_disp (s : State) (n : Nat) (f : Te → Te) : (s.modTe n f).disp = s.disp := rfl
@[simp] theorem State.modTe_cu (s : State) (n : Nat) (f : Te → Te) : (s.modTe n f).cu = s.cu := rfl
@[simp] theorem State.modTe_pins (s : State) (n : Nat) (f : Te → Te) : (s.modTe n f).pins = s.pins := rfl
@[simp] theorem State.modTe_banks (s : State) (n : Nat) (f : Te → Te) : (s.modTe n f).banks = s.banks := rfl
@[simp] theorem State.modTe_fd (s : State) (n : Nat) (f : Te → Te) : (s.modTe n f).fd = s.fd := rfl
@[simp] theorem State.modTe_sluice (s : State) (n : Nat) (f : Te → Te) : (s.modTe n f).sluice = s.sluice := rfl
@[simp] theorem State.modTe_ev (s : State) (n : Nat) (f : Te → Te) : (s.modTe n f).ev = s.ev := rfl
@[simp] theorem State.modTe_mbx (s : State) (n : Nat) (f : Te → Te) : (s.modTe n f).mbx = s.mbx := rfl
@[simp] theorem State.modTe_levee (s : State) (n : Nat) (f : Te → Te) : (s.modTe n f).levee = s.levee := rfl
@[simp] theorem State.modTe_weir (s : State) (n : Nat) (f : Te → Te) : (s.modTe n f).weir = s.weir := rfl
@[simp] theorem State.modTe_memErrs (s : State) (n : Nat) (f : Te → Te) : (s.modTe n f).memErrs = s.memErrs := rfl
@[simp] theorem State.modTe_host (s : State) (n : Nat) (f : Te → Te) : (s.modTe n f).host = s.host := rfl
@[simp] theorem State.modTe_cfls (s : State) (n : Nat) (f : Te → Te) : (s.modTe n f).cfls = s.cfls := rfl
@[simp] theorem State.modTe_vote (s : State) (n : Nat) (f : Te → Te) : (s.modTe n f).vote = s.vote := rfl
@[simp] theorem State.modTe_bks (s : State) (n : Nat) (f : Te → Te) : (s.modTe n f).bks = s.bks := rfl
@[simp] theorem State.modTe_brook (s : State) (n : Nat) (f : Te → Te) : (s.modTe n f).brook = s.brook := rfl
@[simp] theorem State.modTe_silt (s : State) (n : Nat) (f : Te → Te) : (s.modTe n f).silt = s.silt := rfl
@[simp] theorem State.modTe_dma (s : State) (n : Nat) (f : Te → Te) : (s.modTe n f).dma = s.dma := rfl
@[simp] theorem State.modTe_cores (s : State) (n : Nat) (f : Te → Te) : (s.modTe n f).cores = s.cores := rfl
@[simp] theorem State.modTe_scS (s : State) (n : Nat) (f : Te → Te) : (s.modTe n f).scS = s.scS := rfl
@[simp] theorem State.modTe_scV (s : State) (n : Nat) (f : Te → Te) : (s.modTe n f).scV = s.scV := rfl
@[simp] theorem State.modTe_mon (s : State) (n : Nat) (f : Te → Te) : (s.modTe n f).mon = s.mon := rfl
@[simp] theorem State.modTe_boot (s : State) (n : Nat) (f : Te → Te) : (s.modTe n f).boot = s.boot := rfl
@[simp] theorem State.modTe_fuses (s : State) (n : Nat) (f : Te → Te) : (s.modTe n f).fuses = s.fuses := rfl
@[simp] theorem State.modTe_supply (s : State) (n : Nat) (f : Te → Te) : (s.modTe n f).supply = s.supply := rfl
@[simp] theorem State.setMig_pending (s : State) (m : Migration) : (s.setMig m).pending = s.pending := rfl
@[simp] theorem State.setMig_ans (s : State) (m : Migration) : (s.setMig m).ans = s.ans := rfl
@[simp] theorem State.setMig_posted (s : State) (m : Migration) : (s.setMig m).posted = s.posted := rfl
@[simp] theorem State.setMig_freeCtr (s : State) (m : Migration) : (s.setMig m).freeCtr = s.freeCtr := rfl
@[simp] theorem State.setMig_now (s : State) (m : Migration) : (s.setMig m).now = s.now := rfl
@[simp] theorem State.setMig_islands (s : State) (m : Migration) : (s.setMig m).islands = s.islands := rfl
@[simp] theorem State.setMig_latch (s : State) (m : Migration) : (s.setMig m).latch = s.latch := rfl
@[simp] theorem State.setMig_regs (s : State) (m : Migration) : (s.setMig m).regs = s.regs := rfl
@[simp] theorem State.setMig_shadow (s : State) (m : Migration) : (s.setMig m).shadow = s.shadow := rfl
@[simp] theorem State.setMig_mem (s : State) (m : Migration) : (s.setMig m).mem = s.mem := rfl
@[simp] theorem State.setMig_tags (s : State) (m : Migration) : (s.setMig m).tags = s.tags := rfl
@[simp] theorem State.setMig_ue (s : State) (m : Migration) : (s.setMig m).ue = s.ue := rfl
@[simp] theorem State.setMig_hostMem (s : State) (m : Migration) : (s.setMig m).hostMem = s.hostMem := rfl
@[simp] theorem State.setMig_subs (s : State) (m : Migration) : (s.setMig m).subs = s.subs := rfl
@[simp] theorem State.setMig_q (s : State) (m : Migration) : (s.setMig m).q = s.q := rfl
@[simp] theorem State.setMig_reaches (s : State) (m : Migration) : (s.setMig m).reaches = s.reaches := rfl
@[simp] theorem State.setMig_pages (s : State) (m : Migration) : (s.setMig m).pages = s.pages := rfl
@[simp] theorem State.setMig_tes (s : State) (m : Migration) : (s.setMig m).tes = s.tes := rfl
@[simp] theorem State.setMig_disp (s : State) (m : Migration) : (s.setMig m).disp = s.disp := rfl
@[simp] theorem State.setMig_cu (s : State) (m : Migration) : (s.setMig m).cu = s.cu := rfl
@[simp] theorem State.setMig_pins (s : State) (m : Migration) : (s.setMig m).pins = s.pins := rfl
@[simp] theorem State.setMig_banks (s : State) (m : Migration) : (s.setMig m).banks = s.banks := rfl
@[simp] theorem State.setMig_fd (s : State) (m : Migration) : (s.setMig m).fd = s.fd := rfl
@[simp] theorem State.setMig_sluice (s : State) (m : Migration) : (s.setMig m).sluice = s.sluice := rfl
@[simp] theorem State.setMig_ev (s : State) (m : Migration) : (s.setMig m).ev = s.ev := rfl
@[simp] theorem State.setMig_mbx (s : State) (m : Migration) : (s.setMig m).mbx = s.mbx := rfl
@[simp] theorem State.setMig_levee (s : State) (m : Migration) : (s.setMig m).levee = s.levee := rfl
@[simp] theorem State.setMig_weir (s : State) (m : Migration) : (s.setMig m).weir = s.weir := rfl
@[simp] theorem State.setMig_memErrs (s : State) (m : Migration) : (s.setMig m).memErrs = s.memErrs := rfl
@[simp] theorem State.setMig_host (s : State) (m : Migration) : (s.setMig m).host = s.host := rfl
@[simp] theorem State.setMig_cfls (s : State) (m : Migration) : (s.setMig m).cfls = s.cfls := rfl
@[simp] theorem State.setMig_vote (s : State) (m : Migration) : (s.setMig m).vote = s.vote := rfl
@[simp] theorem State.setMig_bks (s : State) (m : Migration) : (s.setMig m).bks = s.bks := rfl
@[simp] theorem State.setMig_brook (s : State) (m : Migration) : (s.setMig m).brook = s.brook := rfl
@[simp] theorem State.setMig_silt (s : State) (m : Migration) : (s.setMig m).silt = s.silt := rfl
@[simp] theorem State.setMig_dma (s : State) (m : Migration) : (s.setMig m).dma = s.dma := rfl
@[simp] theorem State.setMig_cores (s : State) (m : Migration) : (s.setMig m).cores = s.cores := rfl
@[simp] theorem State.setMig_scS (s : State) (m : Migration) : (s.setMig m).scS = s.scS := rfl
@[simp] theorem State.setMig_scV (s : State) (m : Migration) : (s.setMig m).scV = s.scV := rfl
@[simp] theorem State.setMig_mon (s : State) (m : Migration) : (s.setMig m).mon = s.mon := rfl
@[simp] theorem State.setMig_boot (s : State) (m : Migration) : (s.setMig m).boot = s.boot := rfl
@[simp] theorem State.setMig_fuses (s : State) (m : Migration) : (s.setMig m).fuses = s.fuses := rfl
@[simp] theorem State.setMig_supply (s : State) (m : Migration) : (s.setMig m).supply = s.supply := rfl
@[simp] theorem State.setMig_mig (s : State) (m : Migration) : (s.setMig m).mig = m := rfl
@[simp] theorem State.modDisp_pending (s : State) (f : DispUpd → DispUpd) : (s.modDisp f).pending = s.pending := rfl
@[simp] theorem State.modDisp_ans (s : State) (f : DispUpd → DispUpd) : (s.modDisp f).ans = s.ans := rfl
@[simp] theorem State.modDisp_posted (s : State) (f : DispUpd → DispUpd) : (s.modDisp f).posted = s.posted := rfl
@[simp] theorem State.modDisp_freeCtr (s : State) (f : DispUpd → DispUpd) : (s.modDisp f).freeCtr = s.freeCtr := rfl
@[simp] theorem State.modDisp_now (s : State) (f : DispUpd → DispUpd) : (s.modDisp f).now = s.now := rfl
@[simp] theorem State.modDisp_islands (s : State) (f : DispUpd → DispUpd) : (s.modDisp f).islands = s.islands := rfl
@[simp] theorem State.modDisp_latch (s : State) (f : DispUpd → DispUpd) : (s.modDisp f).latch = s.latch := rfl
@[simp] theorem State.modDisp_regs (s : State) (f : DispUpd → DispUpd) : (s.modDisp f).regs = s.regs := rfl
@[simp] theorem State.modDisp_shadow (s : State) (f : DispUpd → DispUpd) : (s.modDisp f).shadow = s.shadow := rfl
@[simp] theorem State.modDisp_mem (s : State) (f : DispUpd → DispUpd) : (s.modDisp f).mem = s.mem := rfl
@[simp] theorem State.modDisp_tags (s : State) (f : DispUpd → DispUpd) : (s.modDisp f).tags = s.tags := rfl
@[simp] theorem State.modDisp_ue (s : State) (f : DispUpd → DispUpd) : (s.modDisp f).ue = s.ue := rfl
@[simp] theorem State.modDisp_hostMem (s : State) (f : DispUpd → DispUpd) : (s.modDisp f).hostMem = s.hostMem := rfl
@[simp] theorem State.modDisp_subs (s : State) (f : DispUpd → DispUpd) : (s.modDisp f).subs = s.subs := rfl
@[simp] theorem State.modDisp_q (s : State) (f : DispUpd → DispUpd) : (s.modDisp f).q = s.q := rfl
@[simp] theorem State.modDisp_reaches (s : State) (f : DispUpd → DispUpd) : (s.modDisp f).reaches = s.reaches := rfl
@[simp] theorem State.modDisp_pages (s : State) (f : DispUpd → DispUpd) : (s.modDisp f).pages = s.pages := rfl
@[simp] theorem State.modDisp_tes (s : State) (f : DispUpd → DispUpd) : (s.modDisp f).tes = s.tes := rfl
@[simp] theorem State.modDisp_mig (s : State) (f : DispUpd → DispUpd) : (s.modDisp f).mig = s.mig := rfl
@[simp] theorem State.modDisp_cu (s : State) (f : DispUpd → DispUpd) : (s.modDisp f).cu = s.cu := rfl
@[simp] theorem State.modDisp_pins (s : State) (f : DispUpd → DispUpd) : (s.modDisp f).pins = s.pins := rfl
@[simp] theorem State.modDisp_banks (s : State) (f : DispUpd → DispUpd) : (s.modDisp f).banks = s.banks := rfl
@[simp] theorem State.modDisp_fd (s : State) (f : DispUpd → DispUpd) : (s.modDisp f).fd = s.fd := rfl
@[simp] theorem State.modDisp_sluice (s : State) (f : DispUpd → DispUpd) : (s.modDisp f).sluice = s.sluice := rfl
@[simp] theorem State.modDisp_ev (s : State) (f : DispUpd → DispUpd) : (s.modDisp f).ev = s.ev := rfl
@[simp] theorem State.modDisp_mbx (s : State) (f : DispUpd → DispUpd) : (s.modDisp f).mbx = s.mbx := rfl
@[simp] theorem State.modDisp_levee (s : State) (f : DispUpd → DispUpd) : (s.modDisp f).levee = s.levee := rfl
@[simp] theorem State.modDisp_weir (s : State) (f : DispUpd → DispUpd) : (s.modDisp f).weir = s.weir := rfl
@[simp] theorem State.modDisp_memErrs (s : State) (f : DispUpd → DispUpd) : (s.modDisp f).memErrs = s.memErrs := rfl
@[simp] theorem State.modDisp_host (s : State) (f : DispUpd → DispUpd) : (s.modDisp f).host = s.host := rfl
@[simp] theorem State.modDisp_cfls (s : State) (f : DispUpd → DispUpd) : (s.modDisp f).cfls = s.cfls := rfl
@[simp] theorem State.modDisp_vote (s : State) (f : DispUpd → DispUpd) : (s.modDisp f).vote = s.vote := rfl
@[simp] theorem State.modDisp_bks (s : State) (f : DispUpd → DispUpd) : (s.modDisp f).bks = s.bks := rfl
@[simp] theorem State.modDisp_brook (s : State) (f : DispUpd → DispUpd) : (s.modDisp f).brook = s.brook := rfl
@[simp] theorem State.modDisp_silt (s : State) (f : DispUpd → DispUpd) : (s.modDisp f).silt = s.silt := rfl
@[simp] theorem State.modDisp_dma (s : State) (f : DispUpd → DispUpd) : (s.modDisp f).dma = s.dma := rfl
@[simp] theorem State.modDisp_cores (s : State) (f : DispUpd → DispUpd) : (s.modDisp f).cores = s.cores := rfl
@[simp] theorem State.modDisp_scS (s : State) (f : DispUpd → DispUpd) : (s.modDisp f).scS = s.scS := rfl
@[simp] theorem State.modDisp_scV (s : State) (f : DispUpd → DispUpd) : (s.modDisp f).scV = s.scV := rfl
@[simp] theorem State.modDisp_mon (s : State) (f : DispUpd → DispUpd) : (s.modDisp f).mon = s.mon := rfl
@[simp] theorem State.modDisp_boot (s : State) (f : DispUpd → DispUpd) : (s.modDisp f).boot = s.boot := rfl
@[simp] theorem State.modDisp_fuses (s : State) (f : DispUpd → DispUpd) : (s.modDisp f).fuses = s.fuses := rfl
@[simp] theorem State.modDisp_supply (s : State) (f : DispUpd → DispUpd) : (s.modDisp f).supply = s.supply := rfl
@[simp] theorem State.modDisp_disp (s : State) (f : DispUpd → DispUpd) : (s.modDisp f).disp = f s.disp := rfl
@[simp] theorem State.modCu_pending (s : State) (f : Commit → Commit) : (s.modCu f).pending = s.pending := rfl
@[simp] theorem State.modCu_ans (s : State) (f : Commit → Commit) : (s.modCu f).ans = s.ans := rfl
@[simp] theorem State.modCu_posted (s : State) (f : Commit → Commit) : (s.modCu f).posted = s.posted := rfl
@[simp] theorem State.modCu_freeCtr (s : State) (f : Commit → Commit) : (s.modCu f).freeCtr = s.freeCtr := rfl
@[simp] theorem State.modCu_now (s : State) (f : Commit → Commit) : (s.modCu f).now = s.now := rfl
@[simp] theorem State.modCu_islands (s : State) (f : Commit → Commit) : (s.modCu f).islands = s.islands := rfl
@[simp] theorem State.modCu_latch (s : State) (f : Commit → Commit) : (s.modCu f).latch = s.latch := rfl
@[simp] theorem State.modCu_regs (s : State) (f : Commit → Commit) : (s.modCu f).regs = s.regs := rfl
@[simp] theorem State.modCu_shadow (s : State) (f : Commit → Commit) : (s.modCu f).shadow = s.shadow := rfl
@[simp] theorem State.modCu_mem (s : State) (f : Commit → Commit) : (s.modCu f).mem = s.mem := rfl
@[simp] theorem State.modCu_tags (s : State) (f : Commit → Commit) : (s.modCu f).tags = s.tags := rfl
@[simp] theorem State.modCu_ue (s : State) (f : Commit → Commit) : (s.modCu f).ue = s.ue := rfl
@[simp] theorem State.modCu_hostMem (s : State) (f : Commit → Commit) : (s.modCu f).hostMem = s.hostMem := rfl
@[simp] theorem State.modCu_subs (s : State) (f : Commit → Commit) : (s.modCu f).subs = s.subs := rfl
@[simp] theorem State.modCu_q (s : State) (f : Commit → Commit) : (s.modCu f).q = s.q := rfl
@[simp] theorem State.modCu_reaches (s : State) (f : Commit → Commit) : (s.modCu f).reaches = s.reaches := rfl
@[simp] theorem State.modCu_pages (s : State) (f : Commit → Commit) : (s.modCu f).pages = s.pages := rfl
@[simp] theorem State.modCu_tes (s : State) (f : Commit → Commit) : (s.modCu f).tes = s.tes := rfl
@[simp] theorem State.modCu_mig (s : State) (f : Commit → Commit) : (s.modCu f).mig = s.mig := rfl
@[simp] theorem State.modCu_disp (s : State) (f : Commit → Commit) : (s.modCu f).disp = s.disp := rfl
@[simp] theorem State.modCu_pins (s : State) (f : Commit → Commit) : (s.modCu f).pins = s.pins := rfl
@[simp] theorem State.modCu_banks (s : State) (f : Commit → Commit) : (s.modCu f).banks = s.banks := rfl
@[simp] theorem State.modCu_fd (s : State) (f : Commit → Commit) : (s.modCu f).fd = s.fd := rfl
@[simp] theorem State.modCu_sluice (s : State) (f : Commit → Commit) : (s.modCu f).sluice = s.sluice := rfl
@[simp] theorem State.modCu_ev (s : State) (f : Commit → Commit) : (s.modCu f).ev = s.ev := rfl
@[simp] theorem State.modCu_mbx (s : State) (f : Commit → Commit) : (s.modCu f).mbx = s.mbx := rfl
@[simp] theorem State.modCu_levee (s : State) (f : Commit → Commit) : (s.modCu f).levee = s.levee := rfl
@[simp] theorem State.modCu_weir (s : State) (f : Commit → Commit) : (s.modCu f).weir = s.weir := rfl
@[simp] theorem State.modCu_memErrs (s : State) (f : Commit → Commit) : (s.modCu f).memErrs = s.memErrs := rfl
@[simp] theorem State.modCu_host (s : State) (f : Commit → Commit) : (s.modCu f).host = s.host := rfl
@[simp] theorem State.modCu_cfls (s : State) (f : Commit → Commit) : (s.modCu f).cfls = s.cfls := rfl
@[simp] theorem State.modCu_vote (s : State) (f : Commit → Commit) : (s.modCu f).vote = s.vote := rfl
@[simp] theorem State.modCu_bks (s : State) (f : Commit → Commit) : (s.modCu f).bks = s.bks := rfl
@[simp] theorem State.modCu_brook (s : State) (f : Commit → Commit) : (s.modCu f).brook = s.brook := rfl
@[simp] theorem State.modCu_silt (s : State) (f : Commit → Commit) : (s.modCu f).silt = s.silt := rfl
@[simp] theorem State.modCu_dma (s : State) (f : Commit → Commit) : (s.modCu f).dma = s.dma := rfl
@[simp] theorem State.modCu_cores (s : State) (f : Commit → Commit) : (s.modCu f).cores = s.cores := rfl
@[simp] theorem State.modCu_scS (s : State) (f : Commit → Commit) : (s.modCu f).scS = s.scS := rfl
@[simp] theorem State.modCu_scV (s : State) (f : Commit → Commit) : (s.modCu f).scV = s.scV := rfl
@[simp] theorem State.modCu_mon (s : State) (f : Commit → Commit) : (s.modCu f).mon = s.mon := rfl
@[simp] theorem State.modCu_boot (s : State) (f : Commit → Commit) : (s.modCu f).boot = s.boot := rfl
@[simp] theorem State.modCu_fuses (s : State) (f : Commit → Commit) : (s.modCu f).fuses = s.fuses := rfl
@[simp] theorem State.modCu_supply (s : State) (f : Commit → Commit) : (s.modCu f).supply = s.supply := rfl
@[simp] theorem State.modCu_cu (s : State) (f : Commit → Commit) : (s.modCu f).cu = f s.cu := rfl
@[simp] theorem State.modPin_pending (s : State) (n : Nat) (f : Pin → Pin) : (s.modPin n f).pending = s.pending := rfl
@[simp] theorem State.modPin_ans (s : State) (n : Nat) (f : Pin → Pin) : (s.modPin n f).ans = s.ans := rfl
@[simp] theorem State.modPin_posted (s : State) (n : Nat) (f : Pin → Pin) : (s.modPin n f).posted = s.posted := rfl
@[simp] theorem State.modPin_freeCtr (s : State) (n : Nat) (f : Pin → Pin) : (s.modPin n f).freeCtr = s.freeCtr := rfl
@[simp] theorem State.modPin_now (s : State) (n : Nat) (f : Pin → Pin) : (s.modPin n f).now = s.now := rfl
@[simp] theorem State.modPin_islands (s : State) (n : Nat) (f : Pin → Pin) : (s.modPin n f).islands = s.islands := rfl
@[simp] theorem State.modPin_latch (s : State) (n : Nat) (f : Pin → Pin) : (s.modPin n f).latch = s.latch := rfl
@[simp] theorem State.modPin_regs (s : State) (n : Nat) (f : Pin → Pin) : (s.modPin n f).regs = s.regs := rfl
@[simp] theorem State.modPin_shadow (s : State) (n : Nat) (f : Pin → Pin) : (s.modPin n f).shadow = s.shadow := rfl
@[simp] theorem State.modPin_mem (s : State) (n : Nat) (f : Pin → Pin) : (s.modPin n f).mem = s.mem := rfl
@[simp] theorem State.modPin_tags (s : State) (n : Nat) (f : Pin → Pin) : (s.modPin n f).tags = s.tags := rfl
@[simp] theorem State.modPin_ue (s : State) (n : Nat) (f : Pin → Pin) : (s.modPin n f).ue = s.ue := rfl
@[simp] theorem State.modPin_hostMem (s : State) (n : Nat) (f : Pin → Pin) : (s.modPin n f).hostMem = s.hostMem := rfl
@[simp] theorem State.modPin_subs (s : State) (n : Nat) (f : Pin → Pin) : (s.modPin n f).subs = s.subs := rfl
@[simp] theorem State.modPin_q (s : State) (n : Nat) (f : Pin → Pin) : (s.modPin n f).q = s.q := rfl
@[simp] theorem State.modPin_reaches (s : State) (n : Nat) (f : Pin → Pin) : (s.modPin n f).reaches = s.reaches := rfl
@[simp] theorem State.modPin_pages (s : State) (n : Nat) (f : Pin → Pin) : (s.modPin n f).pages = s.pages := rfl
@[simp] theorem State.modPin_tes (s : State) (n : Nat) (f : Pin → Pin) : (s.modPin n f).tes = s.tes := rfl
@[simp] theorem State.modPin_mig (s : State) (n : Nat) (f : Pin → Pin) : (s.modPin n f).mig = s.mig := rfl
@[simp] theorem State.modPin_disp (s : State) (n : Nat) (f : Pin → Pin) : (s.modPin n f).disp = s.disp := rfl
@[simp] theorem State.modPin_cu (s : State) (n : Nat) (f : Pin → Pin) : (s.modPin n f).cu = s.cu := rfl
@[simp] theorem State.modPin_banks (s : State) (n : Nat) (f : Pin → Pin) : (s.modPin n f).banks = s.banks := rfl
@[simp] theorem State.modPin_fd (s : State) (n : Nat) (f : Pin → Pin) : (s.modPin n f).fd = s.fd := rfl
@[simp] theorem State.modPin_sluice (s : State) (n : Nat) (f : Pin → Pin) : (s.modPin n f).sluice = s.sluice := rfl
@[simp] theorem State.modPin_ev (s : State) (n : Nat) (f : Pin → Pin) : (s.modPin n f).ev = s.ev := rfl
@[simp] theorem State.modPin_mbx (s : State) (n : Nat) (f : Pin → Pin) : (s.modPin n f).mbx = s.mbx := rfl
@[simp] theorem State.modPin_levee (s : State) (n : Nat) (f : Pin → Pin) : (s.modPin n f).levee = s.levee := rfl
@[simp] theorem State.modPin_weir (s : State) (n : Nat) (f : Pin → Pin) : (s.modPin n f).weir = s.weir := rfl
@[simp] theorem State.modPin_memErrs (s : State) (n : Nat) (f : Pin → Pin) : (s.modPin n f).memErrs = s.memErrs := rfl
@[simp] theorem State.modPin_host (s : State) (n : Nat) (f : Pin → Pin) : (s.modPin n f).host = s.host := rfl
@[simp] theorem State.modPin_cfls (s : State) (n : Nat) (f : Pin → Pin) : (s.modPin n f).cfls = s.cfls := rfl
@[simp] theorem State.modPin_vote (s : State) (n : Nat) (f : Pin → Pin) : (s.modPin n f).vote = s.vote := rfl
@[simp] theorem State.modPin_bks (s : State) (n : Nat) (f : Pin → Pin) : (s.modPin n f).bks = s.bks := rfl
@[simp] theorem State.modPin_brook (s : State) (n : Nat) (f : Pin → Pin) : (s.modPin n f).brook = s.brook := rfl
@[simp] theorem State.modPin_silt (s : State) (n : Nat) (f : Pin → Pin) : (s.modPin n f).silt = s.silt := rfl
@[simp] theorem State.modPin_dma (s : State) (n : Nat) (f : Pin → Pin) : (s.modPin n f).dma = s.dma := rfl
@[simp] theorem State.modPin_cores (s : State) (n : Nat) (f : Pin → Pin) : (s.modPin n f).cores = s.cores := rfl
@[simp] theorem State.modPin_scS (s : State) (n : Nat) (f : Pin → Pin) : (s.modPin n f).scS = s.scS := rfl
@[simp] theorem State.modPin_scV (s : State) (n : Nat) (f : Pin → Pin) : (s.modPin n f).scV = s.scV := rfl
@[simp] theorem State.modPin_mon (s : State) (n : Nat) (f : Pin → Pin) : (s.modPin n f).mon = s.mon := rfl
@[simp] theorem State.modPin_boot (s : State) (n : Nat) (f : Pin → Pin) : (s.modPin n f).boot = s.boot := rfl
@[simp] theorem State.modPin_fuses (s : State) (n : Nat) (f : Pin → Pin) : (s.modPin n f).fuses = s.fuses := rfl
@[simp] theorem State.modPin_supply (s : State) (n : Nat) (f : Pin → Pin) : (s.modPin n f).supply = s.supply := rfl
@[simp] theorem State.modBank_pending (s : State) (n : Nat) (f : Bank → Bank) : (s.modBank n f).pending = s.pending := rfl
@[simp] theorem State.modBank_ans (s : State) (n : Nat) (f : Bank → Bank) : (s.modBank n f).ans = s.ans := rfl
@[simp] theorem State.modBank_posted (s : State) (n : Nat) (f : Bank → Bank) : (s.modBank n f).posted = s.posted := rfl
@[simp] theorem State.modBank_freeCtr (s : State) (n : Nat) (f : Bank → Bank) : (s.modBank n f).freeCtr = s.freeCtr := rfl
@[simp] theorem State.modBank_now (s : State) (n : Nat) (f : Bank → Bank) : (s.modBank n f).now = s.now := rfl
@[simp] theorem State.modBank_islands (s : State) (n : Nat) (f : Bank → Bank) : (s.modBank n f).islands = s.islands := rfl
@[simp] theorem State.modBank_latch (s : State) (n : Nat) (f : Bank → Bank) : (s.modBank n f).latch = s.latch := rfl
@[simp] theorem State.modBank_regs (s : State) (n : Nat) (f : Bank → Bank) : (s.modBank n f).regs = s.regs := rfl
@[simp] theorem State.modBank_shadow (s : State) (n : Nat) (f : Bank → Bank) : (s.modBank n f).shadow = s.shadow := rfl
@[simp] theorem State.modBank_mem (s : State) (n : Nat) (f : Bank → Bank) : (s.modBank n f).mem = s.mem := rfl
@[simp] theorem State.modBank_tags (s : State) (n : Nat) (f : Bank → Bank) : (s.modBank n f).tags = s.tags := rfl
@[simp] theorem State.modBank_ue (s : State) (n : Nat) (f : Bank → Bank) : (s.modBank n f).ue = s.ue := rfl
@[simp] theorem State.modBank_hostMem (s : State) (n : Nat) (f : Bank → Bank) : (s.modBank n f).hostMem = s.hostMem := rfl
@[simp] theorem State.modBank_subs (s : State) (n : Nat) (f : Bank → Bank) : (s.modBank n f).subs = s.subs := rfl
@[simp] theorem State.modBank_q (s : State) (n : Nat) (f : Bank → Bank) : (s.modBank n f).q = s.q := rfl
@[simp] theorem State.modBank_reaches (s : State) (n : Nat) (f : Bank → Bank) : (s.modBank n f).reaches = s.reaches := rfl
@[simp] theorem State.modBank_pages (s : State) (n : Nat) (f : Bank → Bank) : (s.modBank n f).pages = s.pages := rfl
@[simp] theorem State.modBank_tes (s : State) (n : Nat) (f : Bank → Bank) : (s.modBank n f).tes = s.tes := rfl
@[simp] theorem State.modBank_mig (s : State) (n : Nat) (f : Bank → Bank) : (s.modBank n f).mig = s.mig := rfl
@[simp] theorem State.modBank_disp (s : State) (n : Nat) (f : Bank → Bank) : (s.modBank n f).disp = s.disp := rfl
@[simp] theorem State.modBank_cu (s : State) (n : Nat) (f : Bank → Bank) : (s.modBank n f).cu = s.cu := rfl
@[simp] theorem State.modBank_pins (s : State) (n : Nat) (f : Bank → Bank) : (s.modBank n f).pins = s.pins := rfl
@[simp] theorem State.modBank_fd (s : State) (n : Nat) (f : Bank → Bank) : (s.modBank n f).fd = s.fd := rfl
@[simp] theorem State.modBank_sluice (s : State) (n : Nat) (f : Bank → Bank) : (s.modBank n f).sluice = s.sluice := rfl
@[simp] theorem State.modBank_ev (s : State) (n : Nat) (f : Bank → Bank) : (s.modBank n f).ev = s.ev := rfl
@[simp] theorem State.modBank_mbx (s : State) (n : Nat) (f : Bank → Bank) : (s.modBank n f).mbx = s.mbx := rfl
@[simp] theorem State.modBank_levee (s : State) (n : Nat) (f : Bank → Bank) : (s.modBank n f).levee = s.levee := rfl
@[simp] theorem State.modBank_weir (s : State) (n : Nat) (f : Bank → Bank) : (s.modBank n f).weir = s.weir := rfl
@[simp] theorem State.modBank_memErrs (s : State) (n : Nat) (f : Bank → Bank) : (s.modBank n f).memErrs = s.memErrs := rfl
@[simp] theorem State.modBank_host (s : State) (n : Nat) (f : Bank → Bank) : (s.modBank n f).host = s.host := rfl
@[simp] theorem State.modBank_cfls (s : State) (n : Nat) (f : Bank → Bank) : (s.modBank n f).cfls = s.cfls := rfl
@[simp] theorem State.modBank_vote (s : State) (n : Nat) (f : Bank → Bank) : (s.modBank n f).vote = s.vote := rfl
@[simp] theorem State.modBank_bks (s : State) (n : Nat) (f : Bank → Bank) : (s.modBank n f).bks = s.bks := rfl
@[simp] theorem State.modBank_brook (s : State) (n : Nat) (f : Bank → Bank) : (s.modBank n f).brook = s.brook := rfl
@[simp] theorem State.modBank_silt (s : State) (n : Nat) (f : Bank → Bank) : (s.modBank n f).silt = s.silt := rfl
@[simp] theorem State.modBank_dma (s : State) (n : Nat) (f : Bank → Bank) : (s.modBank n f).dma = s.dma := rfl
@[simp] theorem State.modBank_cores (s : State) (n : Nat) (f : Bank → Bank) : (s.modBank n f).cores = s.cores := rfl
@[simp] theorem State.modBank_scS (s : State) (n : Nat) (f : Bank → Bank) : (s.modBank n f).scS = s.scS := rfl
@[simp] theorem State.modBank_scV (s : State) (n : Nat) (f : Bank → Bank) : (s.modBank n f).scV = s.scV := rfl
@[simp] theorem State.modBank_mon (s : State) (n : Nat) (f : Bank → Bank) : (s.modBank n f).mon = s.mon := rfl
@[simp] theorem State.modBank_boot (s : State) (n : Nat) (f : Bank → Bank) : (s.modBank n f).boot = s.boot := rfl
@[simp] theorem State.modBank_fuses (s : State) (n : Nat) (f : Bank → Bank) : (s.modBank n f).fuses = s.fuses := rfl
@[simp] theorem State.modBank_supply (s : State) (n : Nat) (f : Bank → Bank) : (s.modBank n f).supply = s.supply := rfl
@[simp] theorem State.modFd_pending (s : State) (f : Field → Field) : (s.modFd f).pending = s.pending := rfl
@[simp] theorem State.modFd_ans (s : State) (f : Field → Field) : (s.modFd f).ans = s.ans := rfl
@[simp] theorem State.modFd_posted (s : State) (f : Field → Field) : (s.modFd f).posted = s.posted := rfl
@[simp] theorem State.modFd_freeCtr (s : State) (f : Field → Field) : (s.modFd f).freeCtr = s.freeCtr := rfl
@[simp] theorem State.modFd_now (s : State) (f : Field → Field) : (s.modFd f).now = s.now := rfl
@[simp] theorem State.modFd_islands (s : State) (f : Field → Field) : (s.modFd f).islands = s.islands := rfl
@[simp] theorem State.modFd_latch (s : State) (f : Field → Field) : (s.modFd f).latch = s.latch := rfl
@[simp] theorem State.modFd_regs (s : State) (f : Field → Field) : (s.modFd f).regs = s.regs := rfl
@[simp] theorem State.modFd_shadow (s : State) (f : Field → Field) : (s.modFd f).shadow = s.shadow := rfl
@[simp] theorem State.modFd_mem (s : State) (f : Field → Field) : (s.modFd f).mem = s.mem := rfl
@[simp] theorem State.modFd_tags (s : State) (f : Field → Field) : (s.modFd f).tags = s.tags := rfl
@[simp] theorem State.modFd_ue (s : State) (f : Field → Field) : (s.modFd f).ue = s.ue := rfl
@[simp] theorem State.modFd_hostMem (s : State) (f : Field → Field) : (s.modFd f).hostMem = s.hostMem := rfl
@[simp] theorem State.modFd_subs (s : State) (f : Field → Field) : (s.modFd f).subs = s.subs := rfl
@[simp] theorem State.modFd_q (s : State) (f : Field → Field) : (s.modFd f).q = s.q := rfl
@[simp] theorem State.modFd_reaches (s : State) (f : Field → Field) : (s.modFd f).reaches = s.reaches := rfl
@[simp] theorem State.modFd_pages (s : State) (f : Field → Field) : (s.modFd f).pages = s.pages := rfl
@[simp] theorem State.modFd_tes (s : State) (f : Field → Field) : (s.modFd f).tes = s.tes := rfl
@[simp] theorem State.modFd_mig (s : State) (f : Field → Field) : (s.modFd f).mig = s.mig := rfl
@[simp] theorem State.modFd_disp (s : State) (f : Field → Field) : (s.modFd f).disp = s.disp := rfl
@[simp] theorem State.modFd_cu (s : State) (f : Field → Field) : (s.modFd f).cu = s.cu := rfl
@[simp] theorem State.modFd_pins (s : State) (f : Field → Field) : (s.modFd f).pins = s.pins := rfl
@[simp] theorem State.modFd_banks (s : State) (f : Field → Field) : (s.modFd f).banks = s.banks := rfl
@[simp] theorem State.modFd_sluice (s : State) (f : Field → Field) : (s.modFd f).sluice = s.sluice := rfl
@[simp] theorem State.modFd_ev (s : State) (f : Field → Field) : (s.modFd f).ev = s.ev := rfl
@[simp] theorem State.modFd_mbx (s : State) (f : Field → Field) : (s.modFd f).mbx = s.mbx := rfl
@[simp] theorem State.modFd_levee (s : State) (f : Field → Field) : (s.modFd f).levee = s.levee := rfl
@[simp] theorem State.modFd_weir (s : State) (f : Field → Field) : (s.modFd f).weir = s.weir := rfl
@[simp] theorem State.modFd_memErrs (s : State) (f : Field → Field) : (s.modFd f).memErrs = s.memErrs := rfl
@[simp] theorem State.modFd_host (s : State) (f : Field → Field) : (s.modFd f).host = s.host := rfl
@[simp] theorem State.modFd_cfls (s : State) (f : Field → Field) : (s.modFd f).cfls = s.cfls := rfl
@[simp] theorem State.modFd_vote (s : State) (f : Field → Field) : (s.modFd f).vote = s.vote := rfl
@[simp] theorem State.modFd_bks (s : State) (f : Field → Field) : (s.modFd f).bks = s.bks := rfl
@[simp] theorem State.modFd_brook (s : State) (f : Field → Field) : (s.modFd f).brook = s.brook := rfl
@[simp] theorem State.modFd_silt (s : State) (f : Field → Field) : (s.modFd f).silt = s.silt := rfl
@[simp] theorem State.modFd_dma (s : State) (f : Field → Field) : (s.modFd f).dma = s.dma := rfl
@[simp] theorem State.modFd_cores (s : State) (f : Field → Field) : (s.modFd f).cores = s.cores := rfl
@[simp] theorem State.modFd_scS (s : State) (f : Field → Field) : (s.modFd f).scS = s.scS := rfl
@[simp] theorem State.modFd_scV (s : State) (f : Field → Field) : (s.modFd f).scV = s.scV := rfl
@[simp] theorem State.modFd_mon (s : State) (f : Field → Field) : (s.modFd f).mon = s.mon := rfl
@[simp] theorem State.modFd_boot (s : State) (f : Field → Field) : (s.modFd f).boot = s.boot := rfl
@[simp] theorem State.modFd_fuses (s : State) (f : Field → Field) : (s.modFd f).fuses = s.fuses := rfl
@[simp] theorem State.modFd_supply (s : State) (f : Field → Field) : (s.modFd f).supply = s.supply := rfl
@[simp] theorem State.modFd_fd (s : State) (f : Field → Field) : (s.modFd f).fd = f s.fd := rfl
@[simp] theorem State.setSluice_pending (s : State) (t : Tbl Image) : (s.setSluice t).pending = s.pending := rfl
@[simp] theorem State.setSluice_ans (s : State) (t : Tbl Image) : (s.setSluice t).ans = s.ans := rfl
@[simp] theorem State.setSluice_posted (s : State) (t : Tbl Image) : (s.setSluice t).posted = s.posted := rfl
@[simp] theorem State.setSluice_freeCtr (s : State) (t : Tbl Image) : (s.setSluice t).freeCtr = s.freeCtr := rfl
@[simp] theorem State.setSluice_now (s : State) (t : Tbl Image) : (s.setSluice t).now = s.now := rfl
@[simp] theorem State.setSluice_islands (s : State) (t : Tbl Image) : (s.setSluice t).islands = s.islands := rfl
@[simp] theorem State.setSluice_latch (s : State) (t : Tbl Image) : (s.setSluice t).latch = s.latch := rfl
@[simp] theorem State.setSluice_regs (s : State) (t : Tbl Image) : (s.setSluice t).regs = s.regs := rfl
@[simp] theorem State.setSluice_shadow (s : State) (t : Tbl Image) : (s.setSluice t).shadow = s.shadow := rfl
@[simp] theorem State.setSluice_mem (s : State) (t : Tbl Image) : (s.setSluice t).mem = s.mem := rfl
@[simp] theorem State.setSluice_tags (s : State) (t : Tbl Image) : (s.setSluice t).tags = s.tags := rfl
@[simp] theorem State.setSluice_ue (s : State) (t : Tbl Image) : (s.setSluice t).ue = s.ue := rfl
@[simp] theorem State.setSluice_hostMem (s : State) (t : Tbl Image) : (s.setSluice t).hostMem = s.hostMem := rfl
@[simp] theorem State.setSluice_subs (s : State) (t : Tbl Image) : (s.setSluice t).subs = s.subs := rfl
@[simp] theorem State.setSluice_q (s : State) (t : Tbl Image) : (s.setSluice t).q = s.q := rfl
@[simp] theorem State.setSluice_reaches (s : State) (t : Tbl Image) : (s.setSluice t).reaches = s.reaches := rfl
@[simp] theorem State.setSluice_pages (s : State) (t : Tbl Image) : (s.setSluice t).pages = s.pages := rfl
@[simp] theorem State.setSluice_tes (s : State) (t : Tbl Image) : (s.setSluice t).tes = s.tes := rfl
@[simp] theorem State.setSluice_mig (s : State) (t : Tbl Image) : (s.setSluice t).mig = s.mig := rfl
@[simp] theorem State.setSluice_disp (s : State) (t : Tbl Image) : (s.setSluice t).disp = s.disp := rfl
@[simp] theorem State.setSluice_cu (s : State) (t : Tbl Image) : (s.setSluice t).cu = s.cu := rfl
@[simp] theorem State.setSluice_pins (s : State) (t : Tbl Image) : (s.setSluice t).pins = s.pins := rfl
@[simp] theorem State.setSluice_banks (s : State) (t : Tbl Image) : (s.setSluice t).banks = s.banks := rfl
@[simp] theorem State.setSluice_fd (s : State) (t : Tbl Image) : (s.setSluice t).fd = s.fd := rfl
@[simp] theorem State.setSluice_ev (s : State) (t : Tbl Image) : (s.setSluice t).ev = s.ev := rfl
@[simp] theorem State.setSluice_mbx (s : State) (t : Tbl Image) : (s.setSluice t).mbx = s.mbx := rfl
@[simp] theorem State.setSluice_levee (s : State) (t : Tbl Image) : (s.setSluice t).levee = s.levee := rfl
@[simp] theorem State.setSluice_weir (s : State) (t : Tbl Image) : (s.setSluice t).weir = s.weir := rfl
@[simp] theorem State.setSluice_memErrs (s : State) (t : Tbl Image) : (s.setSluice t).memErrs = s.memErrs := rfl
@[simp] theorem State.setSluice_host (s : State) (t : Tbl Image) : (s.setSluice t).host = s.host := rfl
@[simp] theorem State.setSluice_cfls (s : State) (t : Tbl Image) : (s.setSluice t).cfls = s.cfls := rfl
@[simp] theorem State.setSluice_vote (s : State) (t : Tbl Image) : (s.setSluice t).vote = s.vote := rfl
@[simp] theorem State.setSluice_bks (s : State) (t : Tbl Image) : (s.setSluice t).bks = s.bks := rfl
@[simp] theorem State.setSluice_brook (s : State) (t : Tbl Image) : (s.setSluice t).brook = s.brook := rfl
@[simp] theorem State.setSluice_silt (s : State) (t : Tbl Image) : (s.setSluice t).silt = s.silt := rfl
@[simp] theorem State.setSluice_dma (s : State) (t : Tbl Image) : (s.setSluice t).dma = s.dma := rfl
@[simp] theorem State.setSluice_cores (s : State) (t : Tbl Image) : (s.setSluice t).cores = s.cores := rfl
@[simp] theorem State.setSluice_scS (s : State) (t : Tbl Image) : (s.setSluice t).scS = s.scS := rfl
@[simp] theorem State.setSluice_scV (s : State) (t : Tbl Image) : (s.setSluice t).scV = s.scV := rfl
@[simp] theorem State.setSluice_mon (s : State) (t : Tbl Image) : (s.setSluice t).mon = s.mon := rfl
@[simp] theorem State.setSluice_boot (s : State) (t : Tbl Image) : (s.setSluice t).boot = s.boot := rfl
@[simp] theorem State.setSluice_fuses (s : State) (t : Tbl Image) : (s.setSluice t).fuses = s.fuses := rfl
@[simp] theorem State.setSluice_supply (s : State) (t : Tbl Image) : (s.setSluice t).supply = s.supply := rfl
@[simp] theorem State.setSluice_sluice (s : State) (t : Tbl Image) : (s.setSluice t).sluice = t := rfl
@[simp] theorem State.modVote_pending (s : State) (f : VoteU → VoteU) : (s.modVote f).pending = s.pending := rfl
@[simp] theorem State.modVote_ans (s : State) (f : VoteU → VoteU) : (s.modVote f).ans = s.ans := rfl
@[simp] theorem State.modVote_posted (s : State) (f : VoteU → VoteU) : (s.modVote f).posted = s.posted := rfl
@[simp] theorem State.modVote_freeCtr (s : State) (f : VoteU → VoteU) : (s.modVote f).freeCtr = s.freeCtr := rfl
@[simp] theorem State.modVote_now (s : State) (f : VoteU → VoteU) : (s.modVote f).now = s.now := rfl
@[simp] theorem State.modVote_islands (s : State) (f : VoteU → VoteU) : (s.modVote f).islands = s.islands := rfl
@[simp] theorem State.modVote_latch (s : State) (f : VoteU → VoteU) : (s.modVote f).latch = s.latch := rfl
@[simp] theorem State.modVote_regs (s : State) (f : VoteU → VoteU) : (s.modVote f).regs = s.regs := rfl
@[simp] theorem State.modVote_shadow (s : State) (f : VoteU → VoteU) : (s.modVote f).shadow = s.shadow := rfl
@[simp] theorem State.modVote_mem (s : State) (f : VoteU → VoteU) : (s.modVote f).mem = s.mem := rfl
@[simp] theorem State.modVote_tags (s : State) (f : VoteU → VoteU) : (s.modVote f).tags = s.tags := rfl
@[simp] theorem State.modVote_ue (s : State) (f : VoteU → VoteU) : (s.modVote f).ue = s.ue := rfl
@[simp] theorem State.modVote_hostMem (s : State) (f : VoteU → VoteU) : (s.modVote f).hostMem = s.hostMem := rfl
@[simp] theorem State.modVote_subs (s : State) (f : VoteU → VoteU) : (s.modVote f).subs = s.subs := rfl
@[simp] theorem State.modVote_q (s : State) (f : VoteU → VoteU) : (s.modVote f).q = s.q := rfl
@[simp] theorem State.modVote_reaches (s : State) (f : VoteU → VoteU) : (s.modVote f).reaches = s.reaches := rfl
@[simp] theorem State.modVote_pages (s : State) (f : VoteU → VoteU) : (s.modVote f).pages = s.pages := rfl
@[simp] theorem State.modVote_tes (s : State) (f : VoteU → VoteU) : (s.modVote f).tes = s.tes := rfl
@[simp] theorem State.modVote_mig (s : State) (f : VoteU → VoteU) : (s.modVote f).mig = s.mig := rfl
@[simp] theorem State.modVote_disp (s : State) (f : VoteU → VoteU) : (s.modVote f).disp = s.disp := rfl
@[simp] theorem State.modVote_cu (s : State) (f : VoteU → VoteU) : (s.modVote f).cu = s.cu := rfl
@[simp] theorem State.modVote_pins (s : State) (f : VoteU → VoteU) : (s.modVote f).pins = s.pins := rfl
@[simp] theorem State.modVote_banks (s : State) (f : VoteU → VoteU) : (s.modVote f).banks = s.banks := rfl
@[simp] theorem State.modVote_fd (s : State) (f : VoteU → VoteU) : (s.modVote f).fd = s.fd := rfl
@[simp] theorem State.modVote_sluice (s : State) (f : VoteU → VoteU) : (s.modVote f).sluice = s.sluice := rfl
@[simp] theorem State.modVote_ev (s : State) (f : VoteU → VoteU) : (s.modVote f).ev = s.ev := rfl
@[simp] theorem State.modVote_mbx (s : State) (f : VoteU → VoteU) : (s.modVote f).mbx = s.mbx := rfl
@[simp] theorem State.modVote_levee (s : State) (f : VoteU → VoteU) : (s.modVote f).levee = s.levee := rfl
@[simp] theorem State.modVote_weir (s : State) (f : VoteU → VoteU) : (s.modVote f).weir = s.weir := rfl
@[simp] theorem State.modVote_memErrs (s : State) (f : VoteU → VoteU) : (s.modVote f).memErrs = s.memErrs := rfl
@[simp] theorem State.modVote_host (s : State) (f : VoteU → VoteU) : (s.modVote f).host = s.host := rfl
@[simp] theorem State.modVote_cfls (s : State) (f : VoteU → VoteU) : (s.modVote f).cfls = s.cfls := rfl
@[simp] theorem State.modVote_bks (s : State) (f : VoteU → VoteU) : (s.modVote f).bks = s.bks := rfl
@[simp] theorem State.modVote_brook (s : State) (f : VoteU → VoteU) : (s.modVote f).brook = s.brook := rfl
@[simp] theorem State.modVote_silt (s : State) (f : VoteU → VoteU) : (s.modVote f).silt = s.silt := rfl
@[simp] theorem State.modVote_dma (s : State) (f : VoteU → VoteU) : (s.modVote f).dma = s.dma := rfl
@[simp] theorem State.modVote_cores (s : State) (f : VoteU → VoteU) : (s.modVote f).cores = s.cores := rfl
@[simp] theorem State.modVote_scS (s : State) (f : VoteU → VoteU) : (s.modVote f).scS = s.scS := rfl
@[simp] theorem State.modVote_scV (s : State) (f : VoteU → VoteU) : (s.modVote f).scV = s.scV := rfl
@[simp] theorem State.modVote_mon (s : State) (f : VoteU → VoteU) : (s.modVote f).mon = s.mon := rfl
@[simp] theorem State.modVote_boot (s : State) (f : VoteU → VoteU) : (s.modVote f).boot = s.boot := rfl
@[simp] theorem State.modVote_fuses (s : State) (f : VoteU → VoteU) : (s.modVote f).fuses = s.fuses := rfl
@[simp] theorem State.modVote_supply (s : State) (f : VoteU → VoteU) : (s.modVote f).supply = s.supply := rfl
@[simp] theorem State.modVote_vote (s : State) (f : VoteU → VoteU) : (s.modVote f).vote = f s.vote := rfl
@[simp] theorem State.modCfl_pending (s : State) (k : Nat) (f : Cfl → Cfl) : (s.modCfl k f).pending = s.pending := rfl
@[simp] theorem State.modCfl_ans (s : State) (k : Nat) (f : Cfl → Cfl) : (s.modCfl k f).ans = s.ans := rfl
@[simp] theorem State.modCfl_posted (s : State) (k : Nat) (f : Cfl → Cfl) : (s.modCfl k f).posted = s.posted := rfl
@[simp] theorem State.modCfl_freeCtr (s : State) (k : Nat) (f : Cfl → Cfl) : (s.modCfl k f).freeCtr = s.freeCtr := rfl
@[simp] theorem State.modCfl_now (s : State) (k : Nat) (f : Cfl → Cfl) : (s.modCfl k f).now = s.now := rfl
@[simp] theorem State.modCfl_islands (s : State) (k : Nat) (f : Cfl → Cfl) : (s.modCfl k f).islands = s.islands := rfl
@[simp] theorem State.modCfl_latch (s : State) (k : Nat) (f : Cfl → Cfl) : (s.modCfl k f).latch = s.latch := rfl
@[simp] theorem State.modCfl_regs (s : State) (k : Nat) (f : Cfl → Cfl) : (s.modCfl k f).regs = s.regs := rfl
@[simp] theorem State.modCfl_shadow (s : State) (k : Nat) (f : Cfl → Cfl) : (s.modCfl k f).shadow = s.shadow := rfl
@[simp] theorem State.modCfl_mem (s : State) (k : Nat) (f : Cfl → Cfl) : (s.modCfl k f).mem = s.mem := rfl
@[simp] theorem State.modCfl_tags (s : State) (k : Nat) (f : Cfl → Cfl) : (s.modCfl k f).tags = s.tags := rfl
@[simp] theorem State.modCfl_ue (s : State) (k : Nat) (f : Cfl → Cfl) : (s.modCfl k f).ue = s.ue := rfl
@[simp] theorem State.modCfl_hostMem (s : State) (k : Nat) (f : Cfl → Cfl) : (s.modCfl k f).hostMem = s.hostMem := rfl
@[simp] theorem State.modCfl_subs (s : State) (k : Nat) (f : Cfl → Cfl) : (s.modCfl k f).subs = s.subs := rfl
@[simp] theorem State.modCfl_q (s : State) (k : Nat) (f : Cfl → Cfl) : (s.modCfl k f).q = s.q := rfl
@[simp] theorem State.modCfl_reaches (s : State) (k : Nat) (f : Cfl → Cfl) : (s.modCfl k f).reaches = s.reaches := rfl
@[simp] theorem State.modCfl_pages (s : State) (k : Nat) (f : Cfl → Cfl) : (s.modCfl k f).pages = s.pages := rfl
@[simp] theorem State.modCfl_tes (s : State) (k : Nat) (f : Cfl → Cfl) : (s.modCfl k f).tes = s.tes := rfl
@[simp] theorem State.modCfl_mig (s : State) (k : Nat) (f : Cfl → Cfl) : (s.modCfl k f).mig = s.mig := rfl
@[simp] theorem State.modCfl_disp (s : State) (k : Nat) (f : Cfl → Cfl) : (s.modCfl k f).disp = s.disp := rfl
@[simp] theorem State.modCfl_cu (s : State) (k : Nat) (f : Cfl → Cfl) : (s.modCfl k f).cu = s.cu := rfl
@[simp] theorem State.modCfl_pins (s : State) (k : Nat) (f : Cfl → Cfl) : (s.modCfl k f).pins = s.pins := rfl
@[simp] theorem State.modCfl_banks (s : State) (k : Nat) (f : Cfl → Cfl) : (s.modCfl k f).banks = s.banks := rfl
@[simp] theorem State.modCfl_fd (s : State) (k : Nat) (f : Cfl → Cfl) : (s.modCfl k f).fd = s.fd := rfl
@[simp] theorem State.modCfl_sluice (s : State) (k : Nat) (f : Cfl → Cfl) : (s.modCfl k f).sluice = s.sluice := rfl
@[simp] theorem State.modCfl_ev (s : State) (k : Nat) (f : Cfl → Cfl) : (s.modCfl k f).ev = s.ev := rfl
@[simp] theorem State.modCfl_mbx (s : State) (k : Nat) (f : Cfl → Cfl) : (s.modCfl k f).mbx = s.mbx := rfl
@[simp] theorem State.modCfl_levee (s : State) (k : Nat) (f : Cfl → Cfl) : (s.modCfl k f).levee = s.levee := rfl
@[simp] theorem State.modCfl_weir (s : State) (k : Nat) (f : Cfl → Cfl) : (s.modCfl k f).weir = s.weir := rfl
@[simp] theorem State.modCfl_memErrs (s : State) (k : Nat) (f : Cfl → Cfl) : (s.modCfl k f).memErrs = s.memErrs := rfl
@[simp] theorem State.modCfl_host (s : State) (k : Nat) (f : Cfl → Cfl) : (s.modCfl k f).host = s.host := rfl
@[simp] theorem State.modCfl_vote (s : State) (k : Nat) (f : Cfl → Cfl) : (s.modCfl k f).vote = s.vote := rfl
@[simp] theorem State.modCfl_bks (s : State) (k : Nat) (f : Cfl → Cfl) : (s.modCfl k f).bks = s.bks := rfl
@[simp] theorem State.modCfl_brook (s : State) (k : Nat) (f : Cfl → Cfl) : (s.modCfl k f).brook = s.brook := rfl
@[simp] theorem State.modCfl_silt (s : State) (k : Nat) (f : Cfl → Cfl) : (s.modCfl k f).silt = s.silt := rfl
@[simp] theorem State.modCfl_dma (s : State) (k : Nat) (f : Cfl → Cfl) : (s.modCfl k f).dma = s.dma := rfl
@[simp] theorem State.modCfl_cores (s : State) (k : Nat) (f : Cfl → Cfl) : (s.modCfl k f).cores = s.cores := rfl
@[simp] theorem State.modCfl_scS (s : State) (k : Nat) (f : Cfl → Cfl) : (s.modCfl k f).scS = s.scS := rfl
@[simp] theorem State.modCfl_scV (s : State) (k : Nat) (f : Cfl → Cfl) : (s.modCfl k f).scV = s.scV := rfl
@[simp] theorem State.modCfl_mon (s : State) (k : Nat) (f : Cfl → Cfl) : (s.modCfl k f).mon = s.mon := rfl
@[simp] theorem State.modCfl_boot (s : State) (k : Nat) (f : Cfl → Cfl) : (s.modCfl k f).boot = s.boot := rfl
@[simp] theorem State.modCfl_fuses (s : State) (k : Nat) (f : Cfl → Cfl) : (s.modCfl k f).fuses = s.fuses := rfl
@[simp] theorem State.modCfl_supply (s : State) (k : Nat) (f : Cfl → Cfl) : (s.modCfl k f).supply = s.supply := rfl
@[simp] theorem State.modBk_pending (s : State) (k : Nat) (f : Brook → Brook) : (s.modBk k f).pending = s.pending := rfl
@[simp] theorem State.modBk_ans (s : State) (k : Nat) (f : Brook → Brook) : (s.modBk k f).ans = s.ans := rfl
@[simp] theorem State.modBk_posted (s : State) (k : Nat) (f : Brook → Brook) : (s.modBk k f).posted = s.posted := rfl
@[simp] theorem State.modBk_freeCtr (s : State) (k : Nat) (f : Brook → Brook) : (s.modBk k f).freeCtr = s.freeCtr := rfl
@[simp] theorem State.modBk_now (s : State) (k : Nat) (f : Brook → Brook) : (s.modBk k f).now = s.now := rfl
@[simp] theorem State.modBk_islands (s : State) (k : Nat) (f : Brook → Brook) : (s.modBk k f).islands = s.islands := rfl
@[simp] theorem State.modBk_latch (s : State) (k : Nat) (f : Brook → Brook) : (s.modBk k f).latch = s.latch := rfl
@[simp] theorem State.modBk_regs (s : State) (k : Nat) (f : Brook → Brook) : (s.modBk k f).regs = s.regs := rfl
@[simp] theorem State.modBk_shadow (s : State) (k : Nat) (f : Brook → Brook) : (s.modBk k f).shadow = s.shadow := rfl
@[simp] theorem State.modBk_mem (s : State) (k : Nat) (f : Brook → Brook) : (s.modBk k f).mem = s.mem := rfl
@[simp] theorem State.modBk_tags (s : State) (k : Nat) (f : Brook → Brook) : (s.modBk k f).tags = s.tags := rfl
@[simp] theorem State.modBk_ue (s : State) (k : Nat) (f : Brook → Brook) : (s.modBk k f).ue = s.ue := rfl
@[simp] theorem State.modBk_hostMem (s : State) (k : Nat) (f : Brook → Brook) : (s.modBk k f).hostMem = s.hostMem := rfl
@[simp] theorem State.modBk_subs (s : State) (k : Nat) (f : Brook → Brook) : (s.modBk k f).subs = s.subs := rfl
@[simp] theorem State.modBk_q (s : State) (k : Nat) (f : Brook → Brook) : (s.modBk k f).q = s.q := rfl
@[simp] theorem State.modBk_reaches (s : State) (k : Nat) (f : Brook → Brook) : (s.modBk k f).reaches = s.reaches := rfl
@[simp] theorem State.modBk_pages (s : State) (k : Nat) (f : Brook → Brook) : (s.modBk k f).pages = s.pages := rfl
@[simp] theorem State.modBk_tes (s : State) (k : Nat) (f : Brook → Brook) : (s.modBk k f).tes = s.tes := rfl
@[simp] theorem State.modBk_mig (s : State) (k : Nat) (f : Brook → Brook) : (s.modBk k f).mig = s.mig := rfl
@[simp] theorem State.modBk_disp (s : State) (k : Nat) (f : Brook → Brook) : (s.modBk k f).disp = s.disp := rfl
@[simp] theorem State.modBk_cu (s : State) (k : Nat) (f : Brook → Brook) : (s.modBk k f).cu = s.cu := rfl
@[simp] theorem State.modBk_pins (s : State) (k : Nat) (f : Brook → Brook) : (s.modBk k f).pins = s.pins := rfl
@[simp] theorem State.modBk_banks (s : State) (k : Nat) (f : Brook → Brook) : (s.modBk k f).banks = s.banks := rfl
@[simp] theorem State.modBk_fd (s : State) (k : Nat) (f : Brook → Brook) : (s.modBk k f).fd = s.fd := rfl
@[simp] theorem State.modBk_sluice (s : State) (k : Nat) (f : Brook → Brook) : (s.modBk k f).sluice = s.sluice := rfl
@[simp] theorem State.modBk_ev (s : State) (k : Nat) (f : Brook → Brook) : (s.modBk k f).ev = s.ev := rfl
@[simp] theorem State.modBk_mbx (s : State) (k : Nat) (f : Brook → Brook) : (s.modBk k f).mbx = s.mbx := rfl
@[simp] theorem State.modBk_levee (s : State) (k : Nat) (f : Brook → Brook) : (s.modBk k f).levee = s.levee := rfl
@[simp] theorem State.modBk_weir (s : State) (k : Nat) (f : Brook → Brook) : (s.modBk k f).weir = s.weir := rfl
@[simp] theorem State.modBk_memErrs (s : State) (k : Nat) (f : Brook → Brook) : (s.modBk k f).memErrs = s.memErrs := rfl
@[simp] theorem State.modBk_host (s : State) (k : Nat) (f : Brook → Brook) : (s.modBk k f).host = s.host := rfl
@[simp] theorem State.modBk_cfls (s : State) (k : Nat) (f : Brook → Brook) : (s.modBk k f).cfls = s.cfls := rfl
@[simp] theorem State.modBk_vote (s : State) (k : Nat) (f : Brook → Brook) : (s.modBk k f).vote = s.vote := rfl
@[simp] theorem State.modBk_brook (s : State) (k : Nat) (f : Brook → Brook) : (s.modBk k f).brook = s.brook := rfl
@[simp] theorem State.modBk_silt (s : State) (k : Nat) (f : Brook → Brook) : (s.modBk k f).silt = s.silt := rfl
@[simp] theorem State.modBk_dma (s : State) (k : Nat) (f : Brook → Brook) : (s.modBk k f).dma = s.dma := rfl
@[simp] theorem State.modBk_cores (s : State) (k : Nat) (f : Brook → Brook) : (s.modBk k f).cores = s.cores := rfl
@[simp] theorem State.modBk_scS (s : State) (k : Nat) (f : Brook → Brook) : (s.modBk k f).scS = s.scS := rfl
@[simp] theorem State.modBk_scV (s : State) (k : Nat) (f : Brook → Brook) : (s.modBk k f).scV = s.scV := rfl
@[simp] theorem State.modBk_mon (s : State) (k : Nat) (f : Brook → Brook) : (s.modBk k f).mon = s.mon := rfl
@[simp] theorem State.modBk_boot (s : State) (k : Nat) (f : Brook → Brook) : (s.modBk k f).boot = s.boot := rfl
@[simp] theorem State.modBk_fuses (s : State) (k : Nat) (f : Brook → Brook) : (s.modBk k f).fuses = s.fuses := rfl
@[simp] theorem State.modBk_supply (s : State) (k : Nat) (f : Brook → Brook) : (s.modBk k f).supply = s.supply := rfl
@[simp] theorem State.modHost_pending (s : State) (f : HostPort → HostPort) : (s.modHost f).pending = s.pending := rfl
@[simp] theorem State.modHost_ans (s : State) (f : HostPort → HostPort) : (s.modHost f).ans = s.ans := rfl
@[simp] theorem State.modHost_posted (s : State) (f : HostPort → HostPort) : (s.modHost f).posted = s.posted := rfl
@[simp] theorem State.modHost_freeCtr (s : State) (f : HostPort → HostPort) : (s.modHost f).freeCtr = s.freeCtr := rfl
@[simp] theorem State.modHost_now (s : State) (f : HostPort → HostPort) : (s.modHost f).now = s.now := rfl
@[simp] theorem State.modHost_islands (s : State) (f : HostPort → HostPort) : (s.modHost f).islands = s.islands := rfl
@[simp] theorem State.modHost_latch (s : State) (f : HostPort → HostPort) : (s.modHost f).latch = s.latch := rfl
@[simp] theorem State.modHost_regs (s : State) (f : HostPort → HostPort) : (s.modHost f).regs = s.regs := rfl
@[simp] theorem State.modHost_shadow (s : State) (f : HostPort → HostPort) : (s.modHost f).shadow = s.shadow := rfl
@[simp] theorem State.modHost_mem (s : State) (f : HostPort → HostPort) : (s.modHost f).mem = s.mem := rfl
@[simp] theorem State.modHost_tags (s : State) (f : HostPort → HostPort) : (s.modHost f).tags = s.tags := rfl
@[simp] theorem State.modHost_ue (s : State) (f : HostPort → HostPort) : (s.modHost f).ue = s.ue := rfl
@[simp] theorem State.modHost_hostMem (s : State) (f : HostPort → HostPort) : (s.modHost f).hostMem = s.hostMem := rfl
@[simp] theorem State.modHost_subs (s : State) (f : HostPort → HostPort) : (s.modHost f).subs = s.subs := rfl
@[simp] theorem State.modHost_q (s : State) (f : HostPort → HostPort) : (s.modHost f).q = s.q := rfl
@[simp] theorem State.modHost_reaches (s : State) (f : HostPort → HostPort) : (s.modHost f).reaches = s.reaches := rfl
@[simp] theorem State.modHost_pages (s : State) (f : HostPort → HostPort) : (s.modHost f).pages = s.pages := rfl
@[simp] theorem State.modHost_tes (s : State) (f : HostPort → HostPort) : (s.modHost f).tes = s.tes := rfl
@[simp] theorem State.modHost_mig (s : State) (f : HostPort → HostPort) : (s.modHost f).mig = s.mig := rfl
@[simp] theorem State.modHost_disp (s : State) (f : HostPort → HostPort) : (s.modHost f).disp = s.disp := rfl
@[simp] theorem State.modHost_cu (s : State) (f : HostPort → HostPort) : (s.modHost f).cu = s.cu := rfl
@[simp] theorem State.modHost_pins (s : State) (f : HostPort → HostPort) : (s.modHost f).pins = s.pins := rfl
@[simp] theorem State.modHost_banks (s : State) (f : HostPort → HostPort) : (s.modHost f).banks = s.banks := rfl
@[simp] theorem State.modHost_fd (s : State) (f : HostPort → HostPort) : (s.modHost f).fd = s.fd := rfl
@[simp] theorem State.modHost_sluice (s : State) (f : HostPort → HostPort) : (s.modHost f).sluice = s.sluice := rfl
@[simp] theorem State.modHost_ev (s : State) (f : HostPort → HostPort) : (s.modHost f).ev = s.ev := rfl
@[simp] theorem State.modHost_mbx (s : State) (f : HostPort → HostPort) : (s.modHost f).mbx = s.mbx := rfl
@[simp] theorem State.modHost_levee (s : State) (f : HostPort → HostPort) : (s.modHost f).levee = s.levee := rfl
@[simp] theorem State.modHost_weir (s : State) (f : HostPort → HostPort) : (s.modHost f).weir = s.weir := rfl
@[simp] theorem State.modHost_memErrs (s : State) (f : HostPort → HostPort) : (s.modHost f).memErrs = s.memErrs := rfl
@[simp] theorem State.modHost_cfls (s : State) (f : HostPort → HostPort) : (s.modHost f).cfls = s.cfls := rfl
@[simp] theorem State.modHost_vote (s : State) (f : HostPort → HostPort) : (s.modHost f).vote = s.vote := rfl
@[simp] theorem State.modHost_bks (s : State) (f : HostPort → HostPort) : (s.modHost f).bks = s.bks := rfl
@[simp] theorem State.modHost_brook (s : State) (f : HostPort → HostPort) : (s.modHost f).brook = s.brook := rfl
@[simp] theorem State.modHost_silt (s : State) (f : HostPort → HostPort) : (s.modHost f).silt = s.silt := rfl
@[simp] theorem State.modHost_dma (s : State) (f : HostPort → HostPort) : (s.modHost f).dma = s.dma := rfl
@[simp] theorem State.modHost_cores (s : State) (f : HostPort → HostPort) : (s.modHost f).cores = s.cores := rfl
@[simp] theorem State.modHost_scS (s : State) (f : HostPort → HostPort) : (s.modHost f).scS = s.scS := rfl
@[simp] theorem State.modHost_scV (s : State) (f : HostPort → HostPort) : (s.modHost f).scV = s.scV := rfl
@[simp] theorem State.modHost_mon (s : State) (f : HostPort → HostPort) : (s.modHost f).mon = s.mon := rfl
@[simp] theorem State.modHost_boot (s : State) (f : HostPort → HostPort) : (s.modHost f).boot = s.boot := rfl
@[simp] theorem State.modHost_fuses (s : State) (f : HostPort → HostPort) : (s.modHost f).fuses = s.fuses := rfl
@[simp] theorem State.modHost_supply (s : State) (f : HostPort → HostPort) : (s.modHost f).supply = s.supply := rfl
@[simp] theorem State.modHost_host (s : State) (f : HostPort → HostPort) : (s.modHost f).host = f s.host := rfl
@[simp] theorem State.modHostFn_pending (s : State) (f : Nat) (g : HostFn → HostFn) : (s.modHostFn f g).pending = s.pending := rfl
@[simp] theorem State.modHostFn_ans (s : State) (f : Nat) (g : HostFn → HostFn) : (s.modHostFn f g).ans = s.ans := rfl
@[simp] theorem State.modHostFn_posted (s : State) (f : Nat) (g : HostFn → HostFn) : (s.modHostFn f g).posted = s.posted := rfl
@[simp] theorem State.modHostFn_freeCtr (s : State) (f : Nat) (g : HostFn → HostFn) : (s.modHostFn f g).freeCtr = s.freeCtr := rfl
@[simp] theorem State.modHostFn_now (s : State) (f : Nat) (g : HostFn → HostFn) : (s.modHostFn f g).now = s.now := rfl
@[simp] theorem State.modHostFn_islands (s : State) (f : Nat) (g : HostFn → HostFn) : (s.modHostFn f g).islands = s.islands := rfl
@[simp] theorem State.modHostFn_latch (s : State) (f : Nat) (g : HostFn → HostFn) : (s.modHostFn f g).latch = s.latch := rfl
@[simp] theorem State.modHostFn_regs (s : State) (f : Nat) (g : HostFn → HostFn) : (s.modHostFn f g).regs = s.regs := rfl
@[simp] theorem State.modHostFn_shadow (s : State) (f : Nat) (g : HostFn → HostFn) : (s.modHostFn f g).shadow = s.shadow := rfl
@[simp] theorem State.modHostFn_mem (s : State) (f : Nat) (g : HostFn → HostFn) : (s.modHostFn f g).mem = s.mem := rfl
@[simp] theorem State.modHostFn_tags (s : State) (f : Nat) (g : HostFn → HostFn) : (s.modHostFn f g).tags = s.tags := rfl
@[simp] theorem State.modHostFn_ue (s : State) (f : Nat) (g : HostFn → HostFn) : (s.modHostFn f g).ue = s.ue := rfl
@[simp] theorem State.modHostFn_hostMem (s : State) (f : Nat) (g : HostFn → HostFn) : (s.modHostFn f g).hostMem = s.hostMem := rfl
@[simp] theorem State.modHostFn_subs (s : State) (f : Nat) (g : HostFn → HostFn) : (s.modHostFn f g).subs = s.subs := rfl
@[simp] theorem State.modHostFn_q (s : State) (f : Nat) (g : HostFn → HostFn) : (s.modHostFn f g).q = s.q := rfl
@[simp] theorem State.modHostFn_reaches (s : State) (f : Nat) (g : HostFn → HostFn) : (s.modHostFn f g).reaches = s.reaches := rfl
@[simp] theorem State.modHostFn_pages (s : State) (f : Nat) (g : HostFn → HostFn) : (s.modHostFn f g).pages = s.pages := rfl
@[simp] theorem State.modHostFn_tes (s : State) (f : Nat) (g : HostFn → HostFn) : (s.modHostFn f g).tes = s.tes := rfl
@[simp] theorem State.modHostFn_mig (s : State) (f : Nat) (g : HostFn → HostFn) : (s.modHostFn f g).mig = s.mig := rfl
@[simp] theorem State.modHostFn_disp (s : State) (f : Nat) (g : HostFn → HostFn) : (s.modHostFn f g).disp = s.disp := rfl
@[simp] theorem State.modHostFn_cu (s : State) (f : Nat) (g : HostFn → HostFn) : (s.modHostFn f g).cu = s.cu := rfl
@[simp] theorem State.modHostFn_pins (s : State) (f : Nat) (g : HostFn → HostFn) : (s.modHostFn f g).pins = s.pins := rfl
@[simp] theorem State.modHostFn_banks (s : State) (f : Nat) (g : HostFn → HostFn) : (s.modHostFn f g).banks = s.banks := rfl
@[simp] theorem State.modHostFn_fd (s : State) (f : Nat) (g : HostFn → HostFn) : (s.modHostFn f g).fd = s.fd := rfl
@[simp] theorem State.modHostFn_sluice (s : State) (f : Nat) (g : HostFn → HostFn) : (s.modHostFn f g).sluice = s.sluice := rfl
@[simp] theorem State.modHostFn_ev (s : State) (f : Nat) (g : HostFn → HostFn) : (s.modHostFn f g).ev = s.ev := rfl
@[simp] theorem State.modHostFn_mbx (s : State) (f : Nat) (g : HostFn → HostFn) : (s.modHostFn f g).mbx = s.mbx := rfl
@[simp] theorem State.modHostFn_levee (s : State) (f : Nat) (g : HostFn → HostFn) : (s.modHostFn f g).levee = s.levee := rfl
@[simp] theorem State.modHostFn_weir (s : State) (f : Nat) (g : HostFn → HostFn) : (s.modHostFn f g).weir = s.weir := rfl
@[simp] theorem State.modHostFn_memErrs (s : State) (f : Nat) (g : HostFn → HostFn) : (s.modHostFn f g).memErrs = s.memErrs := rfl
@[simp] theorem State.modHostFn_cfls (s : State) (f : Nat) (g : HostFn → HostFn) : (s.modHostFn f g).cfls = s.cfls := rfl
@[simp] theorem State.modHostFn_vote (s : State) (f : Nat) (g : HostFn → HostFn) : (s.modHostFn f g).vote = s.vote := rfl
@[simp] theorem State.modHostFn_bks (s : State) (f : Nat) (g : HostFn → HostFn) : (s.modHostFn f g).bks = s.bks := rfl
@[simp] theorem State.modHostFn_brook (s : State) (f : Nat) (g : HostFn → HostFn) : (s.modHostFn f g).brook = s.brook := rfl
@[simp] theorem State.modHostFn_silt (s : State) (f : Nat) (g : HostFn → HostFn) : (s.modHostFn f g).silt = s.silt := rfl
@[simp] theorem State.modHostFn_dma (s : State) (f : Nat) (g : HostFn → HostFn) : (s.modHostFn f g).dma = s.dma := rfl
@[simp] theorem State.modHostFn_cores (s : State) (f : Nat) (g : HostFn → HostFn) : (s.modHostFn f g).cores = s.cores := rfl
@[simp] theorem State.modHostFn_scS (s : State) (f : Nat) (g : HostFn → HostFn) : (s.modHostFn f g).scS = s.scS := rfl
@[simp] theorem State.modHostFn_scV (s : State) (f : Nat) (g : HostFn → HostFn) : (s.modHostFn f g).scV = s.scV := rfl
@[simp] theorem State.modHostFn_mon (s : State) (f : Nat) (g : HostFn → HostFn) : (s.modHostFn f g).mon = s.mon := rfl
@[simp] theorem State.modHostFn_boot (s : State) (f : Nat) (g : HostFn → HostFn) : (s.modHostFn f g).boot = s.boot := rfl
@[simp] theorem State.modHostFn_fuses (s : State) (f : Nat) (g : HostFn → HostFn) : (s.modHostFn f g).fuses = s.fuses := rfl
@[simp] theorem State.modHostFn_supply (s : State) (f : Nat) (g : HostFn → HostFn) : (s.modHostFn f g).supply = s.supply := rfl
@[simp] theorem State.modEv_pending (s : State) (f : Events → Events) : (s.modEv f).pending = s.pending := rfl
@[simp] theorem State.modEv_ans (s : State) (f : Events → Events) : (s.modEv f).ans = s.ans := rfl
@[simp] theorem State.modEv_posted (s : State) (f : Events → Events) : (s.modEv f).posted = s.posted := rfl
@[simp] theorem State.modEv_freeCtr (s : State) (f : Events → Events) : (s.modEv f).freeCtr = s.freeCtr := rfl
@[simp] theorem State.modEv_now (s : State) (f : Events → Events) : (s.modEv f).now = s.now := rfl
@[simp] theorem State.modEv_islands (s : State) (f : Events → Events) : (s.modEv f).islands = s.islands := rfl
@[simp] theorem State.modEv_latch (s : State) (f : Events → Events) : (s.modEv f).latch = s.latch := rfl
@[simp] theorem State.modEv_regs (s : State) (f : Events → Events) : (s.modEv f).regs = s.regs := rfl
@[simp] theorem State.modEv_shadow (s : State) (f : Events → Events) : (s.modEv f).shadow = s.shadow := rfl
@[simp] theorem State.modEv_mem (s : State) (f : Events → Events) : (s.modEv f).mem = s.mem := rfl
@[simp] theorem State.modEv_tags (s : State) (f : Events → Events) : (s.modEv f).tags = s.tags := rfl
@[simp] theorem State.modEv_ue (s : State) (f : Events → Events) : (s.modEv f).ue = s.ue := rfl
@[simp] theorem State.modEv_hostMem (s : State) (f : Events → Events) : (s.modEv f).hostMem = s.hostMem := rfl
@[simp] theorem State.modEv_subs (s : State) (f : Events → Events) : (s.modEv f).subs = s.subs := rfl
@[simp] theorem State.modEv_q (s : State) (f : Events → Events) : (s.modEv f).q = s.q := rfl
@[simp] theorem State.modEv_reaches (s : State) (f : Events → Events) : (s.modEv f).reaches = s.reaches := rfl
@[simp] theorem State.modEv_pages (s : State) (f : Events → Events) : (s.modEv f).pages = s.pages := rfl
@[simp] theorem State.modEv_tes (s : State) (f : Events → Events) : (s.modEv f).tes = s.tes := rfl
@[simp] theorem State.modEv_mig (s : State) (f : Events → Events) : (s.modEv f).mig = s.mig := rfl
@[simp] theorem State.modEv_disp (s : State) (f : Events → Events) : (s.modEv f).disp = s.disp := rfl
@[simp] theorem State.modEv_cu (s : State) (f : Events → Events) : (s.modEv f).cu = s.cu := rfl
@[simp] theorem State.modEv_pins (s : State) (f : Events → Events) : (s.modEv f).pins = s.pins := rfl
@[simp] theorem State.modEv_banks (s : State) (f : Events → Events) : (s.modEv f).banks = s.banks := rfl
@[simp] theorem State.modEv_fd (s : State) (f : Events → Events) : (s.modEv f).fd = s.fd := rfl
@[simp] theorem State.modEv_sluice (s : State) (f : Events → Events) : (s.modEv f).sluice = s.sluice := rfl
@[simp] theorem State.modEv_mbx (s : State) (f : Events → Events) : (s.modEv f).mbx = s.mbx := rfl
@[simp] theorem State.modEv_levee (s : State) (f : Events → Events) : (s.modEv f).levee = s.levee := rfl
@[simp] theorem State.modEv_weir (s : State) (f : Events → Events) : (s.modEv f).weir = s.weir := rfl
@[simp] theorem State.modEv_memErrs (s : State) (f : Events → Events) : (s.modEv f).memErrs = s.memErrs := rfl
@[simp] theorem State.modEv_host (s : State) (f : Events → Events) : (s.modEv f).host = s.host := rfl
@[simp] theorem State.modEv_cfls (s : State) (f : Events → Events) : (s.modEv f).cfls = s.cfls := rfl
@[simp] theorem State.modEv_vote (s : State) (f : Events → Events) : (s.modEv f).vote = s.vote := rfl
@[simp] theorem State.modEv_bks (s : State) (f : Events → Events) : (s.modEv f).bks = s.bks := rfl
@[simp] theorem State.modEv_brook (s : State) (f : Events → Events) : (s.modEv f).brook = s.brook := rfl
@[simp] theorem State.modEv_silt (s : State) (f : Events → Events) : (s.modEv f).silt = s.silt := rfl
@[simp] theorem State.modEv_dma (s : State) (f : Events → Events) : (s.modEv f).dma = s.dma := rfl
@[simp] theorem State.modEv_cores (s : State) (f : Events → Events) : (s.modEv f).cores = s.cores := rfl
@[simp] theorem State.modEv_scS (s : State) (f : Events → Events) : (s.modEv f).scS = s.scS := rfl
@[simp] theorem State.modEv_scV (s : State) (f : Events → Events) : (s.modEv f).scV = s.scV := rfl
@[simp] theorem State.modEv_mon (s : State) (f : Events → Events) : (s.modEv f).mon = s.mon := rfl
@[simp] theorem State.modEv_boot (s : State) (f : Events → Events) : (s.modEv f).boot = s.boot := rfl
@[simp] theorem State.modEv_fuses (s : State) (f : Events → Events) : (s.modEv f).fuses = s.fuses := rfl
@[simp] theorem State.modEv_supply (s : State) (f : Events → Events) : (s.modEv f).supply = s.supply := rfl
@[simp] theorem State.modEv_ev (s : State) (f : Events → Events) : (s.modEv f).ev = f s.ev := rfl
@[simp] theorem State.modLevee_pending (s : State) (f : Levee → Levee) : (s.modLevee f).pending = s.pending := rfl
@[simp] theorem State.modLevee_ans (s : State) (f : Levee → Levee) : (s.modLevee f).ans = s.ans := rfl
@[simp] theorem State.modLevee_posted (s : State) (f : Levee → Levee) : (s.modLevee f).posted = s.posted := rfl
@[simp] theorem State.modLevee_freeCtr (s : State) (f : Levee → Levee) : (s.modLevee f).freeCtr = s.freeCtr := rfl
@[simp] theorem State.modLevee_now (s : State) (f : Levee → Levee) : (s.modLevee f).now = s.now := rfl
@[simp] theorem State.modLevee_islands (s : State) (f : Levee → Levee) : (s.modLevee f).islands = s.islands := rfl
@[simp] theorem State.modLevee_latch (s : State) (f : Levee → Levee) : (s.modLevee f).latch = s.latch := rfl
@[simp] theorem State.modLevee_regs (s : State) (f : Levee → Levee) : (s.modLevee f).regs = s.regs := rfl
@[simp] theorem State.modLevee_shadow (s : State) (f : Levee → Levee) : (s.modLevee f).shadow = s.shadow := rfl
@[simp] theorem State.modLevee_mem (s : State) (f : Levee → Levee) : (s.modLevee f).mem = s.mem := rfl
@[simp] theorem State.modLevee_tags (s : State) (f : Levee → Levee) : (s.modLevee f).tags = s.tags := rfl
@[simp] theorem State.modLevee_ue (s : State) (f : Levee → Levee) : (s.modLevee f).ue = s.ue := rfl
@[simp] theorem State.modLevee_hostMem (s : State) (f : Levee → Levee) : (s.modLevee f).hostMem = s.hostMem := rfl
@[simp] theorem State.modLevee_subs (s : State) (f : Levee → Levee) : (s.modLevee f).subs = s.subs := rfl
@[simp] theorem State.modLevee_q (s : State) (f : Levee → Levee) : (s.modLevee f).q = s.q := rfl
@[simp] theorem State.modLevee_reaches (s : State) (f : Levee → Levee) : (s.modLevee f).reaches = s.reaches := rfl
@[simp] theorem State.modLevee_pages (s : State) (f : Levee → Levee) : (s.modLevee f).pages = s.pages := rfl
@[simp] theorem State.modLevee_tes (s : State) (f : Levee → Levee) : (s.modLevee f).tes = s.tes := rfl
@[simp] theorem State.modLevee_mig (s : State) (f : Levee → Levee) : (s.modLevee f).mig = s.mig := rfl
@[simp] theorem State.modLevee_disp (s : State) (f : Levee → Levee) : (s.modLevee f).disp = s.disp := rfl
@[simp] theorem State.modLevee_cu (s : State) (f : Levee → Levee) : (s.modLevee f).cu = s.cu := rfl
@[simp] theorem State.modLevee_pins (s : State) (f : Levee → Levee) : (s.modLevee f).pins = s.pins := rfl
@[simp] theorem State.modLevee_banks (s : State) (f : Levee → Levee) : (s.modLevee f).banks = s.banks := rfl
@[simp] theorem State.modLevee_fd (s : State) (f : Levee → Levee) : (s.modLevee f).fd = s.fd := rfl
@[simp] theorem State.modLevee_sluice (s : State) (f : Levee → Levee) : (s.modLevee f).sluice = s.sluice := rfl
@[simp] theorem State.modLevee_ev (s : State) (f : Levee → Levee) : (s.modLevee f).ev = s.ev := rfl
@[simp] theorem State.modLevee_mbx (s : State) (f : Levee → Levee) : (s.modLevee f).mbx = s.mbx := rfl
@[simp] theorem State.modLevee_weir (s : State) (f : Levee → Levee) : (s.modLevee f).weir = s.weir := rfl
@[simp] theorem State.modLevee_memErrs (s : State) (f : Levee → Levee) : (s.modLevee f).memErrs = s.memErrs := rfl
@[simp] theorem State.modLevee_host (s : State) (f : Levee → Levee) : (s.modLevee f).host = s.host := rfl
@[simp] theorem State.modLevee_cfls (s : State) (f : Levee → Levee) : (s.modLevee f).cfls = s.cfls := rfl
@[simp] theorem State.modLevee_vote (s : State) (f : Levee → Levee) : (s.modLevee f).vote = s.vote := rfl
@[simp] theorem State.modLevee_bks (s : State) (f : Levee → Levee) : (s.modLevee f).bks = s.bks := rfl
@[simp] theorem State.modLevee_brook (s : State) (f : Levee → Levee) : (s.modLevee f).brook = s.brook := rfl
@[simp] theorem State.modLevee_silt (s : State) (f : Levee → Levee) : (s.modLevee f).silt = s.silt := rfl
@[simp] theorem State.modLevee_dma (s : State) (f : Levee → Levee) : (s.modLevee f).dma = s.dma := rfl
@[simp] theorem State.modLevee_cores (s : State) (f : Levee → Levee) : (s.modLevee f).cores = s.cores := rfl
@[simp] theorem State.modLevee_scS (s : State) (f : Levee → Levee) : (s.modLevee f).scS = s.scS := rfl
@[simp] theorem State.modLevee_scV (s : State) (f : Levee → Levee) : (s.modLevee f).scV = s.scV := rfl
@[simp] theorem State.modLevee_mon (s : State) (f : Levee → Levee) : (s.modLevee f).mon = s.mon := rfl
@[simp] theorem State.modLevee_boot (s : State) (f : Levee → Levee) : (s.modLevee f).boot = s.boot := rfl
@[simp] theorem State.modLevee_fuses (s : State) (f : Levee → Levee) : (s.modLevee f).fuses = s.fuses := rfl
@[simp] theorem State.modLevee_supply (s : State) (f : Levee → Levee) : (s.modLevee f).supply = s.supply := rfl
@[simp] theorem State.modLevee_levee (s : State) (f : Levee → Levee) : (s.modLevee f).levee = f s.levee := rfl
@[simp] theorem State.modWeir_pending (s : State) (f : Weir → Weir) : (s.modWeir f).pending = s.pending := rfl
@[simp] theorem State.modWeir_ans (s : State) (f : Weir → Weir) : (s.modWeir f).ans = s.ans := rfl
@[simp] theorem State.modWeir_posted (s : State) (f : Weir → Weir) : (s.modWeir f).posted = s.posted := rfl
@[simp] theorem State.modWeir_freeCtr (s : State) (f : Weir → Weir) : (s.modWeir f).freeCtr = s.freeCtr := rfl
@[simp] theorem State.modWeir_now (s : State) (f : Weir → Weir) : (s.modWeir f).now = s.now := rfl
@[simp] theorem State.modWeir_islands (s : State) (f : Weir → Weir) : (s.modWeir f).islands = s.islands := rfl
@[simp] theorem State.modWeir_latch (s : State) (f : Weir → Weir) : (s.modWeir f).latch = s.latch := rfl
@[simp] theorem State.modWeir_regs (s : State) (f : Weir → Weir) : (s.modWeir f).regs = s.regs := rfl
@[simp] theorem State.modWeir_shadow (s : State) (f : Weir → Weir) : (s.modWeir f).shadow = s.shadow := rfl
@[simp] theorem State.modWeir_mem (s : State) (f : Weir → Weir) : (s.modWeir f).mem = s.mem := rfl
@[simp] theorem State.modWeir_tags (s : State) (f : Weir → Weir) : (s.modWeir f).tags = s.tags := rfl
@[simp] theorem State.modWeir_ue (s : State) (f : Weir → Weir) : (s.modWeir f).ue = s.ue := rfl
@[simp] theorem State.modWeir_hostMem (s : State) (f : Weir → Weir) : (s.modWeir f).hostMem = s.hostMem := rfl
@[simp] theorem State.modWeir_subs (s : State) (f : Weir → Weir) : (s.modWeir f).subs = s.subs := rfl
@[simp] theorem State.modWeir_q (s : State) (f : Weir → Weir) : (s.modWeir f).q = s.q := rfl
@[simp] theorem State.modWeir_reaches (s : State) (f : Weir → Weir) : (s.modWeir f).reaches = s.reaches := rfl
@[simp] theorem State.modWeir_pages (s : State) (f : Weir → Weir) : (s.modWeir f).pages = s.pages := rfl
@[simp] theorem State.modWeir_tes (s : State) (f : Weir → Weir) : (s.modWeir f).tes = s.tes := rfl
@[simp] theorem State.modWeir_mig (s : State) (f : Weir → Weir) : (s.modWeir f).mig = s.mig := rfl
@[simp] theorem State.modWeir_disp (s : State) (f : Weir → Weir) : (s.modWeir f).disp = s.disp := rfl
@[simp] theorem State.modWeir_cu (s : State) (f : Weir → Weir) : (s.modWeir f).cu = s.cu := rfl
@[simp] theorem State.modWeir_pins (s : State) (f : Weir → Weir) : (s.modWeir f).pins = s.pins := rfl
@[simp] theorem State.modWeir_banks (s : State) (f : Weir → Weir) : (s.modWeir f).banks = s.banks := rfl
@[simp] theorem State.modWeir_fd (s : State) (f : Weir → Weir) : (s.modWeir f).fd = s.fd := rfl
@[simp] theorem State.modWeir_sluice (s : State) (f : Weir → Weir) : (s.modWeir f).sluice = s.sluice := rfl
@[simp] theorem State.modWeir_ev (s : State) (f : Weir → Weir) : (s.modWeir f).ev = s.ev := rfl
@[simp] theorem State.modWeir_mbx (s : State) (f : Weir → Weir) : (s.modWeir f).mbx = s.mbx := rfl
@[simp] theorem State.modWeir_levee (s : State) (f : Weir → Weir) : (s.modWeir f).levee = s.levee := rfl
@[simp] theorem State.modWeir_memErrs (s : State) (f : Weir → Weir) : (s.modWeir f).memErrs = s.memErrs := rfl
@[simp] theorem State.modWeir_host (s : State) (f : Weir → Weir) : (s.modWeir f).host = s.host := rfl
@[simp] theorem State.modWeir_cfls (s : State) (f : Weir → Weir) : (s.modWeir f).cfls = s.cfls := rfl
@[simp] theorem State.modWeir_vote (s : State) (f : Weir → Weir) : (s.modWeir f).vote = s.vote := rfl
@[simp] theorem State.modWeir_bks (s : State) (f : Weir → Weir) : (s.modWeir f).bks = s.bks := rfl
@[simp] theorem State.modWeir_brook (s : State) (f : Weir → Weir) : (s.modWeir f).brook = s.brook := rfl
@[simp] theorem State.modWeir_silt (s : State) (f : Weir → Weir) : (s.modWeir f).silt = s.silt := rfl
@[simp] theorem State.modWeir_dma (s : State) (f : Weir → Weir) : (s.modWeir f).dma = s.dma := rfl
@[simp] theorem State.modWeir_cores (s : State) (f : Weir → Weir) : (s.modWeir f).cores = s.cores := rfl
@[simp] theorem State.modWeir_scS (s : State) (f : Weir → Weir) : (s.modWeir f).scS = s.scS := rfl
@[simp] theorem State.modWeir_scV (s : State) (f : Weir → Weir) : (s.modWeir f).scV = s.scV := rfl
@[simp] theorem State.modWeir_mon (s : State) (f : Weir → Weir) : (s.modWeir f).mon = s.mon := rfl
@[simp] theorem State.modWeir_boot (s : State) (f : Weir → Weir) : (s.modWeir f).boot = s.boot := rfl
@[simp] theorem State.modWeir_fuses (s : State) (f : Weir → Weir) : (s.modWeir f).fuses = s.fuses := rfl
@[simp] theorem State.modWeir_supply (s : State) (f : Weir → Weir) : (s.modWeir f).supply = s.supply := rfl
@[simp] theorem State.modWeir_weir (s : State) (f : Weir → Weir) : (s.modWeir f).weir = f s.weir := rfl
@[simp] theorem State.modMemErrs_pending (s : State) (f : MemErrs → MemErrs) : (s.modMemErrs f).pending = s.pending := rfl
@[simp] theorem State.modMemErrs_ans (s : State) (f : MemErrs → MemErrs) : (s.modMemErrs f).ans = s.ans := rfl
@[simp] theorem State.modMemErrs_posted (s : State) (f : MemErrs → MemErrs) : (s.modMemErrs f).posted = s.posted := rfl
@[simp] theorem State.modMemErrs_freeCtr (s : State) (f : MemErrs → MemErrs) : (s.modMemErrs f).freeCtr = s.freeCtr := rfl
@[simp] theorem State.modMemErrs_now (s : State) (f : MemErrs → MemErrs) : (s.modMemErrs f).now = s.now := rfl
@[simp] theorem State.modMemErrs_islands (s : State) (f : MemErrs → MemErrs) : (s.modMemErrs f).islands = s.islands := rfl
@[simp] theorem State.modMemErrs_latch (s : State) (f : MemErrs → MemErrs) : (s.modMemErrs f).latch = s.latch := rfl
@[simp] theorem State.modMemErrs_regs (s : State) (f : MemErrs → MemErrs) : (s.modMemErrs f).regs = s.regs := rfl
@[simp] theorem State.modMemErrs_shadow (s : State) (f : MemErrs → MemErrs) : (s.modMemErrs f).shadow = s.shadow := rfl
@[simp] theorem State.modMemErrs_mem (s : State) (f : MemErrs → MemErrs) : (s.modMemErrs f).mem = s.mem := rfl
@[simp] theorem State.modMemErrs_tags (s : State) (f : MemErrs → MemErrs) : (s.modMemErrs f).tags = s.tags := rfl
@[simp] theorem State.modMemErrs_ue (s : State) (f : MemErrs → MemErrs) : (s.modMemErrs f).ue = s.ue := rfl
@[simp] theorem State.modMemErrs_hostMem (s : State) (f : MemErrs → MemErrs) : (s.modMemErrs f).hostMem = s.hostMem := rfl
@[simp] theorem State.modMemErrs_subs (s : State) (f : MemErrs → MemErrs) : (s.modMemErrs f).subs = s.subs := rfl
@[simp] theorem State.modMemErrs_q (s : State) (f : MemErrs → MemErrs) : (s.modMemErrs f).q = s.q := rfl
@[simp] theorem State.modMemErrs_reaches (s : State) (f : MemErrs → MemErrs) : (s.modMemErrs f).reaches = s.reaches := rfl
@[simp] theorem State.modMemErrs_pages (s : State) (f : MemErrs → MemErrs) : (s.modMemErrs f).pages = s.pages := rfl
@[simp] theorem State.modMemErrs_tes (s : State) (f : MemErrs → MemErrs) : (s.modMemErrs f).tes = s.tes := rfl
@[simp] theorem State.modMemErrs_mig (s : State) (f : MemErrs → MemErrs) : (s.modMemErrs f).mig = s.mig := rfl
@[simp] theorem State.modMemErrs_disp (s : State) (f : MemErrs → MemErrs) : (s.modMemErrs f).disp = s.disp := rfl
@[simp] theorem State.modMemErrs_cu (s : State) (f : MemErrs → MemErrs) : (s.modMemErrs f).cu = s.cu := rfl
@[simp] theorem State.modMemErrs_pins (s : State) (f : MemErrs → MemErrs) : (s.modMemErrs f).pins = s.pins := rfl
@[simp] theorem State.modMemErrs_banks (s : State) (f : MemErrs → MemErrs) : (s.modMemErrs f).banks = s.banks := rfl
@[simp] theorem State.modMemErrs_fd (s : State) (f : MemErrs → MemErrs) : (s.modMemErrs f).fd = s.fd := rfl
@[simp] theorem State.modMemErrs_sluice (s : State) (f : MemErrs → MemErrs) : (s.modMemErrs f).sluice = s.sluice := rfl
@[simp] theorem State.modMemErrs_ev (s : State) (f : MemErrs → MemErrs) : (s.modMemErrs f).ev = s.ev := rfl
@[simp] theorem State.modMemErrs_mbx (s : State) (f : MemErrs → MemErrs) : (s.modMemErrs f).mbx = s.mbx := rfl
@[simp] theorem State.modMemErrs_levee (s : State) (f : MemErrs → MemErrs) : (s.modMemErrs f).levee = s.levee := rfl
@[simp] theorem State.modMemErrs_weir (s : State) (f : MemErrs → MemErrs) : (s.modMemErrs f).weir = s.weir := rfl
@[simp] theorem State.modMemErrs_host (s : State) (f : MemErrs → MemErrs) : (s.modMemErrs f).host = s.host := rfl
@[simp] theorem State.modMemErrs_cfls (s : State) (f : MemErrs → MemErrs) : (s.modMemErrs f).cfls = s.cfls := rfl
@[simp] theorem State.modMemErrs_vote (s : State) (f : MemErrs → MemErrs) : (s.modMemErrs f).vote = s.vote := rfl
@[simp] theorem State.modMemErrs_bks (s : State) (f : MemErrs → MemErrs) : (s.modMemErrs f).bks = s.bks := rfl
@[simp] theorem State.modMemErrs_brook (s : State) (f : MemErrs → MemErrs) : (s.modMemErrs f).brook = s.brook := rfl
@[simp] theorem State.modMemErrs_silt (s : State) (f : MemErrs → MemErrs) : (s.modMemErrs f).silt = s.silt := rfl
@[simp] theorem State.modMemErrs_dma (s : State) (f : MemErrs → MemErrs) : (s.modMemErrs f).dma = s.dma := rfl
@[simp] theorem State.modMemErrs_cores (s : State) (f : MemErrs → MemErrs) : (s.modMemErrs f).cores = s.cores := rfl
@[simp] theorem State.modMemErrs_scS (s : State) (f : MemErrs → MemErrs) : (s.modMemErrs f).scS = s.scS := rfl
@[simp] theorem State.modMemErrs_scV (s : State) (f : MemErrs → MemErrs) : (s.modMemErrs f).scV = s.scV := rfl
@[simp] theorem State.modMemErrs_mon (s : State) (f : MemErrs → MemErrs) : (s.modMemErrs f).mon = s.mon := rfl
@[simp] theorem State.modMemErrs_boot (s : State) (f : MemErrs → MemErrs) : (s.modMemErrs f).boot = s.boot := rfl
@[simp] theorem State.modMemErrs_fuses (s : State) (f : MemErrs → MemErrs) : (s.modMemErrs f).fuses = s.fuses := rfl
@[simp] theorem State.modMemErrs_supply (s : State) (f : MemErrs → MemErrs) : (s.modMemErrs f).supply = s.supply := rfl
@[simp] theorem State.modMemErrs_memErrs (s : State) (f : MemErrs → MemErrs) : (s.modMemErrs f).memErrs = f s.memErrs := rfl
@[simp] theorem State.modSilt_pending (s : State) (f : Silt → Silt) : (s.modSilt f).pending = s.pending := rfl
@[simp] theorem State.modSilt_ans (s : State) (f : Silt → Silt) : (s.modSilt f).ans = s.ans := rfl
@[simp] theorem State.modSilt_posted (s : State) (f : Silt → Silt) : (s.modSilt f).posted = s.posted := rfl
@[simp] theorem State.modSilt_freeCtr (s : State) (f : Silt → Silt) : (s.modSilt f).freeCtr = s.freeCtr := rfl
@[simp] theorem State.modSilt_now (s : State) (f : Silt → Silt) : (s.modSilt f).now = s.now := rfl
@[simp] theorem State.modSilt_islands (s : State) (f : Silt → Silt) : (s.modSilt f).islands = s.islands := rfl
@[simp] theorem State.modSilt_latch (s : State) (f : Silt → Silt) : (s.modSilt f).latch = s.latch := rfl
@[simp] theorem State.modSilt_regs (s : State) (f : Silt → Silt) : (s.modSilt f).regs = s.regs := rfl
@[simp] theorem State.modSilt_shadow (s : State) (f : Silt → Silt) : (s.modSilt f).shadow = s.shadow := rfl
@[simp] theorem State.modSilt_mem (s : State) (f : Silt → Silt) : (s.modSilt f).mem = s.mem := rfl
@[simp] theorem State.modSilt_tags (s : State) (f : Silt → Silt) : (s.modSilt f).tags = s.tags := rfl
@[simp] theorem State.modSilt_ue (s : State) (f : Silt → Silt) : (s.modSilt f).ue = s.ue := rfl
@[simp] theorem State.modSilt_hostMem (s : State) (f : Silt → Silt) : (s.modSilt f).hostMem = s.hostMem := rfl
@[simp] theorem State.modSilt_subs (s : State) (f : Silt → Silt) : (s.modSilt f).subs = s.subs := rfl
@[simp] theorem State.modSilt_q (s : State) (f : Silt → Silt) : (s.modSilt f).q = s.q := rfl
@[simp] theorem State.modSilt_reaches (s : State) (f : Silt → Silt) : (s.modSilt f).reaches = s.reaches := rfl
@[simp] theorem State.modSilt_pages (s : State) (f : Silt → Silt) : (s.modSilt f).pages = s.pages := rfl
@[simp] theorem State.modSilt_tes (s : State) (f : Silt → Silt) : (s.modSilt f).tes = s.tes := rfl
@[simp] theorem State.modSilt_mig (s : State) (f : Silt → Silt) : (s.modSilt f).mig = s.mig := rfl
@[simp] theorem State.modSilt_disp (s : State) (f : Silt → Silt) : (s.modSilt f).disp = s.disp := rfl
@[simp] theorem State.modSilt_cu (s : State) (f : Silt → Silt) : (s.modSilt f).cu = s.cu := rfl
@[simp] theorem State.modSilt_pins (s : State) (f : Silt → Silt) : (s.modSilt f).pins = s.pins := rfl
@[simp] theorem State.modSilt_banks (s : State) (f : Silt → Silt) : (s.modSilt f).banks = s.banks := rfl
@[simp] theorem State.modSilt_fd (s : State) (f : Silt → Silt) : (s.modSilt f).fd = s.fd := rfl
@[simp] theorem State.modSilt_sluice (s : State) (f : Silt → Silt) : (s.modSilt f).sluice = s.sluice := rfl
@[simp] theorem State.modSilt_ev (s : State) (f : Silt → Silt) : (s.modSilt f).ev = s.ev := rfl
@[simp] theorem State.modSilt_mbx (s : State) (f : Silt → Silt) : (s.modSilt f).mbx = s.mbx := rfl
@[simp] theorem State.modSilt_levee (s : State) (f : Silt → Silt) : (s.modSilt f).levee = s.levee := rfl
@[simp] theorem State.modSilt_weir (s : State) (f : Silt → Silt) : (s.modSilt f).weir = s.weir := rfl
@[simp] theorem State.modSilt_memErrs (s : State) (f : Silt → Silt) : (s.modSilt f).memErrs = s.memErrs := rfl
@[simp] theorem State.modSilt_host (s : State) (f : Silt → Silt) : (s.modSilt f).host = s.host := rfl
@[simp] theorem State.modSilt_cfls (s : State) (f : Silt → Silt) : (s.modSilt f).cfls = s.cfls := rfl
@[simp] theorem State.modSilt_vote (s : State) (f : Silt → Silt) : (s.modSilt f).vote = s.vote := rfl
@[simp] theorem State.modSilt_bks (s : State) (f : Silt → Silt) : (s.modSilt f).bks = s.bks := rfl
@[simp] theorem State.modSilt_brook (s : State) (f : Silt → Silt) : (s.modSilt f).brook = s.brook := rfl
@[simp] theorem State.modSilt_dma (s : State) (f : Silt → Silt) : (s.modSilt f).dma = s.dma := rfl
@[simp] theorem State.modSilt_cores (s : State) (f : Silt → Silt) : (s.modSilt f).cores = s.cores := rfl
@[simp] theorem State.modSilt_scS (s : State) (f : Silt → Silt) : (s.modSilt f).scS = s.scS := rfl
@[simp] theorem State.modSilt_scV (s : State) (f : Silt → Silt) : (s.modSilt f).scV = s.scV := rfl
@[simp] theorem State.modSilt_mon (s : State) (f : Silt → Silt) : (s.modSilt f).mon = s.mon := rfl
@[simp] theorem State.modSilt_boot (s : State) (f : Silt → Silt) : (s.modSilt f).boot = s.boot := rfl
@[simp] theorem State.modSilt_fuses (s : State) (f : Silt → Silt) : (s.modSilt f).fuses = s.fuses := rfl
@[simp] theorem State.modSilt_supply (s : State) (f : Silt → Silt) : (s.modSilt f).supply = s.supply := rfl
@[simp] theorem State.modSilt_silt (s : State) (f : Silt → Silt) : (s.modSilt f).silt = f s.silt := rfl
@[simp] theorem State.modDrv_pending (s : State) (d : Nat) (f : Drive → Drive) : (s.modDrv d f).pending = s.pending := rfl
@[simp] theorem State.modDrv_ans (s : State) (d : Nat) (f : Drive → Drive) : (s.modDrv d f).ans = s.ans := rfl
@[simp] theorem State.modDrv_posted (s : State) (d : Nat) (f : Drive → Drive) : (s.modDrv d f).posted = s.posted := rfl
@[simp] theorem State.modDrv_freeCtr (s : State) (d : Nat) (f : Drive → Drive) : (s.modDrv d f).freeCtr = s.freeCtr := rfl
@[simp] theorem State.modDrv_now (s : State) (d : Nat) (f : Drive → Drive) : (s.modDrv d f).now = s.now := rfl
@[simp] theorem State.modDrv_islands (s : State) (d : Nat) (f : Drive → Drive) : (s.modDrv d f).islands = s.islands := rfl
@[simp] theorem State.modDrv_latch (s : State) (d : Nat) (f : Drive → Drive) : (s.modDrv d f).latch = s.latch := rfl
@[simp] theorem State.modDrv_regs (s : State) (d : Nat) (f : Drive → Drive) : (s.modDrv d f).regs = s.regs := rfl
@[simp] theorem State.modDrv_shadow (s : State) (d : Nat) (f : Drive → Drive) : (s.modDrv d f).shadow = s.shadow := rfl
@[simp] theorem State.modDrv_mem (s : State) (d : Nat) (f : Drive → Drive) : (s.modDrv d f).mem = s.mem := rfl
@[simp] theorem State.modDrv_tags (s : State) (d : Nat) (f : Drive → Drive) : (s.modDrv d f).tags = s.tags := rfl
@[simp] theorem State.modDrv_ue (s : State) (d : Nat) (f : Drive → Drive) : (s.modDrv d f).ue = s.ue := rfl
@[simp] theorem State.modDrv_hostMem (s : State) (d : Nat) (f : Drive → Drive) : (s.modDrv d f).hostMem = s.hostMem := rfl
@[simp] theorem State.modDrv_subs (s : State) (d : Nat) (f : Drive → Drive) : (s.modDrv d f).subs = s.subs := rfl
@[simp] theorem State.modDrv_q (s : State) (d : Nat) (f : Drive → Drive) : (s.modDrv d f).q = s.q := rfl
@[simp] theorem State.modDrv_reaches (s : State) (d : Nat) (f : Drive → Drive) : (s.modDrv d f).reaches = s.reaches := rfl
@[simp] theorem State.modDrv_pages (s : State) (d : Nat) (f : Drive → Drive) : (s.modDrv d f).pages = s.pages := rfl
@[simp] theorem State.modDrv_tes (s : State) (d : Nat) (f : Drive → Drive) : (s.modDrv d f).tes = s.tes := rfl
@[simp] theorem State.modDrv_mig (s : State) (d : Nat) (f : Drive → Drive) : (s.modDrv d f).mig = s.mig := rfl
@[simp] theorem State.modDrv_disp (s : State) (d : Nat) (f : Drive → Drive) : (s.modDrv d f).disp = s.disp := rfl
@[simp] theorem State.modDrv_cu (s : State) (d : Nat) (f : Drive → Drive) : (s.modDrv d f).cu = s.cu := rfl
@[simp] theorem State.modDrv_pins (s : State) (d : Nat) (f : Drive → Drive) : (s.modDrv d f).pins = s.pins := rfl
@[simp] theorem State.modDrv_banks (s : State) (d : Nat) (f : Drive → Drive) : (s.modDrv d f).banks = s.banks := rfl
@[simp] theorem State.modDrv_fd (s : State) (d : Nat) (f : Drive → Drive) : (s.modDrv d f).fd = s.fd := rfl
@[simp] theorem State.modDrv_sluice (s : State) (d : Nat) (f : Drive → Drive) : (s.modDrv d f).sluice = s.sluice := rfl
@[simp] theorem State.modDrv_ev (s : State) (d : Nat) (f : Drive → Drive) : (s.modDrv d f).ev = s.ev := rfl
@[simp] theorem State.modDrv_mbx (s : State) (d : Nat) (f : Drive → Drive) : (s.modDrv d f).mbx = s.mbx := rfl
@[simp] theorem State.modDrv_levee (s : State) (d : Nat) (f : Drive → Drive) : (s.modDrv d f).levee = s.levee := rfl
@[simp] theorem State.modDrv_weir (s : State) (d : Nat) (f : Drive → Drive) : (s.modDrv d f).weir = s.weir := rfl
@[simp] theorem State.modDrv_memErrs (s : State) (d : Nat) (f : Drive → Drive) : (s.modDrv d f).memErrs = s.memErrs := rfl
@[simp] theorem State.modDrv_host (s : State) (d : Nat) (f : Drive → Drive) : (s.modDrv d f).host = s.host := rfl
@[simp] theorem State.modDrv_cfls (s : State) (d : Nat) (f : Drive → Drive) : (s.modDrv d f).cfls = s.cfls := rfl
@[simp] theorem State.modDrv_vote (s : State) (d : Nat) (f : Drive → Drive) : (s.modDrv d f).vote = s.vote := rfl
@[simp] theorem State.modDrv_bks (s : State) (d : Nat) (f : Drive → Drive) : (s.modDrv d f).bks = s.bks := rfl
@[simp] theorem State.modDrv_brook (s : State) (d : Nat) (f : Drive → Drive) : (s.modDrv d f).brook = s.brook := rfl
@[simp] theorem State.modDrv_dma (s : State) (d : Nat) (f : Drive → Drive) : (s.modDrv d f).dma = s.dma := rfl
@[simp] theorem State.modDrv_cores (s : State) (d : Nat) (f : Drive → Drive) : (s.modDrv d f).cores = s.cores := rfl
@[simp] theorem State.modDrv_scS (s : State) (d : Nat) (f : Drive → Drive) : (s.modDrv d f).scS = s.scS := rfl
@[simp] theorem State.modDrv_scV (s : State) (d : Nat) (f : Drive → Drive) : (s.modDrv d f).scV = s.scV := rfl
@[simp] theorem State.modDrv_mon (s : State) (d : Nat) (f : Drive → Drive) : (s.modDrv d f).mon = s.mon := rfl
@[simp] theorem State.modDrv_boot (s : State) (d : Nat) (f : Drive → Drive) : (s.modDrv d f).boot = s.boot := rfl
@[simp] theorem State.modDrv_fuses (s : State) (d : Nat) (f : Drive → Drive) : (s.modDrv d f).fuses = s.fuses := rfl
@[simp] theorem State.modDrv_supply (s : State) (d : Nat) (f : Drive → Drive) : (s.modDrv d f).supply = s.supply := rfl
@[simp] theorem State.modDch_pending (s : State) (c : Nat) (f : DmaCh → DmaCh) : (s.modDch c f).pending = s.pending := rfl
@[simp] theorem State.modDch_ans (s : State) (c : Nat) (f : DmaCh → DmaCh) : (s.modDch c f).ans = s.ans := rfl
@[simp] theorem State.modDch_posted (s : State) (c : Nat) (f : DmaCh → DmaCh) : (s.modDch c f).posted = s.posted := rfl
@[simp] theorem State.modDch_freeCtr (s : State) (c : Nat) (f : DmaCh → DmaCh) : (s.modDch c f).freeCtr = s.freeCtr := rfl
@[simp] theorem State.modDch_now (s : State) (c : Nat) (f : DmaCh → DmaCh) : (s.modDch c f).now = s.now := rfl
@[simp] theorem State.modDch_islands (s : State) (c : Nat) (f : DmaCh → DmaCh) : (s.modDch c f).islands = s.islands := rfl
@[simp] theorem State.modDch_latch (s : State) (c : Nat) (f : DmaCh → DmaCh) : (s.modDch c f).latch = s.latch := rfl
@[simp] theorem State.modDch_regs (s : State) (c : Nat) (f : DmaCh → DmaCh) : (s.modDch c f).regs = s.regs := rfl
@[simp] theorem State.modDch_shadow (s : State) (c : Nat) (f : DmaCh → DmaCh) : (s.modDch c f).shadow = s.shadow := rfl
@[simp] theorem State.modDch_mem (s : State) (c : Nat) (f : DmaCh → DmaCh) : (s.modDch c f).mem = s.mem := rfl
@[simp] theorem State.modDch_tags (s : State) (c : Nat) (f : DmaCh → DmaCh) : (s.modDch c f).tags = s.tags := rfl
@[simp] theorem State.modDch_ue (s : State) (c : Nat) (f : DmaCh → DmaCh) : (s.modDch c f).ue = s.ue := rfl
@[simp] theorem State.modDch_hostMem (s : State) (c : Nat) (f : DmaCh → DmaCh) : (s.modDch c f).hostMem = s.hostMem := rfl
@[simp] theorem State.modDch_subs (s : State) (c : Nat) (f : DmaCh → DmaCh) : (s.modDch c f).subs = s.subs := rfl
@[simp] theorem State.modDch_q (s : State) (c : Nat) (f : DmaCh → DmaCh) : (s.modDch c f).q = s.q := rfl
@[simp] theorem State.modDch_reaches (s : State) (c : Nat) (f : DmaCh → DmaCh) : (s.modDch c f).reaches = s.reaches := rfl
@[simp] theorem State.modDch_pages (s : State) (c : Nat) (f : DmaCh → DmaCh) : (s.modDch c f).pages = s.pages := rfl
@[simp] theorem State.modDch_tes (s : State) (c : Nat) (f : DmaCh → DmaCh) : (s.modDch c f).tes = s.tes := rfl
@[simp] theorem State.modDch_mig (s : State) (c : Nat) (f : DmaCh → DmaCh) : (s.modDch c f).mig = s.mig := rfl
@[simp] theorem State.modDch_disp (s : State) (c : Nat) (f : DmaCh → DmaCh) : (s.modDch c f).disp = s.disp := rfl
@[simp] theorem State.modDch_cu (s : State) (c : Nat) (f : DmaCh → DmaCh) : (s.modDch c f).cu = s.cu := rfl
@[simp] theorem State.modDch_pins (s : State) (c : Nat) (f : DmaCh → DmaCh) : (s.modDch c f).pins = s.pins := rfl
@[simp] theorem State.modDch_banks (s : State) (c : Nat) (f : DmaCh → DmaCh) : (s.modDch c f).banks = s.banks := rfl
@[simp] theorem State.modDch_fd (s : State) (c : Nat) (f : DmaCh → DmaCh) : (s.modDch c f).fd = s.fd := rfl
@[simp] theorem State.modDch_sluice (s : State) (c : Nat) (f : DmaCh → DmaCh) : (s.modDch c f).sluice = s.sluice := rfl
@[simp] theorem State.modDch_ev (s : State) (c : Nat) (f : DmaCh → DmaCh) : (s.modDch c f).ev = s.ev := rfl
@[simp] theorem State.modDch_mbx (s : State) (c : Nat) (f : DmaCh → DmaCh) : (s.modDch c f).mbx = s.mbx := rfl
@[simp] theorem State.modDch_levee (s : State) (c : Nat) (f : DmaCh → DmaCh) : (s.modDch c f).levee = s.levee := rfl
@[simp] theorem State.modDch_weir (s : State) (c : Nat) (f : DmaCh → DmaCh) : (s.modDch c f).weir = s.weir := rfl
@[simp] theorem State.modDch_memErrs (s : State) (c : Nat) (f : DmaCh → DmaCh) : (s.modDch c f).memErrs = s.memErrs := rfl
@[simp] theorem State.modDch_host (s : State) (c : Nat) (f : DmaCh → DmaCh) : (s.modDch c f).host = s.host := rfl
@[simp] theorem State.modDch_cfls (s : State) (c : Nat) (f : DmaCh → DmaCh) : (s.modDch c f).cfls = s.cfls := rfl
@[simp] theorem State.modDch_vote (s : State) (c : Nat) (f : DmaCh → DmaCh) : (s.modDch c f).vote = s.vote := rfl
@[simp] theorem State.modDch_bks (s : State) (c : Nat) (f : DmaCh → DmaCh) : (s.modDch c f).bks = s.bks := rfl
@[simp] theorem State.modDch_brook (s : State) (c : Nat) (f : DmaCh → DmaCh) : (s.modDch c f).brook = s.brook := rfl
@[simp] theorem State.modDch_silt (s : State) (c : Nat) (f : DmaCh → DmaCh) : (s.modDch c f).silt = s.silt := rfl
@[simp] theorem State.modDch_cores (s : State) (c : Nat) (f : DmaCh → DmaCh) : (s.modDch c f).cores = s.cores := rfl
@[simp] theorem State.modDch_scS (s : State) (c : Nat) (f : DmaCh → DmaCh) : (s.modDch c f).scS = s.scS := rfl
@[simp] theorem State.modDch_scV (s : State) (c : Nat) (f : DmaCh → DmaCh) : (s.modDch c f).scV = s.scV := rfl
@[simp] theorem State.modDch_mon (s : State) (c : Nat) (f : DmaCh → DmaCh) : (s.modDch c f).mon = s.mon := rfl
@[simp] theorem State.modDch_boot (s : State) (c : Nat) (f : DmaCh → DmaCh) : (s.modDch c f).boot = s.boot := rfl
@[simp] theorem State.modDch_fuses (s : State) (c : Nat) (f : DmaCh → DmaCh) : (s.modDch c f).fuses = s.fuses := rfl
@[simp] theorem State.modDch_supply (s : State) (c : Nat) (f : DmaCh → DmaCh) : (s.modDch c f).supply = s.supply := rfl
@[simp] theorem State.modCore_pending (s : State) (k : Nat) (f : CoreSt → CoreSt) : (s.modCore k f).pending = s.pending := rfl
@[simp] theorem State.modCore_ans (s : State) (k : Nat) (f : CoreSt → CoreSt) : (s.modCore k f).ans = s.ans := rfl
@[simp] theorem State.modCore_posted (s : State) (k : Nat) (f : CoreSt → CoreSt) : (s.modCore k f).posted = s.posted := rfl
@[simp] theorem State.modCore_freeCtr (s : State) (k : Nat) (f : CoreSt → CoreSt) : (s.modCore k f).freeCtr = s.freeCtr := rfl
@[simp] theorem State.modCore_now (s : State) (k : Nat) (f : CoreSt → CoreSt) : (s.modCore k f).now = s.now := rfl
@[simp] theorem State.modCore_islands (s : State) (k : Nat) (f : CoreSt → CoreSt) : (s.modCore k f).islands = s.islands := rfl
@[simp] theorem State.modCore_latch (s : State) (k : Nat) (f : CoreSt → CoreSt) : (s.modCore k f).latch = s.latch := rfl
@[simp] theorem State.modCore_regs (s : State) (k : Nat) (f : CoreSt → CoreSt) : (s.modCore k f).regs = s.regs := rfl
@[simp] theorem State.modCore_shadow (s : State) (k : Nat) (f : CoreSt → CoreSt) : (s.modCore k f).shadow = s.shadow := rfl
@[simp] theorem State.modCore_mem (s : State) (k : Nat) (f : CoreSt → CoreSt) : (s.modCore k f).mem = s.mem := rfl
@[simp] theorem State.modCore_tags (s : State) (k : Nat) (f : CoreSt → CoreSt) : (s.modCore k f).tags = s.tags := rfl
@[simp] theorem State.modCore_ue (s : State) (k : Nat) (f : CoreSt → CoreSt) : (s.modCore k f).ue = s.ue := rfl
@[simp] theorem State.modCore_hostMem (s : State) (k : Nat) (f : CoreSt → CoreSt) : (s.modCore k f).hostMem = s.hostMem := rfl
@[simp] theorem State.modCore_subs (s : State) (k : Nat) (f : CoreSt → CoreSt) : (s.modCore k f).subs = s.subs := rfl
@[simp] theorem State.modCore_q (s : State) (k : Nat) (f : CoreSt → CoreSt) : (s.modCore k f).q = s.q := rfl
@[simp] theorem State.modCore_reaches (s : State) (k : Nat) (f : CoreSt → CoreSt) : (s.modCore k f).reaches = s.reaches := rfl
@[simp] theorem State.modCore_pages (s : State) (k : Nat) (f : CoreSt → CoreSt) : (s.modCore k f).pages = s.pages := rfl
@[simp] theorem State.modCore_tes (s : State) (k : Nat) (f : CoreSt → CoreSt) : (s.modCore k f).tes = s.tes := rfl
@[simp] theorem State.modCore_mig (s : State) (k : Nat) (f : CoreSt → CoreSt) : (s.modCore k f).mig = s.mig := rfl
@[simp] theorem State.modCore_disp (s : State) (k : Nat) (f : CoreSt → CoreSt) : (s.modCore k f).disp = s.disp := rfl
@[simp] theorem State.modCore_cu (s : State) (k : Nat) (f : CoreSt → CoreSt) : (s.modCore k f).cu = s.cu := rfl
@[simp] theorem State.modCore_pins (s : State) (k : Nat) (f : CoreSt → CoreSt) : (s.modCore k f).pins = s.pins := rfl
@[simp] theorem State.modCore_banks (s : State) (k : Nat) (f : CoreSt → CoreSt) : (s.modCore k f).banks = s.banks := rfl
@[simp] theorem State.modCore_fd (s : State) (k : Nat) (f : CoreSt → CoreSt) : (s.modCore k f).fd = s.fd := rfl
@[simp] theorem State.modCore_sluice (s : State) (k : Nat) (f : CoreSt → CoreSt) : (s.modCore k f).sluice = s.sluice := rfl
@[simp] theorem State.modCore_ev (s : State) (k : Nat) (f : CoreSt → CoreSt) : (s.modCore k f).ev = s.ev := rfl
@[simp] theorem State.modCore_mbx (s : State) (k : Nat) (f : CoreSt → CoreSt) : (s.modCore k f).mbx = s.mbx := rfl
@[simp] theorem State.modCore_levee (s : State) (k : Nat) (f : CoreSt → CoreSt) : (s.modCore k f).levee = s.levee := rfl
@[simp] theorem State.modCore_weir (s : State) (k : Nat) (f : CoreSt → CoreSt) : (s.modCore k f).weir = s.weir := rfl
@[simp] theorem State.modCore_memErrs (s : State) (k : Nat) (f : CoreSt → CoreSt) : (s.modCore k f).memErrs = s.memErrs := rfl
@[simp] theorem State.modCore_host (s : State) (k : Nat) (f : CoreSt → CoreSt) : (s.modCore k f).host = s.host := rfl
@[simp] theorem State.modCore_cfls (s : State) (k : Nat) (f : CoreSt → CoreSt) : (s.modCore k f).cfls = s.cfls := rfl
@[simp] theorem State.modCore_vote (s : State) (k : Nat) (f : CoreSt → CoreSt) : (s.modCore k f).vote = s.vote := rfl
@[simp] theorem State.modCore_bks (s : State) (k : Nat) (f : CoreSt → CoreSt) : (s.modCore k f).bks = s.bks := rfl
@[simp] theorem State.modCore_brook (s : State) (k : Nat) (f : CoreSt → CoreSt) : (s.modCore k f).brook = s.brook := rfl
@[simp] theorem State.modCore_silt (s : State) (k : Nat) (f : CoreSt → CoreSt) : (s.modCore k f).silt = s.silt := rfl
@[simp] theorem State.modCore_dma (s : State) (k : Nat) (f : CoreSt → CoreSt) : (s.modCore k f).dma = s.dma := rfl
@[simp] theorem State.modCore_scS (s : State) (k : Nat) (f : CoreSt → CoreSt) : (s.modCore k f).scS = s.scS := rfl
@[simp] theorem State.modCore_scV (s : State) (k : Nat) (f : CoreSt → CoreSt) : (s.modCore k f).scV = s.scV := rfl
@[simp] theorem State.modCore_mon (s : State) (k : Nat) (f : CoreSt → CoreSt) : (s.modCore k f).mon = s.mon := rfl
@[simp] theorem State.modCore_boot (s : State) (k : Nat) (f : CoreSt → CoreSt) : (s.modCore k f).boot = s.boot := rfl
@[simp] theorem State.modCore_fuses (s : State) (k : Nat) (f : CoreSt → CoreSt) : (s.modCore k f).fuses = s.fuses := rfl
@[simp] theorem State.modCore_supply (s : State) (k : Nat) (f : CoreSt → CoreSt) : (s.modCore k f).supply = s.supply := rfl
@[simp] theorem State.modMon_pending (s : State) (f : Monitor → Monitor) : (s.modMon f).pending = s.pending := rfl
@[simp] theorem State.modMon_ans (s : State) (f : Monitor → Monitor) : (s.modMon f).ans = s.ans := rfl
@[simp] theorem State.modMon_posted (s : State) (f : Monitor → Monitor) : (s.modMon f).posted = s.posted := rfl
@[simp] theorem State.modMon_freeCtr (s : State) (f : Monitor → Monitor) : (s.modMon f).freeCtr = s.freeCtr := rfl
@[simp] theorem State.modMon_now (s : State) (f : Monitor → Monitor) : (s.modMon f).now = s.now := rfl
@[simp] theorem State.modMon_islands (s : State) (f : Monitor → Monitor) : (s.modMon f).islands = s.islands := rfl
@[simp] theorem State.modMon_latch (s : State) (f : Monitor → Monitor) : (s.modMon f).latch = s.latch := rfl
@[simp] theorem State.modMon_regs (s : State) (f : Monitor → Monitor) : (s.modMon f).regs = s.regs := rfl
@[simp] theorem State.modMon_shadow (s : State) (f : Monitor → Monitor) : (s.modMon f).shadow = s.shadow := rfl
@[simp] theorem State.modMon_mem (s : State) (f : Monitor → Monitor) : (s.modMon f).mem = s.mem := rfl
@[simp] theorem State.modMon_tags (s : State) (f : Monitor → Monitor) : (s.modMon f).tags = s.tags := rfl
@[simp] theorem State.modMon_ue (s : State) (f : Monitor → Monitor) : (s.modMon f).ue = s.ue := rfl
@[simp] theorem State.modMon_hostMem (s : State) (f : Monitor → Monitor) : (s.modMon f).hostMem = s.hostMem := rfl
@[simp] theorem State.modMon_subs (s : State) (f : Monitor → Monitor) : (s.modMon f).subs = s.subs := rfl
@[simp] theorem State.modMon_q (s : State) (f : Monitor → Monitor) : (s.modMon f).q = s.q := rfl
@[simp] theorem State.modMon_reaches (s : State) (f : Monitor → Monitor) : (s.modMon f).reaches = s.reaches := rfl
@[simp] theorem State.modMon_pages (s : State) (f : Monitor → Monitor) : (s.modMon f).pages = s.pages := rfl
@[simp] theorem State.modMon_tes (s : State) (f : Monitor → Monitor) : (s.modMon f).tes = s.tes := rfl
@[simp] theorem State.modMon_mig (s : State) (f : Monitor → Monitor) : (s.modMon f).mig = s.mig := rfl
@[simp] theorem State.modMon_disp (s : State) (f : Monitor → Monitor) : (s.modMon f).disp = s.disp := rfl
@[simp] theorem State.modMon_cu (s : State) (f : Monitor → Monitor) : (s.modMon f).cu = s.cu := rfl
@[simp] theorem State.modMon_pins (s : State) (f : Monitor → Monitor) : (s.modMon f).pins = s.pins := rfl
@[simp] theorem State.modMon_banks (s : State) (f : Monitor → Monitor) : (s.modMon f).banks = s.banks := rfl
@[simp] theorem State.modMon_fd (s : State) (f : Monitor → Monitor) : (s.modMon f).fd = s.fd := rfl
@[simp] theorem State.modMon_sluice (s : State) (f : Monitor → Monitor) : (s.modMon f).sluice = s.sluice := rfl
@[simp] theorem State.modMon_ev (s : State) (f : Monitor → Monitor) : (s.modMon f).ev = s.ev := rfl
@[simp] theorem State.modMon_mbx (s : State) (f : Monitor → Monitor) : (s.modMon f).mbx = s.mbx := rfl
@[simp] theorem State.modMon_levee (s : State) (f : Monitor → Monitor) : (s.modMon f).levee = s.levee := rfl
@[simp] theorem State.modMon_weir (s : State) (f : Monitor → Monitor) : (s.modMon f).weir = s.weir := rfl
@[simp] theorem State.modMon_memErrs (s : State) (f : Monitor → Monitor) : (s.modMon f).memErrs = s.memErrs := rfl
@[simp] theorem State.modMon_host (s : State) (f : Monitor → Monitor) : (s.modMon f).host = s.host := rfl
@[simp] theorem State.modMon_cfls (s : State) (f : Monitor → Monitor) : (s.modMon f).cfls = s.cfls := rfl
@[simp] theorem State.modMon_vote (s : State) (f : Monitor → Monitor) : (s.modMon f).vote = s.vote := rfl
@[simp] theorem State.modMon_bks (s : State) (f : Monitor → Monitor) : (s.modMon f).bks = s.bks := rfl
@[simp] theorem State.modMon_brook (s : State) (f : Monitor → Monitor) : (s.modMon f).brook = s.brook := rfl
@[simp] theorem State.modMon_silt (s : State) (f : Monitor → Monitor) : (s.modMon f).silt = s.silt := rfl
@[simp] theorem State.modMon_dma (s : State) (f : Monitor → Monitor) : (s.modMon f).dma = s.dma := rfl
@[simp] theorem State.modMon_cores (s : State) (f : Monitor → Monitor) : (s.modMon f).cores = s.cores := rfl
@[simp] theorem State.modMon_scS (s : State) (f : Monitor → Monitor) : (s.modMon f).scS = s.scS := rfl
@[simp] theorem State.modMon_scV (s : State) (f : Monitor → Monitor) : (s.modMon f).scV = s.scV := rfl
@[simp] theorem State.modMon_boot (s : State) (f : Monitor → Monitor) : (s.modMon f).boot = s.boot := rfl
@[simp] theorem State.modMon_fuses (s : State) (f : Monitor → Monitor) : (s.modMon f).fuses = s.fuses := rfl
@[simp] theorem State.modMon_supply (s : State) (f : Monitor → Monitor) : (s.modMon f).supply = s.supply := rfl
@[simp] theorem State.modMon_mon (s : State) (f : Monitor → Monitor) : (s.modMon f).mon = f s.mon := rfl
@[simp] theorem State.modDbg_pending (s : State) (n : Nat) (f : TeDbg → TeDbg) : (s.modDbg n f).pending = s.pending := rfl
@[simp] theorem State.modDbg_ans (s : State) (n : Nat) (f : TeDbg → TeDbg) : (s.modDbg n f).ans = s.ans := rfl
@[simp] theorem State.modDbg_posted (s : State) (n : Nat) (f : TeDbg → TeDbg) : (s.modDbg n f).posted = s.posted := rfl
@[simp] theorem State.modDbg_freeCtr (s : State) (n : Nat) (f : TeDbg → TeDbg) : (s.modDbg n f).freeCtr = s.freeCtr := rfl
@[simp] theorem State.modDbg_now (s : State) (n : Nat) (f : TeDbg → TeDbg) : (s.modDbg n f).now = s.now := rfl
@[simp] theorem State.modDbg_islands (s : State) (n : Nat) (f : TeDbg → TeDbg) : (s.modDbg n f).islands = s.islands := rfl
@[simp] theorem State.modDbg_latch (s : State) (n : Nat) (f : TeDbg → TeDbg) : (s.modDbg n f).latch = s.latch := rfl
@[simp] theorem State.modDbg_regs (s : State) (n : Nat) (f : TeDbg → TeDbg) : (s.modDbg n f).regs = s.regs := rfl
@[simp] theorem State.modDbg_shadow (s : State) (n : Nat) (f : TeDbg → TeDbg) : (s.modDbg n f).shadow = s.shadow := rfl
@[simp] theorem State.modDbg_mem (s : State) (n : Nat) (f : TeDbg → TeDbg) : (s.modDbg n f).mem = s.mem := rfl
@[simp] theorem State.modDbg_tags (s : State) (n : Nat) (f : TeDbg → TeDbg) : (s.modDbg n f).tags = s.tags := rfl
@[simp] theorem State.modDbg_ue (s : State) (n : Nat) (f : TeDbg → TeDbg) : (s.modDbg n f).ue = s.ue := rfl
@[simp] theorem State.modDbg_hostMem (s : State) (n : Nat) (f : TeDbg → TeDbg) : (s.modDbg n f).hostMem = s.hostMem := rfl
@[simp] theorem State.modDbg_subs (s : State) (n : Nat) (f : TeDbg → TeDbg) : (s.modDbg n f).subs = s.subs := rfl
@[simp] theorem State.modDbg_q (s : State) (n : Nat) (f : TeDbg → TeDbg) : (s.modDbg n f).q = s.q := rfl
@[simp] theorem State.modDbg_reaches (s : State) (n : Nat) (f : TeDbg → TeDbg) : (s.modDbg n f).reaches = s.reaches := rfl
@[simp] theorem State.modDbg_pages (s : State) (n : Nat) (f : TeDbg → TeDbg) : (s.modDbg n f).pages = s.pages := rfl
@[simp] theorem State.modDbg_tes (s : State) (n : Nat) (f : TeDbg → TeDbg) : (s.modDbg n f).tes = s.tes := rfl
@[simp] theorem State.modDbg_mig (s : State) (n : Nat) (f : TeDbg → TeDbg) : (s.modDbg n f).mig = s.mig := rfl
@[simp] theorem State.modDbg_disp (s : State) (n : Nat) (f : TeDbg → TeDbg) : (s.modDbg n f).disp = s.disp := rfl
@[simp] theorem State.modDbg_cu (s : State) (n : Nat) (f : TeDbg → TeDbg) : (s.modDbg n f).cu = s.cu := rfl
@[simp] theorem State.modDbg_pins (s : State) (n : Nat) (f : TeDbg → TeDbg) : (s.modDbg n f).pins = s.pins := rfl
@[simp] theorem State.modDbg_banks (s : State) (n : Nat) (f : TeDbg → TeDbg) : (s.modDbg n f).banks = s.banks := rfl
@[simp] theorem State.modDbg_fd (s : State) (n : Nat) (f : TeDbg → TeDbg) : (s.modDbg n f).fd = s.fd := rfl
@[simp] theorem State.modDbg_sluice (s : State) (n : Nat) (f : TeDbg → TeDbg) : (s.modDbg n f).sluice = s.sluice := rfl
@[simp] theorem State.modDbg_ev (s : State) (n : Nat) (f : TeDbg → TeDbg) : (s.modDbg n f).ev = s.ev := rfl
@[simp] theorem State.modDbg_mbx (s : State) (n : Nat) (f : TeDbg → TeDbg) : (s.modDbg n f).mbx = s.mbx := rfl
@[simp] theorem State.modDbg_levee (s : State) (n : Nat) (f : TeDbg → TeDbg) : (s.modDbg n f).levee = s.levee := rfl
@[simp] theorem State.modDbg_weir (s : State) (n : Nat) (f : TeDbg → TeDbg) : (s.modDbg n f).weir = s.weir := rfl
@[simp] theorem State.modDbg_memErrs (s : State) (n : Nat) (f : TeDbg → TeDbg) : (s.modDbg n f).memErrs = s.memErrs := rfl
@[simp] theorem State.modDbg_host (s : State) (n : Nat) (f : TeDbg → TeDbg) : (s.modDbg n f).host = s.host := rfl
@[simp] theorem State.modDbg_cfls (s : State) (n : Nat) (f : TeDbg → TeDbg) : (s.modDbg n f).cfls = s.cfls := rfl
@[simp] theorem State.modDbg_vote (s : State) (n : Nat) (f : TeDbg → TeDbg) : (s.modDbg n f).vote = s.vote := rfl
@[simp] theorem State.modDbg_bks (s : State) (n : Nat) (f : TeDbg → TeDbg) : (s.modDbg n f).bks = s.bks := rfl
@[simp] theorem State.modDbg_brook (s : State) (n : Nat) (f : TeDbg → TeDbg) : (s.modDbg n f).brook = s.brook := rfl
@[simp] theorem State.modDbg_silt (s : State) (n : Nat) (f : TeDbg → TeDbg) : (s.modDbg n f).silt = s.silt := rfl
@[simp] theorem State.modDbg_dma (s : State) (n : Nat) (f : TeDbg → TeDbg) : (s.modDbg n f).dma = s.dma := rfl
@[simp] theorem State.modDbg_cores (s : State) (n : Nat) (f : TeDbg → TeDbg) : (s.modDbg n f).cores = s.cores := rfl
@[simp] theorem State.modDbg_scS (s : State) (n : Nat) (f : TeDbg → TeDbg) : (s.modDbg n f).scS = s.scS := rfl
@[simp] theorem State.modDbg_scV (s : State) (n : Nat) (f : TeDbg → TeDbg) : (s.modDbg n f).scV = s.scV := rfl
@[simp] theorem State.modDbg_boot (s : State) (n : Nat) (f : TeDbg → TeDbg) : (s.modDbg n f).boot = s.boot := rfl
@[simp] theorem State.modDbg_fuses (s : State) (n : Nat) (f : TeDbg → TeDbg) : (s.modDbg n f).fuses = s.fuses := rfl
@[simp] theorem State.modDbg_supply (s : State) (n : Nat) (f : TeDbg → TeDbg) : (s.modDbg n f).supply = s.supply := rfl
@[simp] theorem State.modBoot_pending (s : State) (f : Boot → Boot) : (s.modBoot f).pending = s.pending := rfl
@[simp] theorem State.modBoot_ans (s : State) (f : Boot → Boot) : (s.modBoot f).ans = s.ans := rfl
@[simp] theorem State.modBoot_posted (s : State) (f : Boot → Boot) : (s.modBoot f).posted = s.posted := rfl
@[simp] theorem State.modBoot_freeCtr (s : State) (f : Boot → Boot) : (s.modBoot f).freeCtr = s.freeCtr := rfl
@[simp] theorem State.modBoot_now (s : State) (f : Boot → Boot) : (s.modBoot f).now = s.now := rfl
@[simp] theorem State.modBoot_islands (s : State) (f : Boot → Boot) : (s.modBoot f).islands = s.islands := rfl
@[simp] theorem State.modBoot_latch (s : State) (f : Boot → Boot) : (s.modBoot f).latch = s.latch := rfl
@[simp] theorem State.modBoot_regs (s : State) (f : Boot → Boot) : (s.modBoot f).regs = s.regs := rfl
@[simp] theorem State.modBoot_shadow (s : State) (f : Boot → Boot) : (s.modBoot f).shadow = s.shadow := rfl
@[simp] theorem State.modBoot_mem (s : State) (f : Boot → Boot) : (s.modBoot f).mem = s.mem := rfl
@[simp] theorem State.modBoot_tags (s : State) (f : Boot → Boot) : (s.modBoot f).tags = s.tags := rfl
@[simp] theorem State.modBoot_ue (s : State) (f : Boot → Boot) : (s.modBoot f).ue = s.ue := rfl
@[simp] theorem State.modBoot_hostMem (s : State) (f : Boot → Boot) : (s.modBoot f).hostMem = s.hostMem := rfl
@[simp] theorem State.modBoot_subs (s : State) (f : Boot → Boot) : (s.modBoot f).subs = s.subs := rfl
@[simp] theorem State.modBoot_q (s : State) (f : Boot → Boot) : (s.modBoot f).q = s.q := rfl
@[simp] theorem State.modBoot_reaches (s : State) (f : Boot → Boot) : (s.modBoot f).reaches = s.reaches := rfl
@[simp] theorem State.modBoot_pages (s : State) (f : Boot → Boot) : (s.modBoot f).pages = s.pages := rfl
@[simp] theorem State.modBoot_tes (s : State) (f : Boot → Boot) : (s.modBoot f).tes = s.tes := rfl
@[simp] theorem State.modBoot_mig (s : State) (f : Boot → Boot) : (s.modBoot f).mig = s.mig := rfl
@[simp] theorem State.modBoot_disp (s : State) (f : Boot → Boot) : (s.modBoot f).disp = s.disp := rfl
@[simp] theorem State.modBoot_cu (s : State) (f : Boot → Boot) : (s.modBoot f).cu = s.cu := rfl
@[simp] theorem State.modBoot_pins (s : State) (f : Boot → Boot) : (s.modBoot f).pins = s.pins := rfl
@[simp] theorem State.modBoot_banks (s : State) (f : Boot → Boot) : (s.modBoot f).banks = s.banks := rfl
@[simp] theorem State.modBoot_fd (s : State) (f : Boot → Boot) : (s.modBoot f).fd = s.fd := rfl
@[simp] theorem State.modBoot_sluice (s : State) (f : Boot → Boot) : (s.modBoot f).sluice = s.sluice := rfl
@[simp] theorem State.modBoot_ev (s : State) (f : Boot → Boot) : (s.modBoot f).ev = s.ev := rfl
@[simp] theorem State.modBoot_mbx (s : State) (f : Boot → Boot) : (s.modBoot f).mbx = s.mbx := rfl
@[simp] theorem State.modBoot_levee (s : State) (f : Boot → Boot) : (s.modBoot f).levee = s.levee := rfl
@[simp] theorem State.modBoot_weir (s : State) (f : Boot → Boot) : (s.modBoot f).weir = s.weir := rfl
@[simp] theorem State.modBoot_memErrs (s : State) (f : Boot → Boot) : (s.modBoot f).memErrs = s.memErrs := rfl
@[simp] theorem State.modBoot_host (s : State) (f : Boot → Boot) : (s.modBoot f).host = s.host := rfl
@[simp] theorem State.modBoot_cfls (s : State) (f : Boot → Boot) : (s.modBoot f).cfls = s.cfls := rfl
@[simp] theorem State.modBoot_vote (s : State) (f : Boot → Boot) : (s.modBoot f).vote = s.vote := rfl
@[simp] theorem State.modBoot_bks (s : State) (f : Boot → Boot) : (s.modBoot f).bks = s.bks := rfl
@[simp] theorem State.modBoot_brook (s : State) (f : Boot → Boot) : (s.modBoot f).brook = s.brook := rfl
@[simp] theorem State.modBoot_silt (s : State) (f : Boot → Boot) : (s.modBoot f).silt = s.silt := rfl
@[simp] theorem State.modBoot_dma (s : State) (f : Boot → Boot) : (s.modBoot f).dma = s.dma := rfl
@[simp] theorem State.modBoot_cores (s : State) (f : Boot → Boot) : (s.modBoot f).cores = s.cores := rfl
@[simp] theorem State.modBoot_scS (s : State) (f : Boot → Boot) : (s.modBoot f).scS = s.scS := rfl
@[simp] theorem State.modBoot_scV (s : State) (f : Boot → Boot) : (s.modBoot f).scV = s.scV := rfl
@[simp] theorem State.modBoot_mon (s : State) (f : Boot → Boot) : (s.modBoot f).mon = s.mon := rfl
@[simp] theorem State.modBoot_fuses (s : State) (f : Boot → Boot) : (s.modBoot f).fuses = s.fuses := rfl
@[simp] theorem State.modBoot_supply (s : State) (f : Boot → Boot) : (s.modBoot f).supply = s.supply := rfl
@[simp] theorem State.modBoot_boot (s : State) (f : Boot → Boot) : (s.modBoot f).boot = f s.boot := rfl
@[simp] theorem State.modFuses_pending (s : State) (f : Fuses → Fuses) : (s.modFuses f).pending = s.pending := rfl
@[simp] theorem State.modFuses_ans (s : State) (f : Fuses → Fuses) : (s.modFuses f).ans = s.ans := rfl
@[simp] theorem State.modFuses_posted (s : State) (f : Fuses → Fuses) : (s.modFuses f).posted = s.posted := rfl
@[simp] theorem State.modFuses_freeCtr (s : State) (f : Fuses → Fuses) : (s.modFuses f).freeCtr = s.freeCtr := rfl
@[simp] theorem State.modFuses_now (s : State) (f : Fuses → Fuses) : (s.modFuses f).now = s.now := rfl
@[simp] theorem State.modFuses_islands (s : State) (f : Fuses → Fuses) : (s.modFuses f).islands = s.islands := rfl
@[simp] theorem State.modFuses_latch (s : State) (f : Fuses → Fuses) : (s.modFuses f).latch = s.latch := rfl
@[simp] theorem State.modFuses_regs (s : State) (f : Fuses → Fuses) : (s.modFuses f).regs = s.regs := rfl
@[simp] theorem State.modFuses_shadow (s : State) (f : Fuses → Fuses) : (s.modFuses f).shadow = s.shadow := rfl
@[simp] theorem State.modFuses_mem (s : State) (f : Fuses → Fuses) : (s.modFuses f).mem = s.mem := rfl
@[simp] theorem State.modFuses_tags (s : State) (f : Fuses → Fuses) : (s.modFuses f).tags = s.tags := rfl
@[simp] theorem State.modFuses_ue (s : State) (f : Fuses → Fuses) : (s.modFuses f).ue = s.ue := rfl
@[simp] theorem State.modFuses_hostMem (s : State) (f : Fuses → Fuses) : (s.modFuses f).hostMem = s.hostMem := rfl
@[simp] theorem State.modFuses_subs (s : State) (f : Fuses → Fuses) : (s.modFuses f).subs = s.subs := rfl
@[simp] theorem State.modFuses_q (s : State) (f : Fuses → Fuses) : (s.modFuses f).q = s.q := rfl
@[simp] theorem State.modFuses_reaches (s : State) (f : Fuses → Fuses) : (s.modFuses f).reaches = s.reaches := rfl
@[simp] theorem State.modFuses_pages (s : State) (f : Fuses → Fuses) : (s.modFuses f).pages = s.pages := rfl
@[simp] theorem State.modFuses_tes (s : State) (f : Fuses → Fuses) : (s.modFuses f).tes = s.tes := rfl
@[simp] theorem State.modFuses_mig (s : State) (f : Fuses → Fuses) : (s.modFuses f).mig = s.mig := rfl
@[simp] theorem State.modFuses_disp (s : State) (f : Fuses → Fuses) : (s.modFuses f).disp = s.disp := rfl
@[simp] theorem State.modFuses_cu (s : State) (f : Fuses → Fuses) : (s.modFuses f).cu = s.cu := rfl
@[simp] theorem State.modFuses_pins (s : State) (f : Fuses → Fuses) : (s.modFuses f).pins = s.pins := rfl
@[simp] theorem State.modFuses_banks (s : State) (f : Fuses → Fuses) : (s.modFuses f).banks = s.banks := rfl
@[simp] theorem State.modFuses_fd (s : State) (f : Fuses → Fuses) : (s.modFuses f).fd = s.fd := rfl
@[simp] theorem State.modFuses_sluice (s : State) (f : Fuses → Fuses) : (s.modFuses f).sluice = s.sluice := rfl
@[simp] theorem State.modFuses_ev (s : State) (f : Fuses → Fuses) : (s.modFuses f).ev = s.ev := rfl
@[simp] theorem State.modFuses_mbx (s : State) (f : Fuses → Fuses) : (s.modFuses f).mbx = s.mbx := rfl
@[simp] theorem State.modFuses_levee (s : State) (f : Fuses → Fuses) : (s.modFuses f).levee = s.levee := rfl
@[simp] theorem State.modFuses_weir (s : State) (f : Fuses → Fuses) : (s.modFuses f).weir = s.weir := rfl
@[simp] theorem State.modFuses_memErrs (s : State) (f : Fuses → Fuses) : (s.modFuses f).memErrs = s.memErrs := rfl
@[simp] theorem State.modFuses_host (s : State) (f : Fuses → Fuses) : (s.modFuses f).host = s.host := rfl
@[simp] theorem State.modFuses_cfls (s : State) (f : Fuses → Fuses) : (s.modFuses f).cfls = s.cfls := rfl
@[simp] theorem State.modFuses_vote (s : State) (f : Fuses → Fuses) : (s.modFuses f).vote = s.vote := rfl
@[simp] theorem State.modFuses_bks (s : State) (f : Fuses → Fuses) : (s.modFuses f).bks = s.bks := rfl
@[simp] theorem State.modFuses_brook (s : State) (f : Fuses → Fuses) : (s.modFuses f).brook = s.brook := rfl
@[simp] theorem State.modFuses_silt (s : State) (f : Fuses → Fuses) : (s.modFuses f).silt = s.silt := rfl
@[simp] theorem State.modFuses_dma (s : State) (f : Fuses → Fuses) : (s.modFuses f).dma = s.dma := rfl
@[simp] theorem State.modFuses_cores (s : State) (f : Fuses → Fuses) : (s.modFuses f).cores = s.cores := rfl
@[simp] theorem State.modFuses_scS (s : State) (f : Fuses → Fuses) : (s.modFuses f).scS = s.scS := rfl
@[simp] theorem State.modFuses_scV (s : State) (f : Fuses → Fuses) : (s.modFuses f).scV = s.scV := rfl
@[simp] theorem State.modFuses_mon (s : State) (f : Fuses → Fuses) : (s.modFuses f).mon = s.mon := rfl
@[simp] theorem State.modFuses_boot (s : State) (f : Fuses → Fuses) : (s.modFuses f).boot = s.boot := rfl
@[simp] theorem State.modFuses_supply (s : State) (f : Fuses → Fuses) : (s.modFuses f).supply = s.supply := rfl
@[simp] theorem State.modFuses_fuses (s : State) (f : Fuses → Fuses) : (s.modFuses f).fuses = f s.fuses := rfl
@[simp] theorem State.modSupply_pending (s : State) (f : Supply → Supply) : (s.modSupply f).pending = s.pending := rfl
@[simp] theorem State.modSupply_ans (s : State) (f : Supply → Supply) : (s.modSupply f).ans = s.ans := rfl
@[simp] theorem State.modSupply_posted (s : State) (f : Supply → Supply) : (s.modSupply f).posted = s.posted := rfl
@[simp] theorem State.modSupply_freeCtr (s : State) (f : Supply → Supply) : (s.modSupply f).freeCtr = s.freeCtr := rfl
@[simp] theorem State.modSupply_now (s : State) (f : Supply → Supply) : (s.modSupply f).now = s.now := rfl
@[simp] theorem State.modSupply_islands (s : State) (f : Supply → Supply) : (s.modSupply f).islands = s.islands := rfl
@[simp] theorem State.modSupply_latch (s : State) (f : Supply → Supply) : (s.modSupply f).latch = s.latch := rfl
@[simp] theorem State.modSupply_regs (s : State) (f : Supply → Supply) : (s.modSupply f).regs = s.regs := rfl
@[simp] theorem State.modSupply_shadow (s : State) (f : Supply → Supply) : (s.modSupply f).shadow = s.shadow := rfl
@[simp] theorem State.modSupply_mem (s : State) (f : Supply → Supply) : (s.modSupply f).mem = s.mem := rfl
@[simp] theorem State.modSupply_tags (s : State) (f : Supply → Supply) : (s.modSupply f).tags = s.tags := rfl
@[simp] theorem State.modSupply_ue (s : State) (f : Supply → Supply) : (s.modSupply f).ue = s.ue := rfl
@[simp] theorem State.modSupply_hostMem (s : State) (f : Supply → Supply) : (s.modSupply f).hostMem = s.hostMem := rfl
@[simp] theorem State.modSupply_subs (s : State) (f : Supply → Supply) : (s.modSupply f).subs = s.subs := rfl
@[simp] theorem State.modSupply_q (s : State) (f : Supply → Supply) : (s.modSupply f).q = s.q := rfl
@[simp] theorem State.modSupply_reaches (s : State) (f : Supply → Supply) : (s.modSupply f).reaches = s.reaches := rfl
@[simp] theorem State.modSupply_pages (s : State) (f : Supply → Supply) : (s.modSupply f).pages = s.pages := rfl
@[simp] theorem State.modSupply_tes (s : State) (f : Supply → Supply) : (s.modSupply f).tes = s.tes := rfl
@[simp] theorem State.modSupply_mig (s : State) (f : Supply → Supply) : (s.modSupply f).mig = s.mig := rfl
@[simp] theorem State.modSupply_disp (s : State) (f : Supply → Supply) : (s.modSupply f).disp = s.disp := rfl
@[simp] theorem State.modSupply_cu (s : State) (f : Supply → Supply) : (s.modSupply f).cu = s.cu := rfl
@[simp] theorem State.modSupply_pins (s : State) (f : Supply → Supply) : (s.modSupply f).pins = s.pins := rfl
@[simp] theorem State.modSupply_banks (s : State) (f : Supply → Supply) : (s.modSupply f).banks = s.banks := rfl
@[simp] theorem State.modSupply_fd (s : State) (f : Supply → Supply) : (s.modSupply f).fd = s.fd := rfl
@[simp] theorem State.modSupply_sluice (s : State) (f : Supply → Supply) : (s.modSupply f).sluice = s.sluice := rfl
@[simp] theorem State.modSupply_ev (s : State) (f : Supply → Supply) : (s.modSupply f).ev = s.ev := rfl
@[simp] theorem State.modSupply_mbx (s : State) (f : Supply → Supply) : (s.modSupply f).mbx = s.mbx := rfl
@[simp] theorem State.modSupply_levee (s : State) (f : Supply → Supply) : (s.modSupply f).levee = s.levee := rfl
@[simp] theorem State.modSupply_weir (s : State) (f : Supply → Supply) : (s.modSupply f).weir = s.weir := rfl
@[simp] theorem State.modSupply_memErrs (s : State) (f : Supply → Supply) : (s.modSupply f).memErrs = s.memErrs := rfl
@[simp] theorem State.modSupply_host (s : State) (f : Supply → Supply) : (s.modSupply f).host = s.host := rfl
@[simp] theorem State.modSupply_cfls (s : State) (f : Supply → Supply) : (s.modSupply f).cfls = s.cfls := rfl
@[simp] theorem State.modSupply_vote (s : State) (f : Supply → Supply) : (s.modSupply f).vote = s.vote := rfl
@[simp] theorem State.modSupply_bks (s : State) (f : Supply → Supply) : (s.modSupply f).bks = s.bks := rfl
@[simp] theorem State.modSupply_brook (s : State) (f : Supply → Supply) : (s.modSupply f).brook = s.brook := rfl
@[simp] theorem State.modSupply_silt (s : State) (f : Supply → Supply) : (s.modSupply f).silt = s.silt := rfl
@[simp] theorem State.modSupply_dma (s : State) (f : Supply → Supply) : (s.modSupply f).dma = s.dma := rfl
@[simp] theorem State.modSupply_cores (s : State) (f : Supply → Supply) : (s.modSupply f).cores = s.cores := rfl
@[simp] theorem State.modSupply_scS (s : State) (f : Supply → Supply) : (s.modSupply f).scS = s.scS := rfl
@[simp] theorem State.modSupply_scV (s : State) (f : Supply → Supply) : (s.modSupply f).scV = s.scV := rfl
@[simp] theorem State.modSupply_mon (s : State) (f : Supply → Supply) : (s.modSupply f).mon = s.mon := rfl
@[simp] theorem State.modSupply_boot (s : State) (f : Supply → Supply) : (s.modSupply f).boot = s.boot := rfl
@[simp] theorem State.modSupply_fuses (s : State) (f : Supply → Supply) : (s.modSupply f).fuses = s.fuses := rfl
@[simp] theorem State.modSupply_supply (s : State) (f : Supply → Supply) : (s.modSupply f).supply = f s.supply := rfl
@[simp] theorem State.modMb_pending (s : State) (ch : Nat) (cEnd : Bool) (f : MbxEnd → MbxEnd) : (s.modMb ch cEnd f).pending = s.pending := rfl
@[simp] theorem State.modMb_ans (s : State) (ch : Nat) (cEnd : Bool) (f : MbxEnd → MbxEnd) : (s.modMb ch cEnd f).ans = s.ans := rfl
@[simp] theorem State.modMb_posted (s : State) (ch : Nat) (cEnd : Bool) (f : MbxEnd → MbxEnd) : (s.modMb ch cEnd f).posted = s.posted := rfl
@[simp] theorem State.modMb_freeCtr (s : State) (ch : Nat) (cEnd : Bool) (f : MbxEnd → MbxEnd) : (s.modMb ch cEnd f).freeCtr = s.freeCtr := rfl
@[simp] theorem State.modMb_now (s : State) (ch : Nat) (cEnd : Bool) (f : MbxEnd → MbxEnd) : (s.modMb ch cEnd f).now = s.now := rfl
@[simp] theorem State.modMb_islands (s : State) (ch : Nat) (cEnd : Bool) (f : MbxEnd → MbxEnd) : (s.modMb ch cEnd f).islands = s.islands := rfl
@[simp] theorem State.modMb_latch (s : State) (ch : Nat) (cEnd : Bool) (f : MbxEnd → MbxEnd) : (s.modMb ch cEnd f).latch = s.latch := rfl
@[simp] theorem State.modMb_regs (s : State) (ch : Nat) (cEnd : Bool) (f : MbxEnd → MbxEnd) : (s.modMb ch cEnd f).regs = s.regs := rfl
@[simp] theorem State.modMb_shadow (s : State) (ch : Nat) (cEnd : Bool) (f : MbxEnd → MbxEnd) : (s.modMb ch cEnd f).shadow = s.shadow := rfl
@[simp] theorem State.modMb_mem (s : State) (ch : Nat) (cEnd : Bool) (f : MbxEnd → MbxEnd) : (s.modMb ch cEnd f).mem = s.mem := rfl
@[simp] theorem State.modMb_tags (s : State) (ch : Nat) (cEnd : Bool) (f : MbxEnd → MbxEnd) : (s.modMb ch cEnd f).tags = s.tags := rfl
@[simp] theorem State.modMb_ue (s : State) (ch : Nat) (cEnd : Bool) (f : MbxEnd → MbxEnd) : (s.modMb ch cEnd f).ue = s.ue := rfl
@[simp] theorem State.modMb_hostMem (s : State) (ch : Nat) (cEnd : Bool) (f : MbxEnd → MbxEnd) : (s.modMb ch cEnd f).hostMem = s.hostMem := rfl
@[simp] theorem State.modMb_subs (s : State) (ch : Nat) (cEnd : Bool) (f : MbxEnd → MbxEnd) : (s.modMb ch cEnd f).subs = s.subs := rfl
@[simp] theorem State.modMb_q (s : State) (ch : Nat) (cEnd : Bool) (f : MbxEnd → MbxEnd) : (s.modMb ch cEnd f).q = s.q := rfl
@[simp] theorem State.modMb_reaches (s : State) (ch : Nat) (cEnd : Bool) (f : MbxEnd → MbxEnd) : (s.modMb ch cEnd f).reaches = s.reaches := rfl
@[simp] theorem State.modMb_pages (s : State) (ch : Nat) (cEnd : Bool) (f : MbxEnd → MbxEnd) : (s.modMb ch cEnd f).pages = s.pages := rfl
@[simp] theorem State.modMb_tes (s : State) (ch : Nat) (cEnd : Bool) (f : MbxEnd → MbxEnd) : (s.modMb ch cEnd f).tes = s.tes := rfl
@[simp] theorem State.modMb_mig (s : State) (ch : Nat) (cEnd : Bool) (f : MbxEnd → MbxEnd) : (s.modMb ch cEnd f).mig = s.mig := rfl
@[simp] theorem State.modMb_disp (s : State) (ch : Nat) (cEnd : Bool) (f : MbxEnd → MbxEnd) : (s.modMb ch cEnd f).disp = s.disp := rfl
@[simp] theorem State.modMb_cu (s : State) (ch : Nat) (cEnd : Bool) (f : MbxEnd → MbxEnd) : (s.modMb ch cEnd f).cu = s.cu := rfl
@[simp] theorem State.modMb_pins (s : State) (ch : Nat) (cEnd : Bool) (f : MbxEnd → MbxEnd) : (s.modMb ch cEnd f).pins = s.pins := rfl
@[simp] theorem State.modMb_banks (s : State) (ch : Nat) (cEnd : Bool) (f : MbxEnd → MbxEnd) : (s.modMb ch cEnd f).banks = s.banks := rfl
@[simp] theorem State.modMb_fd (s : State) (ch : Nat) (cEnd : Bool) (f : MbxEnd → MbxEnd) : (s.modMb ch cEnd f).fd = s.fd := rfl
@[simp] theorem State.modMb_sluice (s : State) (ch : Nat) (cEnd : Bool) (f : MbxEnd → MbxEnd) : (s.modMb ch cEnd f).sluice = s.sluice := rfl
@[simp] theorem State.modMb_ev (s : State) (ch : Nat) (cEnd : Bool) (f : MbxEnd → MbxEnd) : (s.modMb ch cEnd f).ev = s.ev := rfl
@[simp] theorem State.modMb_levee (s : State) (ch : Nat) (cEnd : Bool) (f : MbxEnd → MbxEnd) : (s.modMb ch cEnd f).levee = s.levee := rfl
@[simp] theorem State.modMb_weir (s : State) (ch : Nat) (cEnd : Bool) (f : MbxEnd → MbxEnd) : (s.modMb ch cEnd f).weir = s.weir := rfl
@[simp] theorem State.modMb_memErrs (s : State) (ch : Nat) (cEnd : Bool) (f : MbxEnd → MbxEnd) : (s.modMb ch cEnd f).memErrs = s.memErrs := rfl
@[simp] theorem State.modMb_host (s : State) (ch : Nat) (cEnd : Bool) (f : MbxEnd → MbxEnd) : (s.modMb ch cEnd f).host = s.host := rfl
@[simp] theorem State.modMb_cfls (s : State) (ch : Nat) (cEnd : Bool) (f : MbxEnd → MbxEnd) : (s.modMb ch cEnd f).cfls = s.cfls := rfl
@[simp] theorem State.modMb_vote (s : State) (ch : Nat) (cEnd : Bool) (f : MbxEnd → MbxEnd) : (s.modMb ch cEnd f).vote = s.vote := rfl
@[simp] theorem State.modMb_bks (s : State) (ch : Nat) (cEnd : Bool) (f : MbxEnd → MbxEnd) : (s.modMb ch cEnd f).bks = s.bks := rfl
@[simp] theorem State.modMb_brook (s : State) (ch : Nat) (cEnd : Bool) (f : MbxEnd → MbxEnd) : (s.modMb ch cEnd f).brook = s.brook := rfl
@[simp] theorem State.modMb_silt (s : State) (ch : Nat) (cEnd : Bool) (f : MbxEnd → MbxEnd) : (s.modMb ch cEnd f).silt = s.silt := rfl
@[simp] theorem State.modMb_dma (s : State) (ch : Nat) (cEnd : Bool) (f : MbxEnd → MbxEnd) : (s.modMb ch cEnd f).dma = s.dma := rfl
@[simp] theorem State.modMb_cores (s : State) (ch : Nat) (cEnd : Bool) (f : MbxEnd → MbxEnd) : (s.modMb ch cEnd f).cores = s.cores := rfl
@[simp] theorem State.modMb_scS (s : State) (ch : Nat) (cEnd : Bool) (f : MbxEnd → MbxEnd) : (s.modMb ch cEnd f).scS = s.scS := rfl
@[simp] theorem State.modMb_scV (s : State) (ch : Nat) (cEnd : Bool) (f : MbxEnd → MbxEnd) : (s.modMb ch cEnd f).scV = s.scV := rfl
@[simp] theorem State.modMb_mon (s : State) (ch : Nat) (cEnd : Bool) (f : MbxEnd → MbxEnd) : (s.modMb ch cEnd f).mon = s.mon := rfl
@[simp] theorem State.modMb_boot (s : State) (ch : Nat) (cEnd : Bool) (f : MbxEnd → MbxEnd) : (s.modMb ch cEnd f).boot = s.boot := rfl
@[simp] theorem State.modMb_fuses (s : State) (ch : Nat) (cEnd : Bool) (f : MbxEnd → MbxEnd) : (s.modMb ch cEnd f).fuses = s.fuses := rfl
@[simp] theorem State.modMb_supply (s : State) (ch : Nat) (cEnd : Bool) (f : MbxEnd → MbxEnd) : (s.modMb ch cEnd f).supply = s.supply := rfl
@[simp] theorem State.setFreeCtr_pending (s : State) (n : Nat) : (s.setFreeCtr n).pending = s.pending := rfl
@[simp] theorem State.setFreeCtr_ans (s : State) (n : Nat) : (s.setFreeCtr n).ans = s.ans := rfl
@[simp] theorem State.setFreeCtr_posted (s : State) (n : Nat) : (s.setFreeCtr n).posted = s.posted := rfl
@[simp] theorem State.setFreeCtr_now (s : State) (n : Nat) : (s.setFreeCtr n).now = s.now := rfl
@[simp] theorem State.setFreeCtr_islands (s : State) (n : Nat) : (s.setFreeCtr n).islands = s.islands := rfl
@[simp] theorem State.setFreeCtr_latch (s : State) (n : Nat) : (s.setFreeCtr n).latch = s.latch := rfl
@[simp] theorem State.setFreeCtr_regs (s : State) (n : Nat) : (s.setFreeCtr n).regs = s.regs := rfl
@[simp] theorem State.setFreeCtr_shadow (s : State) (n : Nat) : (s.setFreeCtr n).shadow = s.shadow := rfl
@[simp] theorem State.setFreeCtr_mem (s : State) (n : Nat) : (s.setFreeCtr n).mem = s.mem := rfl
@[simp] theorem State.setFreeCtr_tags (s : State) (n : Nat) : (s.setFreeCtr n).tags = s.tags := rfl
@[simp] theorem State.setFreeCtr_ue (s : State) (n : Nat) : (s.setFreeCtr n).ue = s.ue := rfl
@[simp] theorem State.setFreeCtr_hostMem (s : State) (n : Nat) : (s.setFreeCtr n).hostMem = s.hostMem := rfl
@[simp] theorem State.setFreeCtr_subs (s : State) (n : Nat) : (s.setFreeCtr n).subs = s.subs := rfl
@[simp] theorem State.setFreeCtr_q (s : State) (n : Nat) : (s.setFreeCtr n).q = s.q := rfl
@[simp] theorem State.setFreeCtr_reaches (s : State) (n : Nat) : (s.setFreeCtr n).reaches = s.reaches := rfl
@[simp] theorem State.setFreeCtr_pages (s : State) (n : Nat) : (s.setFreeCtr n).pages = s.pages := rfl
@[simp] theorem State.setFreeCtr_tes (s : State) (n : Nat) : (s.setFreeCtr n).tes = s.tes := rfl
@[simp] theorem State.setFreeCtr_mig (s : State) (n : Nat) : (s.setFreeCtr n).mig = s.mig := rfl
@[simp] theorem State.setFreeCtr_disp (s : State) (n : Nat) : (s.setFreeCtr n).disp = s.disp := rfl
@[simp] theorem State.setFreeCtr_cu (s : State) (n : Nat) : (s.setFreeCtr n).cu = s.cu := rfl
@[simp] theorem State.setFreeCtr_pins (s : State) (n : Nat) : (s.setFreeCtr n).pins = s.pins := rfl
@[simp] theorem State.setFreeCtr_banks (s : State) (n : Nat) : (s.setFreeCtr n).banks = s.banks := rfl
@[simp] theorem State.setFreeCtr_fd (s : State) (n : Nat) : (s.setFreeCtr n).fd = s.fd := rfl
@[simp] theorem State.setFreeCtr_sluice (s : State) (n : Nat) : (s.setFreeCtr n).sluice = s.sluice := rfl
@[simp] theorem State.setFreeCtr_ev (s : State) (n : Nat) : (s.setFreeCtr n).ev = s.ev := rfl
@[simp] theorem State.setFreeCtr_mbx (s : State) (n : Nat) : (s.setFreeCtr n).mbx = s.mbx := rfl
@[simp] theorem State.setFreeCtr_levee (s : State) (n : Nat) : (s.setFreeCtr n).levee = s.levee := rfl
@[simp] theorem State.setFreeCtr_weir (s : State) (n : Nat) : (s.setFreeCtr n).weir = s.weir := rfl
@[simp] theorem State.setFreeCtr_memErrs (s : State) (n : Nat) : (s.setFreeCtr n).memErrs = s.memErrs := rfl
@[simp] theorem State.setFreeCtr_host (s : State) (n : Nat) : (s.setFreeCtr n).host = s.host := rfl
@[simp] theorem State.setFreeCtr_cfls (s : State) (n : Nat) : (s.setFreeCtr n).cfls = s.cfls := rfl
@[simp] theorem State.setFreeCtr_vote (s : State) (n : Nat) : (s.setFreeCtr n).vote = s.vote := rfl
@[simp] theorem State.setFreeCtr_bks (s : State) (n : Nat) : (s.setFreeCtr n).bks = s.bks := rfl
@[simp] theorem State.setFreeCtr_brook (s : State) (n : Nat) : (s.setFreeCtr n).brook = s.brook := rfl
@[simp] theorem State.setFreeCtr_silt (s : State) (n : Nat) : (s.setFreeCtr n).silt = s.silt := rfl
@[simp] theorem State.setFreeCtr_dma (s : State) (n : Nat) : (s.setFreeCtr n).dma = s.dma := rfl
@[simp] theorem State.setFreeCtr_cores (s : State) (n : Nat) : (s.setFreeCtr n).cores = s.cores := rfl
@[simp] theorem State.setFreeCtr_scS (s : State) (n : Nat) : (s.setFreeCtr n).scS = s.scS := rfl
@[simp] theorem State.setFreeCtr_scV (s : State) (n : Nat) : (s.setFreeCtr n).scV = s.scV := rfl
@[simp] theorem State.setFreeCtr_mon (s : State) (n : Nat) : (s.setFreeCtr n).mon = s.mon := rfl
@[simp] theorem State.setFreeCtr_boot (s : State) (n : Nat) : (s.setFreeCtr n).boot = s.boot := rfl
@[simp] theorem State.setFreeCtr_fuses (s : State) (n : Nat) : (s.setFreeCtr n).fuses = s.fuses := rfl
@[simp] theorem State.setFreeCtr_supply (s : State) (n : Nat) : (s.setFreeCtr n).supply = s.supply := rfl
@[simp] theorem State.setFreeCtr_freeCtr (s : State) (n : Nat) : (s.setFreeCtr n).freeCtr = n := rfl
@[simp] theorem State.answers_pending (s : State) (ws : List Word) : (s.answers ws).pending = s.pending := rfl
@[simp] theorem State.answers_posted (s : State) (ws : List Word) : (s.answers ws).posted = s.posted := rfl
@[simp] theorem State.answers_freeCtr (s : State) (ws : List Word) : (s.answers ws).freeCtr = s.freeCtr := rfl
@[simp] theorem State.answers_now (s : State) (ws : List Word) : (s.answers ws).now = s.now := rfl
@[simp] theorem State.answers_islands (s : State) (ws : List Word) : (s.answers ws).islands = s.islands := rfl
@[simp] theorem State.answers_latch (s : State) (ws : List Word) : (s.answers ws).latch = s.latch := rfl
@[simp] theorem State.answers_regs (s : State) (ws : List Word) : (s.answers ws).regs = s.regs := rfl
@[simp] theorem State.answers_shadow (s : State) (ws : List Word) : (s.answers ws).shadow = s.shadow := rfl
@[simp] theorem State.answers_mem (s : State) (ws : List Word) : (s.answers ws).mem = s.mem := rfl
@[simp] theorem State.answers_tags (s : State) (ws : List Word) : (s.answers ws).tags = s.tags := rfl
@[simp] theorem State.answers_ue (s : State) (ws : List Word) : (s.answers ws).ue = s.ue := rfl
@[simp] theorem State.answers_hostMem (s : State) (ws : List Word) : (s.answers ws).hostMem = s.hostMem := rfl
@[simp] theorem State.answers_subs (s : State) (ws : List Word) : (s.answers ws).subs = s.subs := rfl
@[simp] theorem State.answers_q (s : State) (ws : List Word) : (s.answers ws).q = s.q := rfl
@[simp] theorem State.answers_reaches (s : State) (ws : List Word) : (s.answers ws).reaches = s.reaches := rfl
@[simp] theorem State.answers_pages (s : State) (ws : List Word) : (s.answers ws).pages = s.pages := rfl
@[simp] theorem State.answers_tes (s : State) (ws : List Word) : (s.answers ws).tes = s.tes := rfl
@[simp] theorem State.answers_mig (s : State) (ws : List Word) : (s.answers ws).mig = s.mig := rfl
@[simp] theorem State.answers_disp (s : State) (ws : List Word) : (s.answers ws).disp = s.disp := rfl
@[simp] theorem State.answers_cu (s : State) (ws : List Word) : (s.answers ws).cu = s.cu := rfl
@[simp] theorem State.answers_pins (s : State) (ws : List Word) : (s.answers ws).pins = s.pins := rfl
@[simp] theorem State.answers_banks (s : State) (ws : List Word) : (s.answers ws).banks = s.banks := rfl
@[simp] theorem State.answers_fd (s : State) (ws : List Word) : (s.answers ws).fd = s.fd := rfl
@[simp] theorem State.answers_sluice (s : State) (ws : List Word) : (s.answers ws).sluice = s.sluice := rfl
@[simp] theorem State.answers_ev (s : State) (ws : List Word) : (s.answers ws).ev = s.ev := rfl
@[simp] theorem State.answers_mbx (s : State) (ws : List Word) : (s.answers ws).mbx = s.mbx := rfl
@[simp] theorem State.answers_levee (s : State) (ws : List Word) : (s.answers ws).levee = s.levee := rfl
@[simp] theorem State.answers_weir (s : State) (ws : List Word) : (s.answers ws).weir = s.weir := rfl
@[simp] theorem State.answers_memErrs (s : State) (ws : List Word) : (s.answers ws).memErrs = s.memErrs := rfl
@[simp] theorem State.answers_host (s : State) (ws : List Word) : (s.answers ws).host = s.host := rfl
@[simp] theorem State.answers_cfls (s : State) (ws : List Word) : (s.answers ws).cfls = s.cfls := rfl
@[simp] theorem State.answers_vote (s : State) (ws : List Word) : (s.answers ws).vote = s.vote := rfl
@[simp] theorem State.answers_bks (s : State) (ws : List Word) : (s.answers ws).bks = s.bks := rfl
@[simp] theorem State.answers_brook (s : State) (ws : List Word) : (s.answers ws).brook = s.brook := rfl
@[simp] theorem State.answers_silt (s : State) (ws : List Word) : (s.answers ws).silt = s.silt := rfl
@[simp] theorem State.answers_dma (s : State) (ws : List Word) : (s.answers ws).dma = s.dma := rfl
@[simp] theorem State.answers_cores (s : State) (ws : List Word) : (s.answers ws).cores = s.cores := rfl
@[simp] theorem State.answers_scS (s : State) (ws : List Word) : (s.answers ws).scS = s.scS := rfl
@[simp] theorem State.answers_scV (s : State) (ws : List Word) : (s.answers ws).scV = s.scV := rfl
@[simp] theorem State.answers_mon (s : State) (ws : List Word) : (s.answers ws).mon = s.mon := rfl
@[simp] theorem State.answers_boot (s : State) (ws : List Word) : (s.answers ws).boot = s.boot := rfl
@[simp] theorem State.answers_fuses (s : State) (ws : List Word) : (s.answers ws).fuses = s.fuses := rfl
@[simp] theorem State.answers_supply (s : State) (ws : List Word) : (s.answers ws).supply = s.supply := rfl
@[simp] theorem State.answers_ans (s : State) (ws : List Word) : (s.answers ws).ans = ws := rfl
@[simp] theorem State.setBrookIn_pending (s : State) (a : Nat) (v : Byte) : (s.setBrookIn a v).pending = s.pending := rfl
@[simp] theorem State.setBrookIn_ans (s : State) (a : Nat) (v : Byte) : (s.setBrookIn a v).ans = s.ans := rfl
@[simp] theorem State.setBrookIn_posted (s : State) (a : Nat) (v : Byte) : (s.setBrookIn a v).posted = s.posted := rfl
@[simp] theorem State.setBrookIn_freeCtr (s : State) (a : Nat) (v : Byte) : (s.setBrookIn a v).freeCtr = s.freeCtr := rfl
@[simp] theorem State.setBrookIn_now (s : State) (a : Nat) (v : Byte) : (s.setBrookIn a v).now = s.now := rfl
@[simp] theorem State.setBrookIn_islands (s : State) (a : Nat) (v : Byte) : (s.setBrookIn a v).islands = s.islands := rfl
@[simp] theorem State.setBrookIn_latch (s : State) (a : Nat) (v : Byte) : (s.setBrookIn a v).latch = s.latch := rfl
@[simp] theorem State.setBrookIn_regs (s : State) (a : Nat) (v : Byte) : (s.setBrookIn a v).regs = s.regs := rfl
@[simp] theorem State.setBrookIn_shadow (s : State) (a : Nat) (v : Byte) : (s.setBrookIn a v).shadow = s.shadow := rfl
@[simp] theorem State.setBrookIn_mem (s : State) (a : Nat) (v : Byte) : (s.setBrookIn a v).mem = s.mem := rfl
@[simp] theorem State.setBrookIn_tags (s : State) (a : Nat) (v : Byte) : (s.setBrookIn a v).tags = s.tags := rfl
@[simp] theorem State.setBrookIn_ue (s : State) (a : Nat) (v : Byte) : (s.setBrookIn a v).ue = s.ue := rfl
@[simp] theorem State.setBrookIn_hostMem (s : State) (a : Nat) (v : Byte) : (s.setBrookIn a v).hostMem = s.hostMem := rfl
@[simp] theorem State.setBrookIn_subs (s : State) (a : Nat) (v : Byte) : (s.setBrookIn a v).subs = s.subs := rfl
@[simp] theorem State.setBrookIn_q (s : State) (a : Nat) (v : Byte) : (s.setBrookIn a v).q = s.q := rfl
@[simp] theorem State.setBrookIn_reaches (s : State) (a : Nat) (v : Byte) : (s.setBrookIn a v).reaches = s.reaches := rfl
@[simp] theorem State.setBrookIn_pages (s : State) (a : Nat) (v : Byte) : (s.setBrookIn a v).pages = s.pages := rfl
@[simp] theorem State.setBrookIn_tes (s : State) (a : Nat) (v : Byte) : (s.setBrookIn a v).tes = s.tes := rfl
@[simp] theorem State.setBrookIn_mig (s : State) (a : Nat) (v : Byte) : (s.setBrookIn a v).mig = s.mig := rfl
@[simp] theorem State.setBrookIn_disp (s : State) (a : Nat) (v : Byte) : (s.setBrookIn a v).disp = s.disp := rfl
@[simp] theorem State.setBrookIn_cu (s : State) (a : Nat) (v : Byte) : (s.setBrookIn a v).cu = s.cu := rfl
@[simp] theorem State.setBrookIn_pins (s : State) (a : Nat) (v : Byte) : (s.setBrookIn a v).pins = s.pins := rfl
@[simp] theorem State.setBrookIn_banks (s : State) (a : Nat) (v : Byte) : (s.setBrookIn a v).banks = s.banks := rfl
@[simp] theorem State.setBrookIn_fd (s : State) (a : Nat) (v : Byte) : (s.setBrookIn a v).fd = s.fd := rfl
@[simp] theorem State.setBrookIn_sluice (s : State) (a : Nat) (v : Byte) : (s.setBrookIn a v).sluice = s.sluice := rfl
@[simp] theorem State.setBrookIn_ev (s : State) (a : Nat) (v : Byte) : (s.setBrookIn a v).ev = s.ev := rfl
@[simp] theorem State.setBrookIn_mbx (s : State) (a : Nat) (v : Byte) : (s.setBrookIn a v).mbx = s.mbx := rfl
@[simp] theorem State.setBrookIn_levee (s : State) (a : Nat) (v : Byte) : (s.setBrookIn a v).levee = s.levee := rfl
@[simp] theorem State.setBrookIn_weir (s : State) (a : Nat) (v : Byte) : (s.setBrookIn a v).weir = s.weir := rfl
@[simp] theorem State.setBrookIn_memErrs (s : State) (a : Nat) (v : Byte) : (s.setBrookIn a v).memErrs = s.memErrs := rfl
@[simp] theorem State.setBrookIn_host (s : State) (a : Nat) (v : Byte) : (s.setBrookIn a v).host = s.host := rfl
@[simp] theorem State.setBrookIn_cfls (s : State) (a : Nat) (v : Byte) : (s.setBrookIn a v).cfls = s.cfls := rfl
@[simp] theorem State.setBrookIn_vote (s : State) (a : Nat) (v : Byte) : (s.setBrookIn a v).vote = s.vote := rfl
@[simp] theorem State.setBrookIn_bks (s : State) (a : Nat) (v : Byte) : (s.setBrookIn a v).bks = s.bks := rfl
@[simp] theorem State.setBrookIn_silt (s : State) (a : Nat) (v : Byte) : (s.setBrookIn a v).silt = s.silt := rfl
@[simp] theorem State.setBrookIn_dma (s : State) (a : Nat) (v : Byte) : (s.setBrookIn a v).dma = s.dma := rfl
@[simp] theorem State.setBrookIn_cores (s : State) (a : Nat) (v : Byte) : (s.setBrookIn a v).cores = s.cores := rfl
@[simp] theorem State.setBrookIn_scS (s : State) (a : Nat) (v : Byte) : (s.setBrookIn a v).scS = s.scS := rfl
@[simp] theorem State.setBrookIn_scV (s : State) (a : Nat) (v : Byte) : (s.setBrookIn a v).scV = s.scV := rfl
@[simp] theorem State.setBrookIn_mon (s : State) (a : Nat) (v : Byte) : (s.setBrookIn a v).mon = s.mon := rfl
@[simp] theorem State.setBrookIn_boot (s : State) (a : Nat) (v : Byte) : (s.setBrookIn a v).boot = s.boot := rfl
@[simp] theorem State.setBrookIn_fuses (s : State) (a : Nat) (v : Byte) : (s.setBrookIn a v).fuses = s.fuses := rfl
@[simp] theorem State.setBrookIn_supply (s : State) (a : Nat) (v : Byte) : (s.setBrookIn a v).supply = s.supply := rfl
@[simp] theorem State.setBrookOut_pending (s : State) (p v : Nat) : (s.setBrookOut p v).pending = s.pending := rfl
@[simp] theorem State.setBrookOut_ans (s : State) (p v : Nat) : (s.setBrookOut p v).ans = s.ans := rfl
@[simp] theorem State.setBrookOut_posted (s : State) (p v : Nat) : (s.setBrookOut p v).posted = s.posted := rfl
@[simp] theorem State.setBrookOut_freeCtr (s : State) (p v : Nat) : (s.setBrookOut p v).freeCtr = s.freeCtr := rfl
@[simp] theorem State.setBrookOut_now (s : State) (p v : Nat) : (s.setBrookOut p v).now = s.now := rfl
@[simp] theorem State.setBrookOut_islands (s : State) (p v : Nat) : (s.setBrookOut p v).islands = s.islands := rfl
@[simp] theorem State.setBrookOut_latch (s : State) (p v : Nat) : (s.setBrookOut p v).latch = s.latch := rfl
@[simp] theorem State.setBrookOut_regs (s : State) (p v : Nat) : (s.setBrookOut p v).regs = s.regs := rfl
@[simp] theorem State.setBrookOut_shadow (s : State) (p v : Nat) : (s.setBrookOut p v).shadow = s.shadow := rfl
@[simp] theorem State.setBrookOut_mem (s : State) (p v : Nat) : (s.setBrookOut p v).mem = s.mem := rfl
@[simp] theorem State.setBrookOut_tags (s : State) (p v : Nat) : (s.setBrookOut p v).tags = s.tags := rfl
@[simp] theorem State.setBrookOut_ue (s : State) (p v : Nat) : (s.setBrookOut p v).ue = s.ue := rfl
@[simp] theorem State.setBrookOut_hostMem (s : State) (p v : Nat) : (s.setBrookOut p v).hostMem = s.hostMem := rfl
@[simp] theorem State.setBrookOut_subs (s : State) (p v : Nat) : (s.setBrookOut p v).subs = s.subs := rfl
@[simp] theorem State.setBrookOut_q (s : State) (p v : Nat) : (s.setBrookOut p v).q = s.q := rfl
@[simp] theorem State.setBrookOut_reaches (s : State) (p v : Nat) : (s.setBrookOut p v).reaches = s.reaches := rfl
@[simp] theorem State.setBrookOut_pages (s : State) (p v : Nat) : (s.setBrookOut p v).pages = s.pages := rfl
@[simp] theorem State.setBrookOut_tes (s : State) (p v : Nat) : (s.setBrookOut p v).tes = s.tes := rfl
@[simp] theorem State.setBrookOut_mig (s : State) (p v : Nat) : (s.setBrookOut p v).mig = s.mig := rfl
@[simp] theorem State.setBrookOut_disp (s : State) (p v : Nat) : (s.setBrookOut p v).disp = s.disp := rfl
@[simp] theorem State.setBrookOut_cu (s : State) (p v : Nat) : (s.setBrookOut p v).cu = s.cu := rfl
@[simp] theorem State.setBrookOut_pins (s : State) (p v : Nat) : (s.setBrookOut p v).pins = s.pins := rfl
@[simp] theorem State.setBrookOut_banks (s : State) (p v : Nat) : (s.setBrookOut p v).banks = s.banks := rfl
@[simp] theorem State.setBrookOut_fd (s : State) (p v : Nat) : (s.setBrookOut p v).fd = s.fd := rfl
@[simp] theorem State.setBrookOut_sluice (s : State) (p v : Nat) : (s.setBrookOut p v).sluice = s.sluice := rfl
@[simp] theorem State.setBrookOut_ev (s : State) (p v : Nat) : (s.setBrookOut p v).ev = s.ev := rfl
@[simp] theorem State.setBrookOut_mbx (s : State) (p v : Nat) : (s.setBrookOut p v).mbx = s.mbx := rfl
@[simp] theorem State.setBrookOut_levee (s : State) (p v : Nat) : (s.setBrookOut p v).levee = s.levee := rfl
@[simp] theorem State.setBrookOut_weir (s : State) (p v : Nat) : (s.setBrookOut p v).weir = s.weir := rfl
@[simp] theorem State.setBrookOut_memErrs (s : State) (p v : Nat) : (s.setBrookOut p v).memErrs = s.memErrs := rfl
@[simp] theorem State.setBrookOut_host (s : State) (p v : Nat) : (s.setBrookOut p v).host = s.host := rfl
@[simp] theorem State.setBrookOut_cfls (s : State) (p v : Nat) : (s.setBrookOut p v).cfls = s.cfls := rfl
@[simp] theorem State.setBrookOut_vote (s : State) (p v : Nat) : (s.setBrookOut p v).vote = s.vote := rfl
@[simp] theorem State.setBrookOut_bks (s : State) (p v : Nat) : (s.setBrookOut p v).bks = s.bks := rfl
@[simp] theorem State.setBrookOut_silt (s : State) (p v : Nat) : (s.setBrookOut p v).silt = s.silt := rfl
@[simp] theorem State.setBrookOut_dma (s : State) (p v : Nat) : (s.setBrookOut p v).dma = s.dma := rfl
@[simp] theorem State.setBrookOut_cores (s : State) (p v : Nat) : (s.setBrookOut p v).cores = s.cores := rfl
@[simp] theorem State.setBrookOut_scS (s : State) (p v : Nat) : (s.setBrookOut p v).scS = s.scS := rfl
@[simp] theorem State.setBrookOut_scV (s : State) (p v : Nat) : (s.setBrookOut p v).scV = s.scV := rfl
@[simp] theorem State.setBrookOut_mon (s : State) (p v : Nat) : (s.setBrookOut p v).mon = s.mon := rfl
@[simp] theorem State.setBrookOut_boot (s : State) (p v : Nat) : (s.setBrookOut p v).boot = s.boot := rfl
@[simp] theorem State.setBrookOut_fuses (s : State) (p v : Nat) : (s.setBrookOut p v).fuses = s.fuses := rfl
@[simp] theorem State.setBrookOut_supply (s : State) (p v : Nat) : (s.setBrookOut p v).supply = s.supply := rfl
@[simp] theorem State.setReg_pending (s : State) (o : Nat) (v : Word) : (s.setReg o v).pending = s.pending := rfl
@[simp] theorem State.setReg_ans (s : State) (o : Nat) (v : Word) : (s.setReg o v).ans = s.ans := rfl
@[simp] theorem State.setReg_posted (s : State) (o : Nat) (v : Word) : (s.setReg o v).posted = s.posted := rfl
@[simp] theorem State.setReg_freeCtr (s : State) (o : Nat) (v : Word) : (s.setReg o v).freeCtr = s.freeCtr := rfl
@[simp] theorem State.setReg_now (s : State) (o : Nat) (v : Word) : (s.setReg o v).now = s.now := rfl
@[simp] theorem State.setReg_islands (s : State) (o : Nat) (v : Word) : (s.setReg o v).islands = s.islands := rfl
@[simp] theorem State.setReg_latch (s : State) (o : Nat) (v : Word) : (s.setReg o v).latch = s.latch := rfl
@[simp] theorem State.setReg_shadow (s : State) (o : Nat) (v : Word) : (s.setReg o v).shadow = s.shadow := rfl
@[simp] theorem State.setReg_mem (s : State) (o : Nat) (v : Word) : (s.setReg o v).mem = s.mem := rfl
@[simp] theorem State.setReg_tags (s : State) (o : Nat) (v : Word) : (s.setReg o v).tags = s.tags := rfl
@[simp] theorem State.setReg_ue (s : State) (o : Nat) (v : Word) : (s.setReg o v).ue = s.ue := rfl
@[simp] theorem State.setReg_hostMem (s : State) (o : Nat) (v : Word) : (s.setReg o v).hostMem = s.hostMem := rfl
@[simp] theorem State.setReg_subs (s : State) (o : Nat) (v : Word) : (s.setReg o v).subs = s.subs := rfl
@[simp] theorem State.setReg_q (s : State) (o : Nat) (v : Word) : (s.setReg o v).q = s.q := rfl
@[simp] theorem State.setReg_reaches (s : State) (o : Nat) (v : Word) : (s.setReg o v).reaches = s.reaches := rfl
@[simp] theorem State.setReg_pages (s : State) (o : Nat) (v : Word) : (s.setReg o v).pages = s.pages := rfl
@[simp] theorem State.setReg_tes (s : State) (o : Nat) (v : Word) : (s.setReg o v).tes = s.tes := rfl
@[simp] theorem State.setReg_mig (s : State) (o : Nat) (v : Word) : (s.setReg o v).mig = s.mig := rfl
@[simp] theorem State.setReg_disp (s : State) (o : Nat) (v : Word) : (s.setReg o v).disp = s.disp := rfl
@[simp] theorem State.setReg_cu (s : State) (o : Nat) (v : Word) : (s.setReg o v).cu = s.cu := rfl
@[simp] theorem State.setReg_pins (s : State) (o : Nat) (v : Word) : (s.setReg o v).pins = s.pins := rfl
@[simp] theorem State.setReg_banks (s : State) (o : Nat) (v : Word) : (s.setReg o v).banks = s.banks := rfl
@[simp] theorem State.setReg_fd (s : State) (o : Nat) (v : Word) : (s.setReg o v).fd = s.fd := rfl
@[simp] theorem State.setReg_sluice (s : State) (o : Nat) (v : Word) : (s.setReg o v).sluice = s.sluice := rfl
@[simp] theorem State.setReg_ev (s : State) (o : Nat) (v : Word) : (s.setReg o v).ev = s.ev := rfl
@[simp] theorem State.setReg_mbx (s : State) (o : Nat) (v : Word) : (s.setReg o v).mbx = s.mbx := rfl
@[simp] theorem State.setReg_levee (s : State) (o : Nat) (v : Word) : (s.setReg o v).levee = s.levee := rfl
@[simp] theorem State.setReg_weir (s : State) (o : Nat) (v : Word) : (s.setReg o v).weir = s.weir := rfl
@[simp] theorem State.setReg_memErrs (s : State) (o : Nat) (v : Word) : (s.setReg o v).memErrs = s.memErrs := rfl
@[simp] theorem State.setReg_host (s : State) (o : Nat) (v : Word) : (s.setReg o v).host = s.host := rfl
@[simp] theorem State.setReg_cfls (s : State) (o : Nat) (v : Word) : (s.setReg o v).cfls = s.cfls := rfl
@[simp] theorem State.setReg_vote (s : State) (o : Nat) (v : Word) : (s.setReg o v).vote = s.vote := rfl
@[simp] theorem State.setReg_bks (s : State) (o : Nat) (v : Word) : (s.setReg o v).bks = s.bks := rfl
@[simp] theorem State.setReg_brook (s : State) (o : Nat) (v : Word) : (s.setReg o v).brook = s.brook := rfl
@[simp] theorem State.setReg_silt (s : State) (o : Nat) (v : Word) : (s.setReg o v).silt = s.silt := rfl
@[simp] theorem State.setReg_dma (s : State) (o : Nat) (v : Word) : (s.setReg o v).dma = s.dma := rfl
@[simp] theorem State.setReg_cores (s : State) (o : Nat) (v : Word) : (s.setReg o v).cores = s.cores := rfl
@[simp] theorem State.setReg_scS (s : State) (o : Nat) (v : Word) : (s.setReg o v).scS = s.scS := rfl
@[simp] theorem State.setReg_scV (s : State) (o : Nat) (v : Word) : (s.setReg o v).scV = s.scV := rfl
@[simp] theorem State.setReg_mon (s : State) (o : Nat) (v : Word) : (s.setReg o v).mon = s.mon := rfl
@[simp] theorem State.setReg_boot (s : State) (o : Nat) (v : Word) : (s.setReg o v).boot = s.boot := rfl
@[simp] theorem State.setReg_fuses (s : State) (o : Nat) (v : Word) : (s.setReg o v).fuses = s.fuses := rfl
@[simp] theorem State.setReg_supply (s : State) (o : Nat) (v : Word) : (s.setReg o v).supply = s.supply := rfl
@[simp] theorem State.setShadow_pending (s : State) (o : Nat) (v : Word) : (s.setShadow o v).pending = s.pending := rfl
@[simp] theorem State.setShadow_ans (s : State) (o : Nat) (v : Word) : (s.setShadow o v).ans = s.ans := rfl
@[simp] theorem State.setShadow_posted (s : State) (o : Nat) (v : Word) : (s.setShadow o v).posted = s.posted := rfl
@[simp] theorem State.setShadow_freeCtr (s : State) (o : Nat) (v : Word) : (s.setShadow o v).freeCtr = s.freeCtr := rfl
@[simp] theorem State.setShadow_now (s : State) (o : Nat) (v : Word) : (s.setShadow o v).now = s.now := rfl
@[simp] theorem State.setShadow_islands (s : State) (o : Nat) (v : Word) : (s.setShadow o v).islands = s.islands := rfl
@[simp] theorem State.setShadow_latch (s : State) (o : Nat) (v : Word) : (s.setShadow o v).latch = s.latch := rfl
@[simp] theorem State.setShadow_regs (s : State) (o : Nat) (v : Word) : (s.setShadow o v).regs = s.regs := rfl
@[simp] theorem State.setShadow_mem (s : State) (o : Nat) (v : Word) : (s.setShadow o v).mem = s.mem := rfl
@[simp] theorem State.setShadow_tags (s : State) (o : Nat) (v : Word) : (s.setShadow o v).tags = s.tags := rfl
@[simp] theorem State.setShadow_ue (s : State) (o : Nat) (v : Word) : (s.setShadow o v).ue = s.ue := rfl
@[simp] theorem State.setShadow_hostMem (s : State) (o : Nat) (v : Word) : (s.setShadow o v).hostMem = s.hostMem := rfl
@[simp] theorem State.setShadow_subs (s : State) (o : Nat) (v : Word) : (s.setShadow o v).subs = s.subs := rfl
@[simp] theorem State.setShadow_q (s : State) (o : Nat) (v : Word) : (s.setShadow o v).q = s.q := rfl
@[simp] theorem State.setShadow_reaches (s : State) (o : Nat) (v : Word) : (s.setShadow o v).reaches = s.reaches := rfl
@[simp] theorem State.setShadow_pages (s : State) (o : Nat) (v : Word) : (s.setShadow o v).pages = s.pages := rfl
@[simp] theorem State.setShadow_tes (s : State) (o : Nat) (v : Word) : (s.setShadow o v).tes = s.tes := rfl
@[simp] theorem State.setShadow_mig (s : State) (o : Nat) (v : Word) : (s.setShadow o v).mig = s.mig := rfl
@[simp] theorem State.setShadow_disp (s : State) (o : Nat) (v : Word) : (s.setShadow o v).disp = s.disp := rfl
@[simp] theorem State.setShadow_cu (s : State) (o : Nat) (v : Word) : (s.setShadow o v).cu = s.cu := rfl
@[simp] theorem State.setShadow_pins (s : State) (o : Nat) (v : Word) : (s.setShadow o v).pins = s.pins := rfl
@[simp] theorem State.setShadow_banks (s : State) (o : Nat) (v : Word) : (s.setShadow o v).banks = s.banks := rfl
@[simp] theorem State.setShadow_fd (s : State) (o : Nat) (v : Word) : (s.setShadow o v).fd = s.fd := rfl
@[simp] theorem State.setShadow_sluice (s : State) (o : Nat) (v : Word) : (s.setShadow o v).sluice = s.sluice := rfl
@[simp] theorem State.setShadow_ev (s : State) (o : Nat) (v : Word) : (s.setShadow o v).ev = s.ev := rfl
@[simp] theorem State.setShadow_mbx (s : State) (o : Nat) (v : Word) : (s.setShadow o v).mbx = s.mbx := rfl
@[simp] theorem State.setShadow_levee (s : State) (o : Nat) (v : Word) : (s.setShadow o v).levee = s.levee := rfl
@[simp] theorem State.setShadow_weir (s : State) (o : Nat) (v : Word) : (s.setShadow o v).weir = s.weir := rfl
@[simp] theorem State.setShadow_memErrs (s : State) (o : Nat) (v : Word) : (s.setShadow o v).memErrs = s.memErrs := rfl
@[simp] theorem State.setShadow_host (s : State) (o : Nat) (v : Word) : (s.setShadow o v).host = s.host := rfl
@[simp] theorem State.setShadow_cfls (s : State) (o : Nat) (v : Word) : (s.setShadow o v).cfls = s.cfls := rfl
@[simp] theorem State.setShadow_vote (s : State) (o : Nat) (v : Word) : (s.setShadow o v).vote = s.vote := rfl
@[simp] theorem State.setShadow_bks (s : State) (o : Nat) (v : Word) : (s.setShadow o v).bks = s.bks := rfl
@[simp] theorem State.setShadow_brook (s : State) (o : Nat) (v : Word) : (s.setShadow o v).brook = s.brook := rfl
@[simp] theorem State.setShadow_silt (s : State) (o : Nat) (v : Word) : (s.setShadow o v).silt = s.silt := rfl
@[simp] theorem State.setShadow_dma (s : State) (o : Nat) (v : Word) : (s.setShadow o v).dma = s.dma := rfl
@[simp] theorem State.setShadow_cores (s : State) (o : Nat) (v : Word) : (s.setShadow o v).cores = s.cores := rfl
@[simp] theorem State.setShadow_scS (s : State) (o : Nat) (v : Word) : (s.setShadow o v).scS = s.scS := rfl
@[simp] theorem State.setShadow_scV (s : State) (o : Nat) (v : Word) : (s.setShadow o v).scV = s.scV := rfl
@[simp] theorem State.setShadow_mon (s : State) (o : Nat) (v : Word) : (s.setShadow o v).mon = s.mon := rfl
@[simp] theorem State.setShadow_boot (s : State) (o : Nat) (v : Word) : (s.setShadow o v).boot = s.boot := rfl
@[simp] theorem State.setShadow_fuses (s : State) (o : Nat) (v : Word) : (s.setShadow o v).fuses = s.fuses := rfl
@[simp] theorem State.setShadow_supply (s : State) (o : Nat) (v : Word) : (s.setShadow o v).supply = s.supply := rfl
@[simp] theorem State.clearShadow_pending (s : State) (o : Nat) : (s.clearShadow o).pending = s.pending := rfl
@[simp] theorem State.clearShadow_ans (s : State) (o : Nat) : (s.clearShadow o).ans = s.ans := rfl
@[simp] theorem State.clearShadow_posted (s : State) (o : Nat) : (s.clearShadow o).posted = s.posted := rfl
@[simp] theorem State.clearShadow_freeCtr (s : State) (o : Nat) : (s.clearShadow o).freeCtr = s.freeCtr := rfl
@[simp] theorem State.clearShadow_now (s : State) (o : Nat) : (s.clearShadow o).now = s.now := rfl
@[simp] theorem State.clearShadow_islands (s : State) (o : Nat) : (s.clearShadow o).islands = s.islands := rfl
@[simp] theorem State.clearShadow_latch (s : State) (o : Nat) : (s.clearShadow o).latch = s.latch := rfl
@[simp] theorem State.clearShadow_regs (s : State) (o : Nat) : (s.clearShadow o).regs = s.regs := rfl
@[simp] theorem State.clearShadow_mem (s : State) (o : Nat) : (s.clearShadow o).mem = s.mem := rfl
@[simp] theorem State.clearShadow_tags (s : State) (o : Nat) : (s.clearShadow o).tags = s.tags := rfl
@[simp] theorem State.clearShadow_ue (s : State) (o : Nat) : (s.clearShadow o).ue = s.ue := rfl
@[simp] theorem State.clearShadow_hostMem (s : State) (o : Nat) : (s.clearShadow o).hostMem = s.hostMem := rfl
@[simp] theorem State.clearShadow_subs (s : State) (o : Nat) : (s.clearShadow o).subs = s.subs := rfl
@[simp] theorem State.clearShadow_q (s : State) (o : Nat) : (s.clearShadow o).q = s.q := rfl
@[simp] theorem State.clearShadow_reaches (s : State) (o : Nat) : (s.clearShadow o).reaches = s.reaches := rfl
@[simp] theorem State.clearShadow_pages (s : State) (o : Nat) : (s.clearShadow o).pages = s.pages := rfl
@[simp] theorem State.clearShadow_tes (s : State) (o : Nat) : (s.clearShadow o).tes = s.tes := rfl
@[simp] theorem State.clearShadow_mig (s : State) (o : Nat) : (s.clearShadow o).mig = s.mig := rfl
@[simp] theorem State.clearShadow_disp (s : State) (o : Nat) : (s.clearShadow o).disp = s.disp := rfl
@[simp] theorem State.clearShadow_cu (s : State) (o : Nat) : (s.clearShadow o).cu = s.cu := rfl
@[simp] theorem State.clearShadow_pins (s : State) (o : Nat) : (s.clearShadow o).pins = s.pins := rfl
@[simp] theorem State.clearShadow_banks (s : State) (o : Nat) : (s.clearShadow o).banks = s.banks := rfl
@[simp] theorem State.clearShadow_fd (s : State) (o : Nat) : (s.clearShadow o).fd = s.fd := rfl
@[simp] theorem State.clearShadow_sluice (s : State) (o : Nat) : (s.clearShadow o).sluice = s.sluice := rfl
@[simp] theorem State.clearShadow_ev (s : State) (o : Nat) : (s.clearShadow o).ev = s.ev := rfl
@[simp] theorem State.clearShadow_mbx (s : State) (o : Nat) : (s.clearShadow o).mbx = s.mbx := rfl
@[simp] theorem State.clearShadow_levee (s : State) (o : Nat) : (s.clearShadow o).levee = s.levee := rfl
@[simp] theorem State.clearShadow_weir (s : State) (o : Nat) : (s.clearShadow o).weir = s.weir := rfl
@[simp] theorem State.clearShadow_memErrs (s : State) (o : Nat) : (s.clearShadow o).memErrs = s.memErrs := rfl
@[simp] theorem State.clearShadow_host (s : State) (o : Nat) : (s.clearShadow o).host = s.host := rfl
@[simp] theorem State.clearShadow_cfls (s : State) (o : Nat) : (s.clearShadow o).cfls = s.cfls := rfl
@[simp] theorem State.clearShadow_vote (s : State) (o : Nat) : (s.clearShadow o).vote = s.vote := rfl
@[simp] theorem State.clearShadow_bks (s : State) (o : Nat) : (s.clearShadow o).bks = s.bks := rfl
@[simp] theorem State.clearShadow_brook (s : State) (o : Nat) : (s.clearShadow o).brook = s.brook := rfl
@[simp] theorem State.clearShadow_silt (s : State) (o : Nat) : (s.clearShadow o).silt = s.silt := rfl
@[simp] theorem State.clearShadow_dma (s : State) (o : Nat) : (s.clearShadow o).dma = s.dma := rfl
@[simp] theorem State.clearShadow_cores (s : State) (o : Nat) : (s.clearShadow o).cores = s.cores := rfl
@[simp] theorem State.clearShadow_scS (s : State) (o : Nat) : (s.clearShadow o).scS = s.scS := rfl
@[simp] theorem State.clearShadow_scV (s : State) (o : Nat) : (s.clearShadow o).scV = s.scV := rfl
@[simp] theorem State.clearShadow_mon (s : State) (o : Nat) : (s.clearShadow o).mon = s.mon := rfl
@[simp] theorem State.clearShadow_boot (s : State) (o : Nat) : (s.clearShadow o).boot = s.boot := rfl
@[simp] theorem State.clearShadow_fuses (s : State) (o : Nat) : (s.clearShadow o).fuses = s.fuses := rfl
@[simp] theorem State.clearShadow_supply (s : State) (o : Nat) : (s.clearShadow o).supply = s.supply := rfl
@[simp] theorem State.modSc_pending (s : State) (k : Nat) (f : ScSt → ScSt) : (s.modSc k f).pending = s.pending := by
  unfold State.modSc; split <;> rfl
@[simp] theorem State.modSc_ans (s : State) (k : Nat) (f : ScSt → ScSt) : (s.modSc k f).ans = s.ans := by
  unfold State.modSc; split <;> rfl
@[simp] theorem State.modSc_posted (s : State) (k : Nat) (f : ScSt → ScSt) : (s.modSc k f).posted = s.posted := by
  unfold State.modSc; split <;> rfl
@[simp] theorem State.modSc_freeCtr (s : State) (k : Nat) (f : ScSt → ScSt) : (s.modSc k f).freeCtr = s.freeCtr := by
  unfold State.modSc; split <;> rfl
@[simp] theorem State.modSc_now (s : State) (k : Nat) (f : ScSt → ScSt) : (s.modSc k f).now = s.now := by
  unfold State.modSc; split <;> rfl
@[simp] theorem State.modSc_islands (s : State) (k : Nat) (f : ScSt → ScSt) : (s.modSc k f).islands = s.islands := by
  unfold State.modSc; split <;> rfl
@[simp] theorem State.modSc_latch (s : State) (k : Nat) (f : ScSt → ScSt) : (s.modSc k f).latch = s.latch := by
  unfold State.modSc; split <;> rfl
@[simp] theorem State.modSc_regs (s : State) (k : Nat) (f : ScSt → ScSt) : (s.modSc k f).regs = s.regs := by
  unfold State.modSc; split <;> rfl
@[simp] theorem State.modSc_shadow (s : State) (k : Nat) (f : ScSt → ScSt) : (s.modSc k f).shadow = s.shadow := by
  unfold State.modSc; split <;> rfl
@[simp] theorem State.modSc_mem (s : State) (k : Nat) (f : ScSt → ScSt) : (s.modSc k f).mem = s.mem := by
  unfold State.modSc; split <;> rfl
@[simp] theorem State.modSc_tags (s : State) (k : Nat) (f : ScSt → ScSt) : (s.modSc k f).tags = s.tags := by
  unfold State.modSc; split <;> rfl
@[simp] theorem State.modSc_ue (s : State) (k : Nat) (f : ScSt → ScSt) : (s.modSc k f).ue = s.ue := by
  unfold State.modSc; split <;> rfl
@[simp] theorem State.modSc_hostMem (s : State) (k : Nat) (f : ScSt → ScSt) : (s.modSc k f).hostMem = s.hostMem := by
  unfold State.modSc; split <;> rfl
@[simp] theorem State.modSc_subs (s : State) (k : Nat) (f : ScSt → ScSt) : (s.modSc k f).subs = s.subs := by
  unfold State.modSc; split <;> rfl
@[simp] theorem State.modSc_q (s : State) (k : Nat) (f : ScSt → ScSt) : (s.modSc k f).q = s.q := by
  unfold State.modSc; split <;> rfl
@[simp] theorem State.modSc_reaches (s : State) (k : Nat) (f : ScSt → ScSt) : (s.modSc k f).reaches = s.reaches := by
  unfold State.modSc; split <;> rfl
@[simp] theorem State.modSc_pages (s : State) (k : Nat) (f : ScSt → ScSt) : (s.modSc k f).pages = s.pages := by
  unfold State.modSc; split <;> rfl
@[simp] theorem State.modSc_tes (s : State) (k : Nat) (f : ScSt → ScSt) : (s.modSc k f).tes = s.tes := by
  unfold State.modSc; split <;> rfl
@[simp] theorem State.modSc_mig (s : State) (k : Nat) (f : ScSt → ScSt) : (s.modSc k f).mig = s.mig := by
  unfold State.modSc; split <;> rfl
@[simp] theorem State.modSc_disp (s : State) (k : Nat) (f : ScSt → ScSt) : (s.modSc k f).disp = s.disp := by
  unfold State.modSc; split <;> rfl
@[simp] theorem State.modSc_cu (s : State) (k : Nat) (f : ScSt → ScSt) : (s.modSc k f).cu = s.cu := by
  unfold State.modSc; split <;> rfl
@[simp] theorem State.modSc_pins (s : State) (k : Nat) (f : ScSt → ScSt) : (s.modSc k f).pins = s.pins := by
  unfold State.modSc; split <;> rfl
@[simp] theorem State.modSc_banks (s : State) (k : Nat) (f : ScSt → ScSt) : (s.modSc k f).banks = s.banks := by
  unfold State.modSc; split <;> rfl
@[simp] theorem State.modSc_fd (s : State) (k : Nat) (f : ScSt → ScSt) : (s.modSc k f).fd = s.fd := by
  unfold State.modSc; split <;> rfl
@[simp] theorem State.modSc_sluice (s : State) (k : Nat) (f : ScSt → ScSt) : (s.modSc k f).sluice = s.sluice := by
  unfold State.modSc; split <;> rfl
@[simp] theorem State.modSc_ev (s : State) (k : Nat) (f : ScSt → ScSt) : (s.modSc k f).ev = s.ev := by
  unfold State.modSc; split <;> rfl
@[simp] theorem State.modSc_mbx (s : State) (k : Nat) (f : ScSt → ScSt) : (s.modSc k f).mbx = s.mbx := by
  unfold State.modSc; split <;> rfl
@[simp] theorem State.modSc_levee (s : State) (k : Nat) (f : ScSt → ScSt) : (s.modSc k f).levee = s.levee := by
  unfold State.modSc; split <;> rfl
@[simp] theorem State.modSc_weir (s : State) (k : Nat) (f : ScSt → ScSt) : (s.modSc k f).weir = s.weir := by
  unfold State.modSc; split <;> rfl
@[simp] theorem State.modSc_memErrs (s : State) (k : Nat) (f : ScSt → ScSt) : (s.modSc k f).memErrs = s.memErrs := by
  unfold State.modSc; split <;> rfl
@[simp] theorem State.modSc_host (s : State) (k : Nat) (f : ScSt → ScSt) : (s.modSc k f).host = s.host := by
  unfold State.modSc; split <;> rfl
@[simp] theorem State.modSc_cfls (s : State) (k : Nat) (f : ScSt → ScSt) : (s.modSc k f).cfls = s.cfls := by
  unfold State.modSc; split <;> rfl
@[simp] theorem State.modSc_vote (s : State) (k : Nat) (f : ScSt → ScSt) : (s.modSc k f).vote = s.vote := by
  unfold State.modSc; split <;> rfl
@[simp] theorem State.modSc_bks (s : State) (k : Nat) (f : ScSt → ScSt) : (s.modSc k f).bks = s.bks := by
  unfold State.modSc; split <;> rfl
@[simp] theorem State.modSc_brook (s : State) (k : Nat) (f : ScSt → ScSt) : (s.modSc k f).brook = s.brook := by
  unfold State.modSc; split <;> rfl
@[simp] theorem State.modSc_silt (s : State) (k : Nat) (f : ScSt → ScSt) : (s.modSc k f).silt = s.silt := by
  unfold State.modSc; split <;> rfl
@[simp] theorem State.modSc_dma (s : State) (k : Nat) (f : ScSt → ScSt) : (s.modSc k f).dma = s.dma := by
  unfold State.modSc; split <;> rfl
@[simp] theorem State.modSc_cores (s : State) (k : Nat) (f : ScSt → ScSt) : (s.modSc k f).cores = s.cores := by
  unfold State.modSc; split <;> rfl
@[simp] theorem State.modSc_mon (s : State) (k : Nat) (f : ScSt → ScSt) : (s.modSc k f).mon = s.mon := by
  unfold State.modSc; split <;> rfl
@[simp] theorem State.modSc_boot (s : State) (k : Nat) (f : ScSt → ScSt) : (s.modSc k f).boot = s.boot := by
  unfold State.modSc; split <;> rfl
@[simp] theorem State.modSc_fuses (s : State) (k : Nat) (f : ScSt → ScSt) : (s.modSc k f).fuses = s.fuses := by
  unfold State.modSc; split <;> rfl
@[simp] theorem State.modSc_supply (s : State) (k : Nat) (f : ScSt → ScSt) : (s.modSc k f).supply = s.supply := by
  unfold State.modSc; split <;> rfl
@[simp] theorem State.setTag_pending (s : State) (a : Nat) (b : Bool) : (s.setTag a b).pending = s.pending := by
  unfold State.setTag; split <;> split <;> rfl
@[simp] theorem State.setTag_ans (s : State) (a : Nat) (b : Bool) : (s.setTag a b).ans = s.ans := by
  unfold State.setTag; split <;> split <;> rfl
@[simp] theorem State.setTag_posted (s : State) (a : Nat) (b : Bool) : (s.setTag a b).posted = s.posted := by
  unfold State.setTag; split <;> split <;> rfl
@[simp] theorem State.setTag_freeCtr (s : State) (a : Nat) (b : Bool) : (s.setTag a b).freeCtr = s.freeCtr := by
  unfold State.setTag; split <;> split <;> rfl
@[simp] theorem State.setTag_now (s : State) (a : Nat) (b : Bool) : (s.setTag a b).now = s.now := by
  unfold State.setTag; split <;> split <;> rfl
@[simp] theorem State.setTag_islands (s : State) (a : Nat) (b : Bool) : (s.setTag a b).islands = s.islands := by
  unfold State.setTag; split <;> split <;> rfl
@[simp] theorem State.setTag_latch (s : State) (a : Nat) (b : Bool) : (s.setTag a b).latch = s.latch := by
  unfold State.setTag; split <;> split <;> rfl
@[simp] theorem State.setTag_regs (s : State) (a : Nat) (b : Bool) : (s.setTag a b).regs = s.regs := by
  unfold State.setTag; split <;> split <;> rfl
@[simp] theorem State.setTag_shadow (s : State) (a : Nat) (b : Bool) : (s.setTag a b).shadow = s.shadow := by
  unfold State.setTag; split <;> split <;> rfl
@[simp] theorem State.setTag_mem (s : State) (a : Nat) (b : Bool) : (s.setTag a b).mem = s.mem := by
  unfold State.setTag; split <;> split <;> rfl
@[simp] theorem State.setTag_ue (s : State) (a : Nat) (b : Bool) : (s.setTag a b).ue = s.ue := by
  unfold State.setTag; split <;> split <;> rfl
@[simp] theorem State.setTag_hostMem (s : State) (a : Nat) (b : Bool) : (s.setTag a b).hostMem = s.hostMem := by
  unfold State.setTag; split <;> split <;> rfl
@[simp] theorem State.setTag_subs (s : State) (a : Nat) (b : Bool) : (s.setTag a b).subs = s.subs := by
  unfold State.setTag; split <;> split <;> rfl
@[simp] theorem State.setTag_q (s : State) (a : Nat) (b : Bool) : (s.setTag a b).q = s.q := by
  unfold State.setTag; split <;> split <;> rfl
@[simp] theorem State.setTag_reaches (s : State) (a : Nat) (b : Bool) : (s.setTag a b).reaches = s.reaches := by
  unfold State.setTag; split <;> split <;> rfl
@[simp] theorem State.setTag_pages (s : State) (a : Nat) (b : Bool) : (s.setTag a b).pages = s.pages := by
  unfold State.setTag; split <;> split <;> rfl
@[simp] theorem State.setTag_tes (s : State) (a : Nat) (b : Bool) : (s.setTag a b).tes = s.tes := by
  unfold State.setTag; split <;> split <;> rfl
@[simp] theorem State.setTag_mig (s : State) (a : Nat) (b : Bool) : (s.setTag a b).mig = s.mig := by
  unfold State.setTag; split <;> split <;> rfl
@[simp] theorem State.setTag_disp (s : State) (a : Nat) (b : Bool) : (s.setTag a b).disp = s.disp := by
  unfold State.setTag; split <;> split <;> rfl
@[simp] theorem State.setTag_cu (s : State) (a : Nat) (b : Bool) : (s.setTag a b).cu = s.cu := by
  unfold State.setTag; split <;> split <;> rfl
@[simp] theorem State.setTag_pins (s : State) (a : Nat) (b : Bool) : (s.setTag a b).pins = s.pins := by
  unfold State.setTag; split <;> split <;> rfl
@[simp] theorem State.setTag_banks (s : State) (a : Nat) (b : Bool) : (s.setTag a b).banks = s.banks := by
  unfold State.setTag; split <;> split <;> rfl
@[simp] theorem State.setTag_fd (s : State) (a : Nat) (b : Bool) : (s.setTag a b).fd = s.fd := by
  unfold State.setTag; split <;> split <;> rfl
@[simp] theorem State.setTag_sluice (s : State) (a : Nat) (b : Bool) : (s.setTag a b).sluice = s.sluice := by
  unfold State.setTag; split <;> split <;> rfl
@[simp] theorem State.setTag_ev (s : State) (a : Nat) (b : Bool) : (s.setTag a b).ev = s.ev := by
  unfold State.setTag; split <;> split <;> rfl
@[simp] theorem State.setTag_mbx (s : State) (a : Nat) (b : Bool) : (s.setTag a b).mbx = s.mbx := by
  unfold State.setTag; split <;> split <;> rfl
@[simp] theorem State.setTag_levee (s : State) (a : Nat) (b : Bool) : (s.setTag a b).levee = s.levee := by
  unfold State.setTag; split <;> split <;> rfl
@[simp] theorem State.setTag_weir (s : State) (a : Nat) (b : Bool) : (s.setTag a b).weir = s.weir := by
  unfold State.setTag; split <;> split <;> rfl
@[simp] theorem State.setTag_memErrs (s : State) (a : Nat) (b : Bool) : (s.setTag a b).memErrs = s.memErrs := by
  unfold State.setTag; split <;> split <;> rfl
@[simp] theorem State.setTag_host (s : State) (a : Nat) (b : Bool) : (s.setTag a b).host = s.host := by
  unfold State.setTag; split <;> split <;> rfl
@[simp] theorem State.setTag_cfls (s : State) (a : Nat) (b : Bool) : (s.setTag a b).cfls = s.cfls := by
  unfold State.setTag; split <;> split <;> rfl
@[simp] theorem State.setTag_vote (s : State) (a : Nat) (b : Bool) : (s.setTag a b).vote = s.vote := by
  unfold State.setTag; split <;> split <;> rfl
@[simp] theorem State.setTag_bks (s : State) (a : Nat) (b : Bool) : (s.setTag a b).bks = s.bks := by
  unfold State.setTag; split <;> split <;> rfl
@[simp] theorem State.setTag_brook (s : State) (a : Nat) (b : Bool) : (s.setTag a b).brook = s.brook := by
  unfold State.setTag; split <;> split <;> rfl
@[simp] theorem State.setTag_silt (s : State) (a : Nat) (b : Bool) : (s.setTag a b).silt = s.silt := by
  unfold State.setTag; split <;> split <;> rfl
@[simp] theorem State.setTag_dma (s : State) (a : Nat) (b : Bool) : (s.setTag a b).dma = s.dma := by
  unfold State.setTag; split <;> split <;> rfl
@[simp] theorem State.setTag_cores (s : State) (a : Nat) (b : Bool) : (s.setTag a b).cores = s.cores := by
  unfold State.setTag; split <;> split <;> rfl
@[simp] theorem State.setTag_scS (s : State) (a : Nat) (b : Bool) : (s.setTag a b).scS = s.scS := by
  unfold State.setTag; split <;> split <;> rfl
@[simp] theorem State.setTag_scV (s : State) (a : Nat) (b : Bool) : (s.setTag a b).scV = s.scV := by
  unfold State.setTag; split <;> split <;> rfl
@[simp] theorem State.setTag_mon (s : State) (a : Nat) (b : Bool) : (s.setTag a b).mon = s.mon := by
  unfold State.setTag; split <;> split <;> rfl
@[simp] theorem State.setTag_boot (s : State) (a : Nat) (b : Bool) : (s.setTag a b).boot = s.boot := by
  unfold State.setTag; split <;> split <;> rfl
@[simp] theorem State.setTag_fuses (s : State) (a : Nat) (b : Bool) : (s.setTag a b).fuses = s.fuses := by
  unfold State.setTag; split <;> split <;> rfl
@[simp] theorem State.setTag_supply (s : State) (a : Nat) (b : Bool) : (s.setTag a b).supply = s.supply := by
  unfold State.setTag; split <;> split <;> rfl

end Sys2Proof.Machine
end

