-- ==== Sys2Proof/Laws/Tables.lean ====
section
/-! SUPPORT. Reading a table entry, a register or a list element back after a write. -/

namespace Sys2Proof.Machine

/-! ### Tables and lists -/

theorem tget?_tset {α : Type} (t : Tbl α) (k j : Nat) (v : α) : tget? (tset t k v) j = if k = j then some v else tget? t j := by
  induction t with
  | nil => simp [tset, tget?]
  | cons e t ih =>
    obtain ⟨i, u⟩ := e
    simp only [tset]
    split
    · simp [tget?]
    · split
      · subst_vars
        simp only [tget?]
        split <;> rfl
      · simp only [tget?, ih]
        split
        · subst_vars
          rw [if_neg (by omega)]
        · rfl

@[simp] theorem tget_tset {α : Type} (d : α) (t : Tbl α) (k j : Nat) (v : α) :
    tget d (tset t k v) j = if k = j then v else tget d t j := by
  simp only [tget, tget?_tset]
  split <;> rfl

@[simp] theorem tget_tmod {α : Type} (d : α) (t : Tbl α) (k j : Nat) (f : α → α) :
    tget d (tmod d t k f) j = if k = j then f (tget d t k) else tget d t j := by
  simp [tmod]

@[simp] theorem tget_nil {α : Type} (d : α) (k : Nat) : tget d ([] : Tbl α) k = d := rfl

theorem tget?_tdel {α : Type} (t : Tbl α) (k j : Nat) : tget? (tdel t k) j = if k = j then none else tget? t j := by
  induction t with
  | nil => simp [tdel, tget?]
  | cons e t ih =>
    obtain ⟨i, u⟩ := e
    simp only [tdel] at ih
    simp only [tdel, List.filter]
    by_cases h : i = k
    · simp only [h, bne_self_eq_false, tget?, ih]
      split <;> simp_all
    · have : (i != k) = true := by simpa using h
      simp only [this, tget?, ih]
      split <;> split <;> simp_all

@[simp] theorem tget_tdel {α : Type} (d : α) (t : Tbl α) (k j : Nat) :
    tget d (tdel t k) j = if k = j then d else tget d t j := by
  simp only [tget, tget?_tdel]
  split <;> rfl

@[simp] theorem nth_setNth {α : Type} (d : α) (l : List α) (i j : Nat) (v : α) :
    nth d (setNth l i v) j = if i = j ∧ i < l.length then v else nth d l j := by
  simp only [nth, setNth, List.getElem?_set]
  by_cases h : i = j
  · subst h
    by_cases h' : i < l.length
    · simp [h']
    · simp [h']
  · simp [h]

@[simp] theorem length_setNth {α : Type} (l : List α) (i : Nat) (v : α) : (setNth l i v).length = l.length := by
  simp [setNth]

/-! ### The state's tables -/

@[simp] theorem State.island_modIsland (s : State) (i j : Nat) (f : Island → Island) :
    (s.modIsland i f).island j = if i = j then f (s.island i) else s.island j := by simp [State.island, State.modIsland]
@[simp] theorem State.sub_modSub (s : State) (i j : Nat) (f : Sub → Sub) :
    (s.modSub i f).sub j = if i = j then f (s.sub i) else s.sub j := by simp [State.sub, State.modSub]
@[simp] theorem State.sq_modSq (s : State) (i j : Nat) (f : SubQ → SubQ) :
    (s.modSq i f).sq j = if i = j then f (s.sq i) else s.sq j := by simp [State.sq, State.modSq, State.modQ]
@[simp] theorem State.ring_modRing (s : State) (i j : Nat) (f : Ring → Ring) :
    (s.modRing i f).ring j = if i = j then f (s.ring i) else s.ring j := by simp [State.ring, State.modRing, State.modQ]
@[simp] theorem State.ring_modSq (s : State) (i j : Nat) (f : SubQ → SubQ) : (s.modSq i f).ring j = s.ring j := rfl
@[simp] theorem State.sq_modRing (s : State) (i j : Nat) (f : Ring → Ring) : (s.modRing i f).sq j = s.sq j := rfl
@[simp] theorem State.reach_modReach (s : State) (i j : Nat) (f : Reach → Reach) :
    (s.modReach i f).reach j = if i = j then f (s.reach i) else s.reach j := by simp [State.reach, State.modReach]
@[simp] theorem State.page_modPage (s : State) (i j : Nat) (f : Page → Page) :
    (s.modPage i f).page j = if i = j then f (s.page i) else s.page j := by simp [State.page, State.modPage]
@[simp] theorem State.te_modTe (s : State) (i j : Nat) (f : Te → Te) :
    (s.modTe i f).te j = if i = j then f (s.te i) else s.te j := by simp [State.te, State.modTe]
@[simp] theorem State.pin_modPin (s : State) (i j : Nat) (f : Pin → Pin) :
    (s.modPin i f).pin j = if i = j then f (s.pin i) else s.pin j := by simp [State.pin, State.modPin]
@[simp] theorem State.bank_modBank (s : State) (i j : Nat) (f : Bank → Bank) :
    (s.modBank i f).bank j = if i = j then f (s.bank i) else s.bank j := by simp [State.bank, State.modBank]
@[simp] theorem State.cfl_modCfl (s : State) (i j : Nat) (f : Cfl → Cfl) :
    (s.modCfl i f).cfl j = if i = j then f (s.cfl i) else s.cfl j := by simp [State.cfl, State.modCfl]
@[simp] theorem State.bk_modBk (s : State) (i j : Nat) (f : Brook → Brook) :
    (s.modBk i f).bk j = if i = j then f (s.bk i) else s.bk j := by simp [State.bk, State.modBk]
@[simp] theorem State.drv_modDrv (s : State) (i j : Nat) (f : Drive → Drive) :
    (s.modDrv i f).drv j = if i = j then f (s.drv i) else s.drv j := by simp [State.drv, State.modDrv, State.modSilt]
@[simp] theorem State.dch_modDch (s : State) (i j : Nat) (f : DmaCh → DmaCh) :
    (s.modDch i f).dch j = if i = j then f (s.dch i) else s.dch j := by simp [State.dch, State.modDch]
@[simp] theorem State.core_modCore (s : State) (i j : Nat) (f : CoreSt → CoreSt) :
    (s.modCore i f).core j = if i = j then f (s.core i) else s.core j := tget_tmod _ _ _ _ _
@[simp] theorem State.dbg_modDbg (s : State) (i j : Nat) (f : TeDbg → TeDbg) :
    (s.modDbg i f).dbg j = if i = j then f (s.dbg i) else s.dbg j := by simp [State.dbg, State.modDbg, State.modMon]
@[simp] theorem State.reg_setReg (s : State) (o p : Nat) (v : Word) :
    (s.setReg o v).reg p = if o = p then v else s.reg p := by simp [State.reg, State.setReg]
@[simp] theorem State.sc_modSc_same (s : State) (k : Nat) (f : ScSt → ScSt) : (s.modSc k f).sc k = f (s.sc k) := by
  simp only [State.sc, State.modSc]; split <;> rfl

end Sys2Proof.Machine
end

