-- ==== Sys2Proof/Laws/Isa.lean ====
section
/-! SUPPORT. One instruction of a core: what the fetch can change, and what an instruction that completes leaves. -/

namespace Sys2Proof.Machine

open Sys2Proof.Safety

/-! ### Changing one core -/

theorem tset_tset {α : Type} (t : Tbl α) (k : Nat) (u v : α) : tset (tset t k u) k v = tset t k v := by
  induction t with
  | nil => simp [tset]
  | cons e t ih =>
    obtain ⟨i, w⟩ := e
    simp only [tset]
    split
    · simp [tset]
    · split
      · simp [tset]
      · simp [tset, *]

theorem tmod_tmod {α : Type} (d : α) (t : Tbl α) (k : Nat) (f g : α → α) :
    tmod d (tmod d t k f) k g = tmod d t k (fun x => g (f x)) := by
  simp [tmod, tset_tset]

theorem modCore_modCore (s : State) (k : Nat) (f g : CoreSt → CoreSt) :
    (s.modCore k f).modCore k g = s.modCore k (fun x => g (f x)) := by
  simp only [State.modCore, tmod_tmod]

theorem modCore_congr {s : State} {k : Nat} {f g : CoreSt → CoreSt} (h : f (s.core k) = g (s.core k)) :
    s.modCore k f = s.modCore k g := by
  simp only [State.modCore, tmod]
  exact congrArg (fun v => { s with cores := tset s.cores k v }) h

@[simp] theorem State.core_modCore_same (s : State) (k : Nat) (f : CoreSt → CoreSt) : (s.modCore k f).core k = f (s.core k) := by
  rw [State.core_modCore]; exact if_pos rfl

/-! ### The fetch -/

/-- A state that differs from s at most in core k's fetch buffer and epoch cache. -/
def FetchStep (s t : State) (k : Nat) : Prop := t = s ∨ ∃ y, t = s.modCore k fun x => setFetch x y

theorem FetchStep.trans {s t u : State} {k : Nat} (h : FetchStep s t k) (h' : FetchStep t u k) : FetchStep s u k := by
  rcases h with rfl | ⟨y, rfl⟩
  · exact h'
  · rcases h' with rfl | ⟨z, rfl⟩
    · exact .inr ⟨y, rfl⟩
    · exact .inr ⟨z, by rw [modCore_modCore]; rfl⟩

theorem setFetch_self_of (x : CoreSt) (f : CoreSt → CoreSt) (h : f x = setFetch x (f x)) : ∃ y, f x = setFetch x y := ⟨_, h⟩

theorem fetchStep_mod (s : State) (k : Nat) (f : CoreSt → CoreSt) (h : f (s.core k) = setFetch (s.core k) (f (s.core k))) :
    FetchStep s (s.modCore k f) k := .inr ⟨f (s.core k), modCore_congr h⟩

theorem epochWord_step (s : State) (k o : Nat) : FetchStep s (epochWord s k o).1 k := by
  unfold epochWord
  dsimp only
  split
  · exact fetchStep_mod _ _ _ rfl
  · exact fetchStep_mod _ _ _ rfl

theorem capUse_step (s : State) (k : Nat) (c : Cap) (r : Option (Nat × Nat)) (n : List Nat) :
    FetchStep s (capUse s k c r n).1 k := by
  unfold capUse
  dsimp only
  repeat' split
  all_goals first | exact .inl rfl | exact epochWord_step _ _ _

theorem leveeCheck_grant {s : State} {who : Initiator} {w : World} {c : Col} {a : Acc} {t : Nat → Rgn} {d : Nat}
    (h : (leveeCheck s who w c a t d).2 = true) : (leveeCheck s who w c a t d).1 = s := by
  revert h
  unfold leveeCheck
  split
  · simp
  · split <;> simp

theorem fetchHalf_step {s : State} {k : Nat} {a : Word} (h : (fetchHalf s k a).2 = none) :
    FetchStep s (fetchHalf s k a).1 k := by
  revert h
  unfold fetchHalf
  split
  · simp
  · simp
  · split
    · simp
    · split
      · simp
      · rename_i d own _ _ _
        generalize hl : leveeCheck s (coreWho k) (s.core k).world (coreCol s k) .fetch (coreTable s own) d = r
        obtain ⟨s', ok⟩ := r
        dsimp only
        cases ok with
        | false => simp [hl]
        | true =>
          have := leveeCheck_grant (s := s) (by rw [hl])
          rw [hl] at this
          subst this
          simp only [hl, Bool.not_true, Bool.false_eq_true, if_false]
          split
          · simp
          · intro _; exact fetchStep_mod _ _ _ rfl

/-- A fetch that raises nothing changes at most the core's fetch buffer and epoch cache. -/
theorem fetchCheck_step {s : State} {k len : Nat} (h : (fetchCheck s k len).2 = none) :
    FetchStep s (fetchCheck s k len).1 k := by
  revert h
  unfold fetchCheck
  dsimp only
  split
  · simp
  · generalize hc : (if schemeCap s (s.core k).world = true then
      capUse s k (s.core k).pcc (some ((s.core k).pc.toNat, len)) [2] else (s, none)) = r
    obtain ⟨s1, e⟩ := r
    have h1 : FetchStep s s1 k := by
      split at hc
      · have := capUse_step s k (s.core k).pcc (some ((s.core k).pc.toNat, len)) [2]
        rw [hc] at this; exact this
      · cases hc; exact .inl rfl
    dsimp only
    cases e with
    | some c => simp
    | none =>
      dsimp only
      generalize hf : fetchHalf s1 k (s.core k).pc = r
      obtain ⟨s2, f⟩ := r
      dsimp only
      cases f with
      | some f => simp
      | none =>
        have h2 : FetchStep s1 s2 k := by
          have := fetchHalf_step (s := s1) (k := k) (a := (s.core k).pc) (by rw [hf])
          rw [hf] at this; exact this
        split
        · intro _; exact h1.trans h2
        · intro h3; exact (h1.trans h2).trans (fetchHalf_step h3)

/-! ### Completion -/

/-- A change of a core that does not look at, or touch, what a fetch changes. -/
def FetchFree (f : CoreSt → CoreSt) : Prop := ∀ x y, f (setFetch x y) = setFetch (f x) y

theorem loopCheck_setFetch (x y : CoreSt) (n : Word) : loopCheck (setFetch x y) n = setFetch (loopCheck x n) y := by
  have e : (setFetch x y).loopinh = x.loopinh ∧ (setFetch x y).lc = x.lc ∧ (setFetch x y).le = x.le := ⟨rfl, rfl, rfl⟩
  unfold loopCheck
  rw [e.1, e.2.1, e.2.2]
  split
  · rfl
  · split <;> rfl

theorem FetchStep.core {s t : State} {k : Nat} (h : FetchStep s t k) : ∃ y, t.core k = setFetch (s.core k) y := by
  rcases h with rfl | ⟨y, rfl⟩
  · exact ⟨t.core k, rfl⟩
  · exact ⟨y, by simp⟩

theorem FetchStep.other {s t : State} {k j : Nat} (h : FetchStep s t k) (hj : j ≠ k) : t.core j = s.core j := by
  rcases h with rfl | ⟨y, rfl⟩
  · rfl
  · simp [Ne.symm hj]

theorem FetchStep.frame {s t : State} {k : Nat} (h : FetchStep s t k) : { t with cores := s.cores } = s := by
  rcases h with rfl | ⟨y, rfl⟩
  · rfl
  · rfl

theorem FetchStep.frame_mon {s t : State} {k : Nat} (h : FetchStep s t k) : { t with cores := s.cores, mon := s.mon } = s := by
  rcases h with rfl | ⟨y, rfl⟩
  · rfl
  · rfl

/-- R336, R521: a ready core carries out its instruction. -/
theorem runIns_ready {s : State} {k len : Nat} {act : State → State × Out} (h : CoreReady s k len) :
    runIns s k len act =
      drain (finish (act (fetchCheck s k len).1).1 k len (s.core k).pc (act (fetchCheck s k len).1).2) := by
  obtain ⟨h1, h2, h3, -⟩ := h
  unfold runIns
  have hb : (if k < 64 then bkptAt s k else none) = none := by
    split
    · exact (h2 ‹_›).1
    · rfl
  rw [hb]
  simp only [h1, Bool.not_true, Bool.false_eq_true, if_false]
  generalize fetchCheck s k len = r at h3
  obtain ⟨s1, f⟩ := r
  dsimp only at h3
  subst h3
  rfl

theorem drain_nil {s : State} (h : s.posted = []) : drain s = s := by unfold drain; rw [if_pos h]

theorem dbg_of_frame {s t : State} {k : Nat} (h : { t with cores := s.cores } = s) : t.dbg k = s.dbg k := by
  have : t.mon = s.mon := by rw [← h]
  unfold State.dbg; rw [this]

/-- After an instruction that halts nothing, only the breakpoint memory of the core's TE can differ. -/
theorem afterIns_eq {s : State} {k : Nat} (h : k < 64 → (s.dbg k).step = false) :
    afterIns s k = s ∨ afterIns s k = s.modDbg k fun d => { d with passed := false } := by
  unfold afterIns
  split
  · exact .inl rfl
  · have hs := h (by omega)
    dsimp only
    split
    · right
      rw [if_neg]
      simp [hs]
    · left
      rw [if_neg]
      simp [hs]

/-- What a completed instruction leaves, from what its body left. -/
theorem retires_of {s s1 : State} {k len : Nat} {f : CoreSt → CoreSt} (h : CoreReady s k len) (hs : FetchStep s s1 k)
    (hf : FetchFree f) : Retires s (drain (finish (s1.modCore k f) k len (s.core k).pc .done)) k len f := by
  obtain ⟨-, h2, -, h4⟩ := h
  obtain ⟨y, hy⟩ := hs.core
  have hfr := hs.frame
  have hpost : s1.posted = [] := by rw [← h4, ← hfr]
  simp only [finish, modCore_modCore]
  have hd : k < 64 → ((s1.modCore k fun x => loopCheck (f x) ((s.core k).pc + BitVec.ofNat 32 len)).dbg k).step = false := by
    intro hk; have := (h2 hk).2; rw [← this, ← dbg_of_frame hfr]; rfl
  have key : ∀ t, (t = s1.modCore k (fun x => loopCheck (f x) ((s.core k).pc + BitVec.ofNat 32 len)) ∨
      t = (s1.modCore k (fun x => loopCheck (f x) ((s.core k).pc + BitVec.ofNat 32 len))).modDbg k
        fun d => { d with passed := false }) → Retires s (drain t) k len f := by
    intro t ht
    have hp : t.posted = [] := by rcases ht with rfl | rfl <;> exact hpost
    rw [drain_nil hp]
    have hc : t.cores = (s1.modCore k (fun x => loopCheck (f x) ((s.core k).pc + BitVec.ofNat 32 len))).cores := by
      rcases ht with rfl | rfl <;> rfl
    have hcore : ∀ j, t.core j = (s1.modCore k (fun x => loopCheck (f x) ((s.core k).pc + BitVec.ofNat 32 len))).core j := by
      intro j; exact congrArg (fun c => tget {} c j) hc
    refine ⟨?_, ?_, ?_, ?_⟩
    · rw [hcore, State.core_modCore_same, hy, hf, loopCheck_setFetch]; rfl
    · intro j hj
      rw [hcore, State.core_modCore, if_neg (Ne.symm hj)]
      exact hs.other hj
    · have e := hs.frame_mon
      rcases ht with rfl | rfl <;> exact e
    · have e : s1.mon = s.mon := by rw [← hfr]
      unfold MonFrame
      rcases ht with rfl | rfl
      · show { s1.mon with te := s.mon.te, trace := s.mon.trace, traceWr := s.mon.traceWr, traceDrop := s.mon.traceDrop } = s.mon
        rw [e]
      · show { s1.mon with te := s.mon.te, trace := s.mon.trace, traceWr := s.mon.traceWr, traceDrop := s.mon.traceDrop } = s.mon
        rw [e]
  exact key _ (afterIns_eq hd)

theorem traceRecord_eq (s : State) (te kind code : Nat) (pc : Word) :
    traceRecord s te kind code pc = s ∨ ∃ g, traceRecord s te kind code pc = s.modMon g ∧
      ∀ m, ({ g m with te := m.te, trace := m.trace, traceWr := m.traceWr, traceDrop := m.traceDrop } : Monitor) = m ∧ (g m).te = m.te := by
  unfold traceRecord
  split
  · refine .inr ⟨_, rfl, fun m => ?_⟩
    split <;> exact ⟨rfl, rfl⟩
  · exact .inl rfl

theorem modMon_erase (s : State) (g : Monitor → Monitor) (c : Tbl CoreSt) (m : Monitor) :
    ({ s.modMon g with cores := c, mon := m } : State) = { s with cores := c, mon := m } := rfl

/-- R343: what a taken transfer leaves, from what its body left. -/
theorem transfers_of {s s1 : State} {k len : Nat} {f : CoreSt → CoreSt} {target : Word} (h : CoreReady s k len)
    (hs : FetchStep s s1 k) (hf : FetchFree f) :
    Transfers s (drain (finish (s1.modCore k f) k len (s.core k).pc (.jump target))) k target f := by
  obtain ⟨-, h2, -, h4⟩ := h
  obtain ⟨y, hy⟩ := hs.core
  have hfr := hs.frame
  have hpost : s1.posted = [] := by rw [← h4, ← hfr]
  simp only [finish, modCore_modCore]
  generalize hu : s1.modCore k (fun x => { f x with pc := target }) = u
  have huc : ∀ j, u.core j = (s1.modCore k (fun x => { f x with pc := target })).core j := by intro j; rw [hu]
  have hum : u.mon = s.mon := by rw [← hu]; show s1.mon = s.mon; rw [← hfr]
  have huf : { u with cores := s.cores } = s := by rw [← hu]; exact hfr
  have hup : u.posted = [] := by rw [← hu]; exact hpost
  have hcore : ∀ v : State, v.cores = u.cores → (∀ j, v.core j = u.core j) := by
    intro v hv j; exact congrArg (fun c => tget {} c j) hv
  have htr : ∀ v : State, v = traceRecord u k 3 0 target → v.cores = u.cores ∧ v.posted = [] ∧ { v with cores := s.cores, mon := s.mon } = s ∧
      MonFrame s v ∧ v.mon.te = s.mon.te := by
    intro v hv
    have hs' : { u with cores := s.cores, mon := s.mon } = s := by rw [← hu]; exact hs.frame_mon
    rcases traceRecord_eq u k 3 0 target with e | ⟨g, e, hg⟩
    · rw [e] at hv
      subst hv
      exact ⟨rfl, hup, hs', by unfold MonFrame; rw [hum], by rw [hum]⟩
    · rw [e] at hv
      subst hv
      obtain ⟨hg1, hg2⟩ := hg u.mon
      refine ⟨State.modMon_cores _ _, (State.modMon_posted _ _).trans hup, ?_, ?_, ?_⟩
      · exact (modMon_erase u g s.cores s.mon).trans hs'
      · unfold MonFrame
        rw [State.modMon_mon, ← hum]
        exact hg1
      · rw [State.modMon_mon, ← hum]
        exact hg2
  obtain ⟨hv1, hv2, hv3, hv4, hv5⟩ := htr _ rfl
  generalize traceRecord u k 3 0 target = v at *
  have hd : k < 64 → (v.dbg k).step = false := by
    intro hk; have := (h2 hk).2; rw [← this]; unfold State.dbg; rw [hv5]
  rcases afterIns_eq hd with e | e
  · rw [e, drain_nil hv2]
    refine ⟨?_, ?_, hv3, hv4⟩
    · rw [hcore v hv1, huc, State.core_modCore_same, hy, hf]; rfl
    · intro j hj; rw [hcore v hv1, huc, State.core_modCore, if_neg (Ne.symm hj)]; exact hs.other hj
  · rw [e, drain_nil (by exact hv2)]
    have hw : (v.modDbg k fun d => { d with passed := false }).cores = u.cores := hv1
    refine ⟨?_, ?_, hv3, hv4⟩
    · rw [hcore _ hw, huc, State.core_modCore_same, hy, hf]; rfl
    · intro j hj; rw [hcore _ hw, huc, State.core_modCore, if_neg (Ne.symm hj)]; exact hs.other hj

/-! ### Instructions as wholes -/

theorem FetchStep.regs {s t : State} {k : Nat} (h : FetchStep s t k) : t.regs = s.regs := by
  rcases h with rfl | ⟨y, rfl⟩ <;> rfl

theorem FetchStep.cxemu {s t : State} {k : Nat} (h : FetchStep s t k) (j : Nat) : cxemu t j = cxemu s j := by
  rcases h with rfl | ⟨y, rfl⟩ <;> rfl

theorem FetchStep.schemeCap {s t : State} {k : Nat} (h : FetchStep s t k) (w : World) : schemeCap t w = schemeCap s w := by
  rcases h with rfl | ⟨y, rfl⟩ <;> rfl

theorem FetchStep.world {s t : State} {k : Nat} (h : FetchStep s t k) : (t.core k).world = (s.core k).world := by
  obtain ⟨y, e⟩ := h.core
  rw [e]; rfl

theorem guard_not_reserved {h : Hdr} {x : CoreSt} (g : guardTrue h x = true) : ¬(h.pg.val = 0 ∧ h.inv = true) := by
  rintro ⟨h0, h1⟩
  simp [guardTrue, pRead, h0, h1] at g

/-- R336: an instruction of 32 bits whose guard is true reaches its body. -/
theorem run32_ready {s : State} {h : Hdr} {w : Word} {reserved : State → Nat → Bool} {cop : Bool}
    {body : State → Nat → State × Out} (hr : Ready32 s h) (hc : cop = true → cxemu s h.core.val = false)
    (hres : reserved (fetchCheck s h.core.val 4).1 h.core.val = false) :
    run32 s h w reserved cop body =
      drain (finish (body (fetchCheck s h.core.val 4).1 h.core.val).1 h.core.val 4 (s.core h.core.val).pc
        (body (fetchCheck s h.core.val 4).1 h.core.val).2) := by
  obtain ⟨⟨hready, he⟩, hg⟩ := hr
  have hs := fetchCheck_step hready.2.2.1
  unfold run32
  dsimp only
  rw [runIns_ready hready]
  have hg' : guardTrue h ((fetchCheck s h.core.val 4).1.core h.core.val) = true := by
    obtain ⟨y, e⟩ := hs.core
    rw [e]; exact hg
  have hc' : (cop && cxemu (fetchCheck s h.core.val 4).1 h.core.val) = false := by
    rw [hs.cxemu]
    cases cop with
    | false => rfl
    | true => exact hc rfl
  rw [if_neg (guard_not_reserved hg)]
  simp only [hc', hres, hg', he, ne_eq, not_true_eq_false, Bool.not_false, Bool.and_false, Bool.false_eq_true, if_false,
    Bool.not_true]

/-- A 32-bit instruction that changes its core by f completes as Retires says. -/
theorem run32_retires {s : State} {h : Hdr} {w : Word} {reserved : State → Nat → Bool} {cop : Bool}
    {body : State → Nat → State × Out} {f : CoreSt → CoreSt} (hr : Ready32 s h) (hc : cop = true → cxemu s h.core.val = false)
    (hres : ∀ t, FetchStep s t h.core.val → reserved t h.core.val = false)
    (hb : ∀ t, FetchStep s t h.core.val → body t h.core.val = (t.modCore h.core.val f, .done)) (hf : FetchFree f) :
    Retires s (run32 s h w reserved cop body) h.core.val 4 f := by
  have hs := fetchCheck_step hr.1.1.2.2.1
  rw [run32_ready hr hc (hres _ hs), hb _ hs]
  exact retires_of hr.1.1 hs hf

/-- A 32-bit instruction that changes its core by f and transfers. -/
theorem run32_transfers {s : State} {h : Hdr} {w : Word} {reserved : State → Nat → Bool} {cop : Bool}
    {body : State → Nat → State × Out} {f : CoreSt → CoreSt} {target : Word} (hr : Ready32 s h)
    (hc : cop = true → cxemu s h.core.val = false)
    (hres : ∀ t, FetchStep s t h.core.val → reserved t h.core.val = false)
    (hb : ∀ t, FetchStep s t h.core.val → body t h.core.val = (t.modCore h.core.val f, .jump target)) (hf : FetchFree f) :
    Transfers s (run32 s h w reserved cop body) h.core.val target f := by
  have hs := fetchCheck_step hr.1.1.2.2.1
  rw [run32_ready hr hc (hres _ hs), hb _ hs]
  exact transfers_of hr.1.1 hs hf

/-- A 16-bit instruction that changes its core by f completes as Retires says. -/
theorem run16_retires {s : State} {c : Short} {body : State → Nat → State × Out} {f : CoreSt → CoreSt}
    (hr : Ready16 s c)
    (hb : ∀ t, FetchStep s t c.core.val → body t c.core.val = (t.modCore c.core.val f, .done)) (hf : FetchFree f) :
    Retires s (run16 s c body) c.core.val 2 f := by
  have hs := fetchCheck_step hr.1.2.2.1
  unfold run16
  simp only [runIns_ready hr.1, hr.2, ne_eq, not_true_eq_false, if_false, hb _ hs]
  exact retires_of hr.1 hs hf

/-- A 16-bit instruction that changes its core by f and transfers. -/
theorem run16_transfers {s : State} {c : Short} {body : State → Nat → State × Out} {f : CoreSt → CoreSt} {target : Word}
    (hr : Ready16 s c)
    (hb : ∀ t, FetchStep s t c.core.val → body t c.core.val = (t.modCore c.core.val f, .jump target)) (hf : FetchFree f) :
    Transfers s (run16 s c body) c.core.val target f := by
  have hs := fetchCheck_step hr.1.2.2.1
  unfold run16
  simp only [runIns_ready hr.1, hr.2, ne_eq, not_true_eq_false, if_false, hb _ hs]
  exact transfers_of hr.1 hs hf

end Sys2Proof.Machine
end

