-- ==== Sys2Proof/Laws/Shape.lean ====
section
/-! SUPPORT. The operations that the meanings share keep the shape of the state (Safety.Inv): tables stay rising, both
byte memories stay in canonical form, banks of registers keep their size. -/

namespace Sys2Proof.Safety

open Sys2Proof.Machine

/-! ### Tables -/

theorem tset_keys {α : Type} {t : Tbl α} {k x : Nat} {v : α} (h : x ∈ (tset t k v).map (·.1)) : x = k ∨ x ∈ t.map (·.1) := by
  induction t with
  | nil => simp_all [tset]
  | cons e t ih =>
    obtain ⟨i, u⟩ := e
    simp only [tset] at h
    split at h
    · simp_all
    · split at h
      · simp_all
      · simp only [List.map_cons, List.mem_cons] at h ⊢
        rcases h with h | h
        · exact .inr (.inl h)
        · rcases ih h with h | h
          · exact .inl h
          · exact .inr (.inr h)

theorem keysRise_tset {α : Type} {t : Tbl α} (h : KeysRise t) (k : Nat) (v : α) : KeysRise (tset t k v) := by
  unfold KeysRise at *
  induction t with
  | nil => simp [tset]
  | cons e t ih =>
    obtain ⟨i, u⟩ := e
    simp only [List.map_cons, List.pairwise_cons] at h
    simp only [tset]
    split
    · simp only [List.map_cons, List.pairwise_cons, List.mem_cons]
      refine ⟨?_, h⟩
      rintro y (rfl | hy)
      · assumption
      · have := h.1 y hy; omega
    · split
      · simp only [List.map_cons, List.pairwise_cons]
        subst_vars
        exact h
      · simp only [List.map_cons, List.pairwise_cons]
        refine ⟨?_, ih h.2⟩
        intro y hy
        rcases tset_keys hy with rfl | hy
        · omega
        · exact h.1 y hy

theorem keysRise_tmod {α : Type} {t : Tbl α} (h : KeysRise t) (d : α) (k : Nat) (f : α → α) : KeysRise (tmod d t k f) :=
  keysRise_tset h k _

theorem keysRise_filter {α : Type} {t : Tbl α} (h : KeysRise t) (p : Nat × α → Bool) : KeysRise (t.filter p) :=
  h.sublist (List.filter_sublist.map _)

/-- A map over the entries that keeps their keys keeps the keys. -/
theorem keysRise_map {α : Type} {t : Tbl α} (h : KeysRise t) (f : Nat × α → Nat × α) (hf : ∀ x, (f x).1 = x.1) : KeysRise (t.map f) := by
  unfold KeysRise at *
  rw [List.map_map, show ((fun x : Nat × α => x.1) ∘ f) = fun x => x.1 from funext hf]
  exact h

theorem tget?_map {α : Type} (t : Tbl α) (f : Nat × α → Nat × α) (hf : ∀ x, (f x).1 = x.1) (k : Nat) :
    tget? (t.map f) k = (tget? t k).map fun v => (f (k, v)).2 := by
  induction t with
  | nil => rfl
  | cons e t ih =>
    by_cases q : e.1 = k
    · subst q; simp [tget?, hf]
    · simp [tget?, hf, q, ih]

/-- A property that every answer of a table has, and that the map keeps, every answer of the mapped table has. -/
theorem tget_map {α : Type} {P : α → Prop} {d : α} {t : Tbl α} (h : ∀ k, P (tget d t k)) (f : Nat × α → Nat × α)
    (hf : ∀ x, (f x).1 = x.1) (hp : ∀ x, P x.2 → P (f x).2) (hd : P d) (k : Nat) : P (tget d (t.map f) k) := by
  have g := h k
  unfold tget at g ⊢
  rw [tget?_map t f hf]
  cases q : tget? t k with
  | none => exact hd
  | some v => rw [q] at g; exact hp (k, v) g

/-- A property that every answer of a table has, and that an update keeps, every answer of the updated table has. -/
theorem tget_tmod_all {α : Type} {P : α → Prop} {d : α} {t : Tbl α} (h : ∀ k, P (tget d t k)) (i : Nat) (f : α → α)
    (hf : ∀ x, P x → P (f x)) (k : Nat) : P (tget d (tmod d t i f) k) := by
  rw [tget_tmod]
  split
  · exact hf _ (h i)
  · exact h k

/-- A fold keeps what each of its steps keeps. -/
theorem foldl_keeps {α β : Type} {P : α → Prop} {f : α → β → α} {l : List β} (h : ∀ a b, P a → P (f a b)) {a : α} (ha : P a) :
    P (l.foldl f a) := by
  induction l generalizing a with
  | nil => exact ha
  | cons b l ih => exact ih (h a b ha)

theorem foldN_keeps {α : Type} {P : α → Prop} {n : Nat} {f : α → Nat → α} (h : ∀ a i, P a → P (f a i)) {a : α} (ha : P a) : P (foldN n f a) :=
  foldl_keeps h ha

/-! ### Updates of one part of the state -/

variable {s : State}

/-- A state that differs only in parts of which the shape says nothing. -/
theorem Inv.same {t : State} (h : Inv s) (mem : t.mem = s.mem) (host : t.hostMem = s.hostMem) (subs : t.subs = s.subs) (ev : t.ev = s.ev)
    (cores : t.cores = s.cores) (bks : t.bks = s.bks) (vote : t.vote = s.vote) (weir : t.weir = s.weir) (port : t.host = s.host) : Inv t where
  mem := by have := h.mem; unfold MemOk Memory.wf at *; rwa [mem, host]
  subs := by rw [subs]; exact h.subs
  src := by rw [ev]; exact h.src
  general := by unfold State.core; rw [cores]; exact h.general
  planes := by unfold State.core; rw [cores]; exact h.planes
  positions := by unfold State.bk; rw [bks]; exact h.positions
  view := by rw [vote]; exact h.view
  late := by rw [vote]; exact h.late
  weirClasses := by unfold State.weirReq; rw [weir]; exact h.weirClasses
  weirTargets := by rw [weir]; exact h.weirTargets
  functions := by rw [port]; exact h.functions
  held := by rw [ev]; exact h.held

theorem Inv.modSub (h : Inv s) (n : Nat) (f : Sub → Sub) : Inv (s.modSub n f) := { h with subs := keysRise_tmod h.subs _ _ _ }

theorem Inv.mapSubs (h : Inv s) (f : Nat × Sub → Nat × Sub) (hf : ∀ x, (f x).1 = x.1) : Inv { s with subs := s.subs.map f } :=
  { h with subs := keysRise_map h.subs f hf }

theorem Inv.modEvSrc (h : Inv s) (n : Nat) (f : EvSrc → EvSrc) : Inv (s.modEvSrc n f) := { h with src := keysRise_tmod h.src _ _ _ }

theorem Inv.modCore (h : Inv s) (k : Nat) (f : CoreSt → CoreSt) (hg : ∀ x, x.g.length = 32 → (f x).g.length = 32)
    (hp : ∀ x, x.sx.length = 256 → (f x).sx.length = 256) : Inv (s.modCore k f) :=
  { h with general := tget_tmod_all (P := fun x : CoreSt => x.g.length = 32) h.general k f hg
           planes := tget_tmod_all (P := fun x : CoreSt => x.sx.length = 256) h.planes k f hp }

theorem Inv.mapCores (h : Inv s) (f : Nat × CoreSt → Nat × CoreSt) (hf : ∀ x, (f x).1 = x.1) (hg : ∀ x, (f x).2.g = x.2.g)
    (hp : ∀ x, (f x).2.sx = x.2.sx) : Inv { s with cores := s.cores.map f } :=
  { h with general := tget_map (P := fun x : CoreSt => x.g.length = 32) h.general f hf (fun x => by rw [hg x]; exact id) List.length_replicate
           planes := tget_map (P := fun x : CoreSt => x.sx.length = 256) h.planes f hf (fun x => by rw [hp x]; exact id) List.length_replicate }

theorem Inv.modBk (h : Inv s) (k : Nat) (f : Brook → Brook) (hf : ∀ b, b.pos.length = 8 → (f b).pos.length = 8) : Inv (s.modBk k f) :=
  { h with positions := tget_tmod_all (P := fun x : Brook => x.pos.length = 8) h.positions k f hf }

theorem Inv.modVote (h : Inv s) (f : VoteU → VoteU) (hv : (f s.vote).view.length = 4) (hl : (f s.vote).late.length = 4) : Inv (s.modVote f) :=
  { h with view := hv, late := hl }

theorem Inv.modHostFn (h : Inv s) (f : Nat) (g : HostFn → HostFn) : Inv (s.modHostFn f g) :=
  { h with functions := by simpa [State.modHostFn, State.modHost] using h.functions }

theorem Inv.setReg (h : Inv s) (o : Nat) (v : Word) : Inv (s.setReg o v) := { h with }
theorem Inv.modTe (h : Inv s) (n : Nat) (f : Te → Te) : Inv (s.modTe n f) := { h with }
theorem Inv.modPin (h : Inv s) (n : Nat) (f : Pin → Pin) : Inv (s.modPin n f) := { h with }
theorem Inv.modMon (h : Inv s) (f : Monitor → Monitor) : Inv (s.modMon f) := { h with }
theorem Inv.modBoot (h : Inv s) (f : Boot → Boot) : Inv (s.modBoot f) := { h with }
theorem Inv.modSilt (h : Inv s) (f : Silt → Silt) : Inv (s.modSilt f) := { h with }
theorem Inv.modDch (h : Inv s) (c : Nat) (f : DmaCh → DmaCh) : Inv (s.modDch c f) := { h with }
theorem Inv.modMb (h : Inv s) (ch : Nat) (e : Bool) (f : MbxEnd → MbxEnd) : Inv (s.modMb ch e f) := { h with }
theorem Inv.free (h : Inv s) : Inv s.free.1 := { h with }

/-! ### Events and messages (R414 to R424) -/

theorem Inv.pokeHost (h : Inv s) (a : Nat) (bs : List Byte) : Inv (pokeHost s a bs) :=
  have m : MemOk (Machine.pokeHost s a bs) := by
    have := h.mem
    unfold MemOk Memory.wf at *
    simp only [Bool.and_eq_true] at this ⊢
    exact ⟨this.1, cellsWf_cellsSet this.2 a bs⟩
  { h with mem := m }

theorem Inv.sendMsi (h : Inv s) (f v : Nat) : Inv (sendMsi s f v) := by
  have h1 : Inv (s.modEv fun e => { e with vsent := e.vsent.modify f fun w => setBit w v true }) :=
    { h with held := by simpa [State.modEv] using h.held }
  unfold Machine.sendMsi
  dsimp only
  split
  · exact h1.modHostFn f _
  · exact (h1.modHostFn f _).pokeHost _ _

theorem Inv.msiScan (h : Inv s) (f : Nat) : Inv (msiScan s f) := by
  unfold Machine.msiScan
  split
  · exact h
  · exact foldl_keeps (fun t v ht => by
      split
      · exact ht
      · exact ht.sendMsi f v) h

theorem Inv.evalTargets (h : Inv s) : Inv (evalTargets s) := (h.msiScan 0).msiScan 1

theorem Inv.oneArrival (h : Inv s) (n : Nat) (t : DWord) : Inv (oneArrival s n t) := h.modEvSrc n _

theorem Inv.raiseEventAt (h : Inv s) (n : Nat) (t : DWord) : Inv (raiseEventAt s n t) := by
  unfold Machine.raiseEventAt
  split
  · exact h
  · dsimp only
    split
    · have h1 : Inv ((Machine.oneArrival s n t).modEv fun v => { v with ovfSeen := true, ovfSrc := n }) := { h.oneArrival n t with }
      exact (h1.oneArrival _ _).evalTargets
    · exact (h.oneArrival n t).evalTargets

theorem Inv.raiseEvent (h : Inv s) (n : Nat) : Inv (raiseEvent s n) := h.raiseEventAt n _

theorem Inv.claim (h : Inv s) (who : Initiator) (t : Nat) : Inv (claim s who t).1 := by
  unfold Machine.claim
  split
  · exact h
  · split
    · exact h
    · exact (h.modEvSrc _ _).evalTargets

theorem Inv.mbxNotify (h : Inv s) (ch : Nat) (e : Bool) (bit : Nat) (always : Bool) : Inv (mbxNotify s ch e bit always) := by
  unfold Machine.mbxNotify
  dsimp only
  split
  · exact h.raiseEvent _
  · exact h

theorem Inv.mbxRx (h : Inv s) (ch : Nat) (e : Bool) : Inv (mbxRx s ch e).1 := by
  unfold Machine.mbxRx
  split
  · exact h.modMb _ _ _
  · dsimp only
    split
    · exact (h.modMb _ _ _).mbxNotify _ _ _ _
    · exact h.modMb _ _ _

theorem Inv.mbxTx (h : Inv s) (ch : Nat) (e : Bool) (v : Word) : Inv (mbxTx s ch e v).1 := by
  unfold Machine.mbxTx
  split
  · exact h.modMb _ _ _
  · exact (h.modMb _ _ _).mbxNotify _ _ _ _

/-! ### Memory: every read and write keeps both memories in canonical form -/

theorem Inv.leveeRefuse (h : Inv s) (who : Initiator) (w : World) (k : Acc) (a : Nat) (entry : Option Nat) : Inv (leveeRefuse s who w k a entry) := by
  have h1 (f : Levee → Levee) : Inv (s.modLevee f) := { h with }
  unfold Machine.leveeRefuse
  dsimp only
  split
  · exact h1 _
  · have h2 (f g : Levee → Levee) : Inv ((s.modLevee f).modLevee g) := { h with }
    exact (h2 _ _).raiseEvent _

theorem Inv.leveeCheck (h : Inv s) (who : Initiator) (w : World) (c : Col) (k : Acc) (t : Nat → Rgn) (a : Nat) :
    Inv (leveeCheck s who w c k t a).1 := by
  unfold Machine.leveeCheck
  split
  · exact h.leveeRefuse _ _ _ _ _
  · split
    · exact h
    · exact h.leveeRefuse _ _ _ _ _

theorem Inv.noteUeBy (h : Inv s) (req : Nat) (scrub : Bool) (g : Nat) : Inv (noteUeBy s req scrub g) := by
  have h1 (f : MemErrs → MemErrs) : Inv (s.modMemErrs f) := { h with }
  exact (h1 _).raiseEvent _

theorem Inv.noteUe (h : Inv s) (who : Initiator) (g : Nat) : Inv (noteUe s who g) := h.noteUeBy _ _ _

theorem Inv.breakRsv (h : Inv s) (writer : Option Nat) (a len : Nat) : Inv (breakRsv s writer a len) := by
  have h1 := h.mapCores (fun x => match x.2.rsv with
      | some g => if (decide (g < a + len) && decide (a < g + 16)) && writer != some x.1 then (x.1, { x.2 with rsv := none }) else x
      | none => x)
    (fun x => by repeat' (first | rfl | split)) (fun x => by repeat' (first | rfl | split)) (fun x => by repeat' (first | rfl | split))
  exact { h1 with }

theorem Inv.markDirty (h : Inv s) (a len : Nat) : Inv (markDirty s a len) := by
  unfold Machine.markDirty
  split
  · exact h
  · exact h.modVote _ h.view h.late

theorem Inv.yieldLocked (h : Inv s) (a len : Nat) : Inv (yieldLocked s a len) :=
  h.mapSubs _ fun x => by dsimp only; split <;> rfl

theorem Inv.pokeRaw (h : Inv s) (writer : Option Nat) (a : Nat) (bs : List Byte) : Inv (pokeRaw s writer a bs) := by
  have h1 : Inv (healUe (Machine.breakRsv s writer a bs.length) a bs.length) := { h.breakRsv writer a bs.length with }
  have h2 : Inv (dropTags (healUe (Machine.breakRsv s writer a bs.length) a bs.length) a bs.length) := { h1 with }
  have h3 := h2.markDirty a bs.length
  have m := h3.mem
  have q : MemOk (Machine.pokeRaw s writer a bs) := by
    unfold MemOk Memory.wf at *
    simp only [Bool.and_eq_true] at m ⊢
    exact ⟨cellsWf_cellsSet m.1 a bs, m.2⟩
  exact { h3 with mem := q }

theorem Inv.pokeMemBy (h : Inv s) (writer : Option Nat) (a : Nat) (bs : List Byte) : Inv (pokeMemBy s writer a bs) := (h.yieldLocked a bs.length).pokeRaw _ _ _

theorem Inv.pokeMem (h : Inv s) (a : Nat) (bs : List Byte) : Inv (pokeMem s a bs) := h.pokeMemBy none a bs

theorem Inv.freeBytes (h : Inv s) (a len : Nat) : Inv (freeBytes s a len) :=
  foldN_keeps (P := Inv) (fun _ _ ht => ht.free.pokeMem _ _) h

theorem Inv.readReg (h : Inv s) (who : Initiator) (o : Nat) : Inv (readReg s who o).1 := by
  unfold Machine.readReg
  dsimp only
  split
  · exact { h with }
  · exact h
  · split
    · split
      · exact h.claim _ _
      · exact h
    · exact h.mbxRx _ _
    · exact h.modBk _ _ fun _ hb => hb
    · split
      · exact h.free
      · exact h
    · exact h.free
    · exact h.free
    · exact h.free
    · exact h

theorem Inv.regReads (h : Inv s) (who : Initiator) (off n : Nat) : Inv (regReads s who off n).1 :=
  foldN_keeps (P := fun r : State × Except MemErr (List Byte) => Inv r.1) (fun r i hr => by
    dsimp only
    split
    · exact hr
    · split
      · exact hr
      · exact Inv.readReg (s := _) hr _ _) h

theorem Inv.refuseCount (h : Inv s) (who : Initiator) (o : Nat) (v : Word) : Inv (refuseCount s who o v) := by
  unfold Machine.refuseCount
  repeat' (first | exact h | exact h.mbxTx _ _ _ | exact { h with } | split)

theorem Inv.regWrites (h : Inv s) (who : Initiator) (off : Nat) (bs : List Byte) : Inv (regWrites s who off bs).1 :=
  foldN_keeps (P := fun r : State × Nat × Option MemErr => Inv r.1) (fun r i hr => by
    dsimp only
    split
    · exact hr
    · split
      · exact Inv.refuseCount (s := _) hr _ _ _
      · have q : Inv _ := hr
        exact { q with }) h

theorem Inv.readPiece (h : Inv s) (who : Initiator) (a len : Nat) : Inv (readPiece s who a len).1 := by
  have g : Inv (if unchecked who then (s, true) else Machine.leveeCheck s who (initWorld s who) .e .read (rgnNow s) a).1 := by
    split
    · exact h
    · exact h.leveeCheck _ _ _ _ _ _
  revert g
  generalize q : (if unchecked who then (s, true) else Machine.leveeCheck s who (initWorld s who) .e .read (rgnNow s) a) = r
  intro g
  unfold Machine.readPiece
  split
  · exact h
  · exact h.regReads _ _ _
  · rw [q]
    dsimp only
    split
    · exact g
    · split
      · exact g.noteUe _ _
      · exact g

theorem Inv.writePiece (h : Inv s) (who : Initiator) (a : Nat) (bs : List Byte) : Inv (writePiece s who a bs).1 := by
  have g : Inv (if unchecked who then (s, true) else Machine.leveeCheck s who (initWorld s who) .e .write (rgnNow s) a).1 := by
    split
    · exact h
    · exact h.leveeCheck _ _ _ _ _ _
  revert g
  generalize q : (if unchecked who then (s, true) else Machine.leveeCheck s who (initWorld s who) .e .write (rgnNow s) a) = r
  intro g
  unfold Machine.writePiece
  split
  · exact h
  · exact h.regWrites _ _ _
  · rw [q]
    dsimp only
    split
    · exact g
    · split
      · exact g.noteUe _ _
      · exact g.pokeMem _ _

/-- What wholeRead does to the state: nothing. -/
@[simp] theorem wholeRead_fst (r : State × List Byte × Option MemErr) : (wholeRead r).1 = r.1 := by
  obtain ⟨s, bs, e⟩ := r
  cases e <;> rfl

theorem Inv.devReadN (h : Inv s) (who : Initiator) (a len : Nat) : Inv (devReadN s who a len).1 := by
  unfold Machine.devReadN
  split
  · exact h
  · refine foldl_keeps (P := fun r : State × List Byte × Option MemErr => Inv r.1) (fun r p hr => ?_) h
    split
    · exact hr
    · have q := Inv.readPiece (s := _) hr who p.1 p.2
      split <;> simp_all

theorem Inv.devRead (h : Inv s) (who : Initiator) (a len : Nat) : Inv (devRead s who a len).1 := by
  simpa [Machine.devRead] using h.devReadN who a len

theorem Inv.devWrite (h : Inv s) (who : Initiator) (a : Nat) (bs : List Byte) : Inv (devWrite s who a bs).1 := by
  unfold Machine.devWrite
  split
  · exact h
  · refine foldl_keeps (P := fun r : State × Nat × Option MemErr => Inv r.1) (fun r p hr => ?_) h
    dsimp only
    split
    · exact hr
    · exact Inv.writePiece (s := _) hr who p.1 _

theorem Inv.memReadN (h : Inv s) (who : Initiator) (a : Addr) (len : Nat) : Inv (memReadN s who a len).1 := by
  unfold Machine.memReadN
  split
  · split <;> exact h
  · split
    · exact h.devReadN _ _ _
    · exact h

theorem Inv.memRead (h : Inv s) (who : Initiator) (a : Addr) (len : Nat) : Inv (memRead s who a len).1 := by
  simpa [Machine.memRead] using h.memReadN who a len

theorem Inv.memWriteN (h : Inv s) (who : Initiator) (a : Addr) (bs : List Byte) : Inv (memWriteN s who a bs).1 := by
  unfold Machine.memWriteN
  split
  · split
    · exact h
    · exact h.pokeHost _ _
  · split
    · exact h.devWrite _ _ _
    · exact h

theorem Inv.memWrite (h : Inv s) (who : Initiator) (a : Addr) (bs : List Byte) : Inv (memWrite s who a bs).1 := h.memWriteN who a bs

/-! ### The canonical form alone -/

theorem reset_memory_wf : Memory.wf State.reset = true := rfl

theorem pokeRaw_wf (h : Memory.wf s = true) (writer : Option Nat) (a : Nat) (bs : List Byte) : Memory.wf (pokeRaw s writer a bs) = true := by
  have m (t : State) (q : t.mem = s.mem) (r : t.hostMem = s.hostMem) : Memory.wf { t with mem := cellsSet t.mem a bs } = true := by
    unfold Memory.wf at *
    simp only [Bool.and_eq_true] at h ⊢
    rw [q, r]
    exact ⟨cellsWf_cellsSet h.1 a bs, h.2⟩
  unfold Machine.pokeRaw
  refine m _ ?_ ?_ <;> · unfold Machine.markDirty; split <;> rfl

theorem pokeMemBy_wf (h : Memory.wf s = true) (writer : Option Nat) (a : Nat) (bs : List Byte) : Memory.wf (pokeMemBy s writer a bs) = true :=
  pokeRaw_wf (s := yieldLocked s a bs.length) h writer a bs

theorem pokeMem_wf (h : Memory.wf s = true) (a : Nat) (bs : List Byte) : Memory.wf (pokeMem s a bs) = true := pokeMemBy_wf h none a bs

theorem pokeHost_wf (h : Memory.wf s = true) (a : Nat) (bs : List Byte) : Memory.wf (pokeHost s a bs) = true := by
  unfold Memory.wf at *
  simp only [Bool.and_eq_true] at h ⊢
  exact ⟨h.1, cellsWf_cellsSet h.2 a bs⟩

/-! ### What the memory operations answer -/

/-- A write of the device itself changes the memory as `cellsSet` says. -/
theorem pokeMem_mem (a : Nat) (bs : List Byte) : (pokeMem s a bs).mem = cellsSet s.mem a bs := by
  unfold Machine.pokeMem Machine.pokeMemBy Machine.pokeRaw
  dsimp only
  unfold Machine.markDirty
  split <;> rfl

/-- Reading a byte back after a write of the device: a written byte, or what stood there. -/
theorem cellGet_pokeMem (h : Memory.wf s = true) (a b : Nat) (bs : List Byte) :
    cellGet (pokeMem s a bs).mem b = if a ≤ b ∧ b < a + bs.length then nth 0 bs (b - a) else cellGet s.mem b := by
  have m : cellsWf s.mem = true := by unfold Memory.wf at h; simp only [Bool.and_eq_true] at h; exact h.1
  rw [pokeMem_mem, cellGet_cellsSet m]

/-- A read of memory within one page that the Levee grants and no error touches answers the bytes and leaves the state. -/
theorem readPiece_granted {who : Initiator} {a len : Nat} (hn : placeOf s a ≠ .nowhere) (hr : placeOf s a ≠ .regs)
    (hg : unchecked who = true ∨ leveeCheck s who (initWorld s who) .e .read (rgnNow s) a = (s, true)) (hu : ueHit s a len = none) :
    readPiece s who a len = (s, .ok (peekMem s a len)) := by
  unfold Machine.readPiece
  split
  · exact (hn (by assumption)).elim
  · exact (hr (by assumption)).elim
  · have q : (if unchecked who then (s, true) else Machine.leveeCheck s who (initWorld s who) .e .read (rgnNow s) a) = (s, true) := by
      split
      · rfl
      · exact hg.resolve_left (by assumption)
    rw [q]
    simp [hu]

/-- A write of memory within one page that the Levee grants and no partial error touches writes the bytes. -/
theorem writePiece_granted {who : Initiator} {a : Nat} {bs : List Byte} (hn : placeOf s a ≠ .nowhere) (hr : placeOf s a ≠ .regs)
    (hg : unchecked who = true ∨ leveeCheck s who (initWorld s who) .e .write (rgnNow s) a = (s, true))
    (hu : uePart s a bs.length = none) : writePiece s who a bs = (pokeMem s a bs, bs.length, none) := by
  unfold Machine.writePiece
  split
  · exact (hn (by assumption)).elim
  · exact (hr (by assumption)).elim
  · have q : (if unchecked who then (s, true) else Machine.leveeCheck s who (initWorld s who) .e .write (rgnNow s) a) = (s, true) := by
      split
      · rfl
      · exact hg.resolve_left (by assumption)
    rw [q]
    simp [hu]

end Sys2Proof.Safety
end

