-- ==== Sys2Proof/WellFormed.lean ====
section
/-! DEFINITION. Well-formed commands: the checks that the operand types do not already make. -/

namespace Sys2Proof

/-- A byte list of at most n bytes. -/
def atMost (n : Nat) (l : List Byte) : Bool := decide (l.length ≤ n)

/-- R99: an operation entry carries inline chains of 0 to 3 CCWs, a subchannel number of 16 bits, a
queue number below 1,024, and a 16-bit operation tag. -/
def Op.wf (o : Op) : Bool :=
  decide (o.inl.length ≤ 3) && decide (o.sub < 65536) && decide (o.tag < 65536) && decide (o.queue < 1024) && decide (o.code < 256)

/-- A command whose operands a sender can form. -/
def Instr.wf : Instr → Bool
  | .start o | .resume o | .halt o | .clear o | .cancel o => o.wf
  | .cflFrameReceive _ f => decide (f.digests.length ≤ 16) && decide (f.echoes.length ≤ 16)
  | .cflLinkUp _ _ _ _ hash _ _ _ => decide (hash.length = 8)
  | .pdIn _ f | .ack _ f | .data _ f | .nak _ f => atMost 270 f.bytes
  | .driveIdentifyComplete _ i => atMost 20 i.serial
  | .memoryInitComplete r => atMost 256 r.hdrA && atMost 256 r.hdrB
  | _ => true

end Sys2Proof
end

