-- ==== Sys2Proof/Tests/Slice0.lean ====
section
/-! SUPPORT. Small tests of single steps, with the values the spec's tables give, and for each statement states that meet
its hypotheses, clause by clause. -/

namespace Sys2Proof.Tests

open Sys2Proof.Machine Sys2Proof.Safety

set_option maxRecDepth 40000

/-! ### Ill-formed commands -/

theorem test_wf_long_chain : Instr.wf (.start { inl := [{}, {}, {}, {}] }) = false := by decide
theorem test_wf_subchannel : Instr.wf (.resume { sub := 65536 }) = false := by decide
theorem test_wf_tag : Instr.wf (.halt { tag := 65536 }) = false := by decide
theorem test_wf_queue : Instr.wf (.clear { queue := 1024 }) = false := by decide
theorem test_wf_code : Instr.wf (.cancel { code := 256 }) = false := by decide
theorem test_wf_start : Instr.wf (.start { inl := [{}, {}, {}] }) = true := by decide

/-! ### Small states -/

/-- What a command leaves of the state, looked at through f. -/
def seen {α : Type} (o : Outcome) (f : State → α) : Option α :=
  match o with
  | .next t => some (f t)
  | _ => none

/-- A read of bytes answers these bytes and leaves this state. -/
def got {ε : Type} (r : State × Except ε (List Byte)) (s : State) (bs : List Byte) : Bool :=
  decide (r.1 = s) && match r.2 with
    | .ok x => x == bs
    | .error _ => false

theorem eq_of_got {ε : Type} {r : State × Except ε (List Byte)} {s : State} {bs : List Byte} (h : got r s bs = true) : r = (s, .ok bs) := by
  rcases r with ⟨t, x | x⟩
  · simp [got] at h
  · simp only [got, Bool.and_eq_true, decide_eq_true_eq, beq_iff_eq] at h
    rw [h.1, h.2]

/-- A read that stops at its first error answers these bytes, meets none and leaves this state. -/
def gotAll (r : State × List Byte × Option MemErr) (s : State) (bs : List Byte) : Bool :=
  decide (r.1 = s) && r.2.1 == bs && r.2.2.isNone

theorem eq_of_none {α β : Type} {r : α × Option β} (h : r.2.isNone = true) : r = (r.1, none) :=
  Prod.ext rfl (Option.isNone_iff_eq_none.1 h)

/-- Region 0 covers every page, for both worlds and every column, SHARED, with capabilities allowed; every core carries out
its coprocessor instructions itself. -/
def table : State :=
  let s := ((State.reset.setReg (Reg.rgnBase 0) 0).setReg (Reg.rgnLimit 0) 0xFFFFFF).setReg (Reg.rgnAttr 0) 0xBFFF
  ((s.setReg (Reg.devCxemu 0) 0).setReg (Reg.devCxemu 1) 0).setReg Reg.devCxemuSc 0

/-- Supervisor core SC-S at work under that table, level scheme. -/
def sc : State :=
  table.modCore 64 fun x => { x with
    run := true, lvl := true, evbase := 0x100, pc := 0x200, p := 3,
    g := [0, 5, 0x80000000, 7, 0x10000040, 0x30, 0, 0xFFFFFFFF] ++ List.replicate 24 0 }

/-- A header of SC-S, guard p1. -/
def hs : Hdr := { core := 64, pg := 1 }

/-- TE 3 runs a routine of subchannel 5, whose stores to Basin are held. -/
def chan : State :=
  let s := table.modSub 5 fun b => { b with
    attr := { valid := true, owner := 3, cls := 2, reach := 1 }
    st := .active
    resident := true
    prog := { b.prog with phase := .onCore } }
  let s := s.modTe 3 fun t => { t with slots := [5], running := some 5 }
  s.modCore 3 fun x => { x with
    run := true, pc := 0x40, rs := [0xFFFFFFF0#32]
    g := [0, 5, 0x80000000, 7, 0x10000040, 0x20000010] ++ List.replicate 26 0 }

/-- A header of the channel core of TE 3. -/
def hc : Hdr := { core := 3 }

/-! ### Instructions of a core -/

theorem witness_ready32 : Ready32 sc hs := by unfold Ready32 CoreReady; decide
theorem witness_ready32_channel : Ready32 chan hc := by unfold Ready32 CoreReady; decide
theorem witness_coreReady_short : CoreReady sc 64 2 ∧ CoreReady chan 3 2 := by unfold CoreReady; decide
theorem witness_readyCop : ReadyCop sc hs ∧ ReadyCop chan hc := by unfold ReadyCop Ready32 CoreReady; decide

theorem test_add : seen (execAdd hs 10 1 3 sc) (fun t => gRead (t.core 64) 10) = some 12 := by decide
theorem test_add_g0 : seen (execAdd hs 0 1 3 sc) (fun t => ((t.core 64).g, (t.core 64).pc)) = some ((sc.core 64).g, 0x204) := by
  decide
theorem test_div_min : seen (execDiv hs 10 2 7 sc) (fun t => gRead (t.core 64) 10) = some 0x80000000 := by decide
theorem test_div_zero : seen (execDiv hs 10 1 0 sc) (fun t => gRead (t.core 64) 10) = some 0xFFFFFFFF := by decide
theorem test_rem_min : seen (execRem hs 10 2 7 sc) (fun t => gRead (t.core 64) 10) = some 0 := by decide
theorem test_mulh : seen (execMulh hs 10 2 2 sc) (fun t => gRead (t.core 64) 10) = some 0x40000000 := by decide
theorem test_sra : seen (execSra hs 10 2 1 sc) (fun t => gRead (t.core 64) 10) = some 0xFC000000 := by decide
theorem test_clz_zero : seen (execClz hs 10 0 sc) (fun t => gRead (t.core 64) 10) = some 32 := by decide
theorem test_addi_sign : seen (execAddi hs 10 1 0x3FF sc) (fun t => gRead (t.core 64) 10) = some 4 := by decide
theorem test_lui : seen (execLui hs 10 0xABCD sc) (fun t => gRead (t.core 64) 10) = some 0xABCD0000 := by decide
theorem test_addS_channel : seen (execAddS ⟨3, 0⟩ 1 3 chan) (fun t => (gRead (t.core 3) 1, (t.core 3).pc)) = some (12, 0x42) := by decide

theorem witness_dadj_low : (1 : Nat) ≤ (1 : Fin 32).val ∧ (1 : Fin 32).val ≤ 8 ∧ 1 ≤ (8 : Fin 32).val ∧ (8 : Fin 32).val ≤ 8 := by decide
theorem test_dadd_carry : seen (execDadd hs 10 5 5 (sc.modCore 64 fun x => { x with g := setNth x.g 5 0x59999999 }))
    (fun t => (gRead (t.core 64) 10, (t.core 64).dc)) = some (0x19999998, true) := by decide

theorem witness_cmp_comb : (2 : Fin 4).val ≠ 3 := by decide
theorem test_cmp_signed : seen (execCmp hs 2 2 2 1 0 sc) (fun t => pRead (t.core 64) 2) = some true := by decide

theorem witness_return_stack : (sc.core 64).rs.length < 8 ∧ (∃ v st, (chan.core 3).rs = v :: st) ∧
    ((sc.modCore 64 fun x => { x with rs := List.replicate 8 1 }).core 64).rs.length = 8 ∧ rstrap sc (sc.core 64).world = false := by
  refine ⟨by decide, ⟨_, _, rfl⟩, by decide, by decide⟩
theorem witness_ret_not_exit : ∃ v st, ((chan.modCore 3 fun x => { x with rs := [0x100, 0xFFFFFFF0#32] }).core 3).rs = v :: st ∧
    ¬(3 < 64 ∧ v = 0xFFFFFFF0#32) := ⟨0x100, _, rfl, by decide⟩
theorem test_call_full : seen (execCall hs 8 (sc.modCore 64 fun x => { x with rs := [1, 2, 3, 4, 5, 6, 7, 8] }))
    (fun t => ((t.core 64).rs, (t.core 64).pc)) = some ([0x204, 1, 2, 3, 4, 5, 6, 7], 0x210) := by decide

/-- Level 0 of a loop is active to 0x300. -/
def looping : State := sc.modCore 64 fun x => { x with ls := [0x100, 0, 0], le := [0x300, 0, 0], lc := [2, 0, 0] }

theorem witness_loop_level0 : Ready32 sc hs ∧ (0 : Fin 4).val < 3 ∧ ¬(false = true ∧ (0 : BitVec 7) = 0) ∧ (4 : BitVec 10) ≠ 0 ∧
    (∀ i, (0 : Fin 4).val ≤ i → i < 3 → nth 0 (sc.core 64).lc i = 0) ∧ (0 < (0 : Fin 4).val → False) := by
  refine ⟨witness_ready32, by decide, by decide, by decide, ?_, by decide⟩
  intro i _ hi
  match i, hi with
  | 0, _ | 1, _ | 2, _ => decide
theorem witness_loop_level1 : Ready32 looping hs ∧ (∀ i, (1 : Fin 4).val ≤ i → i < 3 → nth 0 (looping.core 64).lc i = 0) ∧
    nth 0 (looping.core 64).lc 0 ≠ 0 ∧ ((looping.core 64).pc + 4 + BitVec.ofNat 32 (2 * (0x7D : BitVec 10).toNat)).toNat <
      (nth 0 (looping.core 64).le 0).toNat := by
  refine ⟨by unfold Ready32 CoreReady; decide, ?_, by decide, by decide⟩
  intro i h1 hi
  match i, h1, hi with
  | 0, h, _ => exact absurd h (by decide)
  | 1, _, _ | 2, _, _ => decide
theorem witness_loop_check : (looping.core 64).loopinh = false ∧ (0 : Nat) < 3 ∧ nth 0 (looping.core 64).lc 0 ≠ 0 ∧
    nth 0 (looping.core 64).le 0 = 0x300 ∧ ∀ j, 0 < j → j < 3 → nth 0 (looping.core 64).lc j ≠ 0 → nth 0 (looping.core 64).le j ≠ 0x300 := by
  refine ⟨by decide, by decide, by decide, by decide, ?_⟩
  intro j h0 hj
  match j, h0, hj with
  | 0, h, _ => exact absurd h (by decide)
  | 1, _, _ | 2, _, _ => decide
theorem test_loop_check_last : (fun y : CoreSt => (y.lc, y.pc)) (loopCheck { (looping.core 64) with lc := [1, 0, 0] } 0x300) =
    ([0, 0, 0], 0x300) := by decide
theorem test_loop_check_outer : (loopCheck { (looping.core 64) with lc := [1, 0, 4], le := [0x300, 0, 0x300], ls := [0x10, 0, 0x20] } 0x300).pc =
    0x20 := by decide

/-! Loads, stores and reservations. g4 names Basin, g5 of the channel core the register space. -/

theorem witness_load_memory : CoreReady sc 64 4 ∧ (memAddr sc 64 4 0).2.toNat % 4 = 0 ∧
    (capData (afterFetch sc 64 4) 64 (memAddr sc 64 4 0).1 (memAddr sc 64 4 0).2 4 [0]).2 = none ∧
    coreMap sc 64 (memAddr sc 64 4 0).2.toNat = .mem 0x800000040 false ∧
    (leveeCheck sc (coreWho 64) (sc.core 64).world (coreCol sc 64) .read (coreTable sc false) 0x800000040).2 = true ∧
    ueHit sc 0x800000040 4 = none := by unfold CoreReady; decide
theorem witness_load_register : CoreReady chan 3 4 ∧ (memAddr chan 3 5 0).2.toNat % 4 = 0 ∧
    coreMap chan 3 (memAddr chan 3 5 0).2.toNat = .reg 0x10 ∧ readRefused chan (coreWho 3) (regAt 0x10) = false ∧
    (capData (afterFetch chan 3 4) 3 0 (memAddr chan 3 5 0).2 4 [0]).2 = none := by unfold CoreReady; decide
theorem test_lb_sign : seen (execLb hs 10 4 3 (pokeMem sc 0x800000043 [0x80])) (fun t => gRead (t.core 64) 10) = some 0xFFFFFF80 := by
  decide
theorem test_load_alignment : seen (execLw hs 10 4 2 sc) (fun t => ((t.core 64).cause, (t.core 64).faddr)) = some (5, 0x10000042) := by
  decide
theorem witness_store_memory : Ready32 sc hs ∧ (memAddr sc 64 4 0x7F0).2.toNat % 4 = 0 ∧
    coreMap sc 64 (memAddr sc 64 4 0x7F0).2.toNat = .mem 0x800000830 false ∧
    (capData (afterFetch sc 64 4) 64 0 (memAddr sc 64 4 0x7F0).2 4 [1]).2 = none ∧
    (leveeCheck sc (coreWho 64) (sc.core 64).world (coreCol sc 64) .write (coreTable sc false) 0x800000830).2 = true ∧
    holds sc 64 false 0x800000830 = false ∧ uePart sc 0x800000830 4 = none ∧ MemOk sc := by
  unfold Ready32 CoreReady MemOk; decide
theorem witness_store_held : Ready32 chan hc ∧ holds chan 3 false 0x800000040 = true ∧
    (leveeCheck chan (coreWho 3) (chan.core 3).world (coreCol chan 3) .write (coreTable chan false) 0x800000040).2 = true ∧
    (sbPut (chan.te 3).held 0x800000040 (toBytes 4 5) none).isSome = true := by unfold Ready32 CoreReady; decide
theorem witness_store_register : coreMap chan 3 (memAddr chan 3 5 (-16 : BitVec 12)).2.toNat = .reg 0 ∧
    regRefuses chan (coreWho 3) 0 5 = false ∧ (sbReg (chan.te 3).held 0 5).isSome = true ∧
    regRefuses sc (coreWho 64) 0 5 = false := by decide
theorem test_store_bytes : seen (execSh hs 2 4 2 (sc.modCore 64 fun x => { x with g := setNth x.g 2 0xAABBCCDD }))
    (fun t => t.mem) = some [(0x800000042, 0xDD), (0x800000043, 0xCC)] := by decide
theorem test_store_held : seen (execSw hc 1 4 0 chan) (fun t => (t.mem, (t.te 3).held.stores.map fun e => (e.blk, e.mask))) =
    some ([], [(0x800000040, 0xF)]) := by decide
theorem witness_lr : schemeCap sc (sc.core 64).world = false ∧ 0x10000000 ≤ (gRead (sc.core 64) 4).toNat ∧
    (gRead (sc.core 64) 4).toNat < 0x11000000 ∧ (gRead (sc.core 64) 4).toNat % 4 = 0 ∧
    bitOf (attrOf chan false 0x800000040) 13 = true ∧ coreMap chan 3 (gRead (chan.core 3) 4).toNat = .mem 0x800000040 false ∧
    (reserve (chan.te 3).held.rsv 0x800000040).isSome = true := by decide
theorem witness_sc_reserved : rsvHeld (sc.modCore 64 fun x => { x with rsv := some 0x800000040 }) 64 0x800000040 = true ∧
    rsvHeld (chan.modTe 3 fun t => { t with held := { t.held with rsv := [{ granule := 0x800000040 }] } }) 3 0x800000040 = true ∧
    rsvHeld sc 64 0x800000040 = false := by decide
theorem test_lr_sc : seen (execSc hs 10 1 4 (sc.modCore 64 fun x => { x with rsv := some 0x800000040 }))
    (fun t => (gRead (t.core 64) 10, t.mem)) = some (0, [(0x800000040, 5)]) := by decide
theorem test_sc_without : seen (execSc hs 10 1 4 sc) (fun t => (gRead (t.core 64) 10, t.mem)) = some (1, []) := by decide

theorem witness_core_error : CoreReady sc 64 4 ∧ ({ hs with ecc := 6 } : Hdr).ecc ≠ 0 ∧ schemeCap sc (sc.core 64).world = false ∧
    (sc.core 64).hf = false ∧ (sc.core 64).fesc = false := by
  unfold CoreReady; decide
theorem test_core_error : seen (execAdd { hs with ecc := 6 } 1 2 3 sc) (fun t => ((t.core 64).cause, (t.core 64).faddr == (sc.core 64).pc &&& ~~~15#32)) =
    some (0x60015, true) := by decide
theorem test_core_error_short : seen (execNopS ⟨64, 3⟩ sc) (fun t => ((t.core 64).cause, (t.core 64).faddr)) = some (0x30015, 0) := by decide

/-! Control registers, capabilities, gates. -/

/-- An untagged or tagged capability of the safety world: base, length, permissions, object type, sealed. -/
def cap (base len perms otype : Nat) (sealing : Bool) : Cap :=
  { body := BitVec.ofNat 128 (base + 2 ^ 32 * len + 2 ^ 64 * perms + 2 ^ 80 * otype + (if sealing then 2 ^ 93 else 0)), tag := true }

/-- SC-S under the capability scheme, at work with a PCC over the whole Loam. -/
def capSc : State :=
  (sc.setReg Reg.leveeCtl 1).modCore 64 fun x => { x with
    pcc := cap 0 0x40000 0xFF 0 false
    c := [{}, cap 0x10000000 0x1000 0xFF 0 false, cap 0x10000000 0x1000 0x3 0 true, cap 0 0x40000 0xFF 0 false] ++ List.replicate 4 {} }

theorem witness_mfc : crAssigned (schemeCap sc (sc.core 64).world) 0x000 = true ∧
    crAssigned false 0x094 = true ∧ crAssigned false 0x04B = true ∧ crAssigned true 0x083 = true ∧
    isSupervisor sc 64 = true ∧ isSupervisor capSc 64 = true := by decide
theorem witness_capability_scheme : Ready32 capSc hs ∧ schemeCap capSc (capSc.core 64).world = true ∧
    isSupervisor capSc 64 = true := by unfold Ready32 CoreReady; decide
theorem test_mfc_st : seen (execMfc hs 10 0 sc) (fun t => gRead (t.core 64) 10) = some 4 := by decide
theorem test_mfc_id : seen (execMfc hs 10 1 sc) (fun t => gRead (t.core 64) 10) = some 0x80 := by decide
theorem test_mtc_evbase : seen (execMtc hs 0x40 7 sc) (fun t => (t.core 64).evbase) = some 0xFFFFFFC0 := by decide
theorem test_ecinval_one : seen (execEcinval hs 1 (sc.modCore 64 fun x => { x with ecache := [(5, 1), (6, 1)] }))
    (fun t => (t.core 64).ecache) = some [(6, 1)] := by decide

theorem witness_brk : (64 ≤ (hs.core.val)) ∧ (chan.dbg 3).brkEn = false ∧
    ((chan.modMon fun m => { m with te := tmod {} m.te 3 fun d => { d with brkEn := true } }).dbg 3).brkEn = true := by decide
theorem test_xret : seen (execXret hs (sc.modCore 64 fun x => { x with rax := 0x500, stx := 0x2305 }))
    (fun t => ((t.core 64).pc, (t.core 64).lvl, (t.core 64).mlvl, (t.core 64).loopinh)) = some (0x500, true, 3, true) := by decide

theorem witness_csetb : (cRead (capSc.core 64) 1).tag = true ∧ capSealed (cRead (capSc.core 64) 1) = false ∧
    capBase (cRead (capSc.core 64) 1) ≤ (gRead (capSc.core 64) 4).toNat ∧
    (gRead (capSc.core 64) 4).toNat + (gRead (capSc.core 64) 5).toNat ≤ capBase (cRead (capSc.core 64) 1) + capLen (cRead (capSc.core 64) 1) := by
  decide
theorem witness_cseal : capPerm (capSc.core 64).pcc 5 = true ∧ (gRead (capSc.core 64) 0).toNat % 4096 = capOtype (capSc.core 64).pcc := by
  decide
theorem witness_cunseal : (cRead (capSc.core 64) 2).tag = true ∧ capSealed (cRead (capSc.core 64) 2) = true ∧
    capOtype (cRead (capSc.core 64) 1) = capOtype (cRead (capSc.core 64) 2) ∧
    (capUse (afterFetch capSc 64 4) 64 (cRead (capSc.core 64) 1) none [6]).2 = none := by decide
theorem witness_cjmp : (capUse (afterFetch capSc 64 4) 64 (cRead (capSc.core 64) 3) none [2]).2 = none ∧ (5 : Fin 32).val < 6 := by decide
theorem test_candp : seen (execCandp hs 4 1 1 capSc) (fun t => capPerms (cRead (t.core 64) 4)) = some 5 := by decide
theorem test_cunseal : seen (execCunseal hs 4 2 1 capSc) (fun t => (capSealed (cRead (t.core 64) 4), (cRead (t.core 64) 4).tag)) =
    some (false, true) := by decide

theorem witness_clc : (gRead (capSc.core 64) 4 + (0 : BitVec 9).signExtend 32 <<< 4).toNat % 16 = 0 ∧
    coreMap capSc 64 (gRead (capSc.core 64) 4).toNat = .mem 0x800000040 false ∧ holds capSc 64 false 0x800000040 = false ∧
    tagged capSc 0x800000040 = true ∧ (capData (afterFetch capSc 64 4) 64 1 (gRead (capSc.core 64) 4) 16 [0]).2 = none ∧
    (leveeCheck capSc (coreWho 64) (capSc.core 64).world .p .read (coreTable capSc false) 0x800000040).2 = true ∧
    ueHit capSc 0x800000040 16 = none := by decide
theorem witness_csc : bitOf (attrOf capSc false 0x800000040) 15 = true ∧
    (capData (afterFetch capSc 64 4) 64 1 (gRead (capSc.core 64) 4) 16 [1, 4]).2 = none ∧ (cRead (capSc.core 64) 1).tag = true ∧
    (leveeCheck capSc (coreWho 64) (capSc.core 64).world .p .write (coreTable capSc false) 0x800000040).2 = true ∧
    uePart capSc 0x800000040 16 = none ∧ MemOk capSc ∧ 0x800000040 % 16 = 0 := by unfold MemOk; decide
theorem test_csc_tag : seen (execCsc hs 1 4 1 0 capSc) (fun t => t.tags) = some [0x800000040] := by decide

/-- One gate, number 0, in Loam data at 0x20000: pc 0x400, stack top 0x21000, supervisor level, six unchecked arguments. -/
def gateD : List Byte := toBytes 4 0x401 ++ toBytes 4 0x21000 ++ toBytes 4 1 ++ List.replicate 20 0

/-- SC-S in the unprivileged level, with that gate in its table. -/
def gated : State :=
  pokeMem (sc.modCore 64 fun x => { x with lvl := false, gtbase := 0x20000, gtcount := 1 }) (loamAt 64 + 0x20000) gateD

/-- The same core inside the gate. -/
def inGate : State :=
  pokeMem (sc.modCore 64 fun x => { x with gates := [{ num := 0, frame := 0x20FF0 }] }) (loamAt 64 + 0x20FF0)
    (toBytes 4 0x204 ++ toBytes 4 0x1F000 ++ toBytes 4 0 ++ toBytes 4 0)
theorem witness_gate : Ready32 gated hs ∧ (gated.core 64).g.length = 32 ∧ schemeCap gated (gated.core 64).world = false ∧
    (0 : Fin 1024).val < (gated.core 64).gtcount ∧ gateValid gateD = true ∧ (gated.core 64).gates.length < 4 ∧
    (∀ r ∈ (gated.core 64).gates, r.num ≠ 0) ∧ wordAt gateD 1 ≠ 0 := by unfold Ready32 CoreReady; decide
theorem witness_gate_descriptor :
    loadIn (afterFetch gated 64 4) 64 .p 0x20000 32 = (afterFetch gated 64 4, .ok gateD) := eq_of_got (by decide)
theorem witness_gate_frame : ∃ u w, gateCheck (afterFetch gated 64 4) 64 gateD gateArgs = (u, none) ∧
    storeIn u 64 .p (wordAt gateD 1 - 16) (gateFrame (u.core 64) false 0 ((gated.core 64).pc + 4)) none = (w, none) ∧
    w.posted = [] := ⟨_, _, eq_of_none (by decide), eq_of_none (by decide), by decide⟩
theorem test_gate : seen (execGate hs 0 gated) (fun t => ((t.core 64).pc, (t.core 64).lvl, gRead (t.core 64) 31)) =
    some (0x400, true, 0x20FF0) := by decide
theorem witness_gret : ∃ r rest f, Ready32 inGate hs ∧ schemeCap inGate (inGate.core 64).world = false ∧
    (inGate.core 64).gates = r :: rest ∧ loadIn (afterFetch inGate 64 4) 64 .p r.frame 16 = (afterFetch inGate 64 4, .ok f) ∧
    fld (wordAt f 2) 9 0 = r.num := by
  refine ⟨{ num := 0, frame := 0x20FF0 }, [], toBytes 4 0x204 ++ toBytes 4 0x1F000 ++ toBytes 4 0 ++ toBytes 4 0, ?_, by decide,
    by decide, eq_of_got (by decide), by decide⟩
  unfold Ready32 CoreReady; decide
theorem test_gret : seen (execGret hs inGate) (fun t => ((t.core 64).pc, (t.core 64).lvl, gRead (t.core 64) 31)) =
    some (0x204, false, 0x1F000) := by decide

/-! Coprocessors. -/

theorem test_crc16 : seen (execCrc16B hs 10 7 8 (sc.modCore 64 fun x => { x with g := setNth (setNth x.g 7 0xFFFF) 8 0x31 }))
    (fun t => gRead (t.core 64) 10) = some 0xC782 := by decide
theorem test_c64 : seen (execC64W hs 1 (sc.modCore 64 fun x => { x with acc := 0 })) (fun t => (t.core 64).acc != 0) = some true := by
  decide
theorem witness_sxppl : (sc.core 64).sx.length = 256 := by decide
theorem test_sxput : seen (execSxput hs 7 sc) (fun t => (nth 0 (t.core 64).sx 0, nth 0 (t.core 64).sx 1, (t.core 64).idx)) =
    some (0xFFFF, 0xFFFF, 2) := by decide
theorem test_sxget_end : seen (execSxget hs 10 (sc.modCore 64 fun x => { x with idx := 256 })) (fun t => (gRead (t.core 64) 10, (t.core 64).idx)) =
    some (0, 256) := by decide
theorem test_sxset : seen (execSxset hs 7 sc) (fun t => (t.core 64).idx) = some 256 := by decide
theorem witness_fird : ReadyCop chan hc ∧ (gRead (chan.core 3) 0).toNat % 4 = 0 ∧
    (snapBytes (fieldImage (afterFetch chan 3 4) 3) 0 4).isSome = true ∧ hc.core.val < 64 := by
  unfold ReadyCop Ready32 CoreReady; decide
theorem witness_fiout : (∃ o ∈ ([(1, 2)] : List (Nat × Nat)), o.1 = 1) ∧ (∀ o ∈ (chan.te 3).held.outs, o.1 ≠ 5) ∧
    (chan.te 3).held.outs.length < 1024 ∧ (1024 ≤ (List.replicate 1024 ((1, 2) : Nat × Nat)).length) := by
  exact ⟨by decide, by decide, by decide, Nat.le_of_eq List.length_replicate.symm⟩
theorem test_fiout_replaces : seen (execFiout hc 1 (chan.modTe 3 fun t => { t with held := { t.held with outs := [(4, 1), (5, 9)] } }))
    (fun t => (t.te 3).held.outs) = some [(4, 1), (5, 0)] := by decide
theorem witness_fioutr : (chan.te 3).held.outs.find? (fun o => o.1 == 96) = none ∧
    ([(5, 9)] : List (Nat × Nat)).find? (fun o => o.1 == 5) = some (5, 9) := by decide
theorem test_tblo : seen (execTblo hs 10 (sc.setNow 0x500000007)) (fun t => (gRead (t.core 64) 10, (t.core 64).tbHi)) =
    some (7, 5) := by decide

/-! ### Entries and faults of a supervisor core, the Levee -/

/-- A source with level 3 waits for SC-S. -/
def asked : State := sc.modEv fun e => { e with en := true, src := [(5, { prio := 0x65, en := true, count := 1 })] }

theorem witness_interrupt : scRuns asked 0 = true ∧ asked.posted = [] ∧ presented asked 0 = some 3 ∧ 1 ≤ 3 ∧ 3 ≤ 7 ∧
    (asked.core 64).mlvl < 3 := by decide
theorem witness_interrupt_masked : presented asked 0 = some 3 ∧
    3 ≤ ((asked.modCore 64 fun x => { x with mlvl := 3 }).core 64).mlvl := by decide
theorem test_interrupt : seen (execInterruptTake 0 asked) (fun t => ((t.core 64).cause, (t.core 64).rax, (t.core 64).pc, (t.core 64).mlvl)) =
    some (0x23, 0x200, 0x100, 7) := by decide

/-- The watchdog of SC-S is on, with a period of 5 µs that has passed. -/
def late : State := (sc.setReg (Reg.scWdogCtl 0) 0x10005).setNow 5000

theorem witness_watchdogs : scRuns late 0 = true ∧ (late.core 64).hf = false ∧ (late.core 64).fesc = false ∧ wdogEn late 0 = true ∧
    (late.sc 0).expired = false ∧ (late.sc 0).kick.toNat + wdogPer late 0 ≤ late.now.toNat := by decide
theorem witness_watchdog_second : scRuns (late.modCore 65 fun x => { x with run := true }) 1 = true ∧
    wdogEn (late.setReg (Reg.scWdogCtl 1) 0x10005) 1 = true ∧
    ((late.modSc 1 fun y => { y with expired := true }).sc 1).expired = true ∧ ((1 : Fin 2).val = 1) := by decide
theorem witness_kick : (0x1234A5C3 : Word).toNat % 65536 = 0xA5C3 := by decide
theorem test_second_fault_escalates : seen (execProgressWatchdog 64 (sc.modCore 64 fun x => { x with fesc := true }))
    (fun t => ((t.core 64).cause, (t.core 64).hf)) = some (0x11618, true) := by decide
theorem witness_supervisor_fault : scRuns sc 0 = true ∧ (sc.core 64).hf = false ∧ (0x05 : Nat) < 256 := by decide
theorem witness_supervisor_lock : ((sc.modCore 64 fun x => { x with hf := true }).core 64).hf = true ∧ sc.sluice = [] := by decide
theorem test_lock : (fun t : State => ((t.sc 0).locked, (t.sc 0).lcause, (t.core 64).run))
    (trap (sc.modCore 64 fun x => { x with hf := true, cause := 0x18 }) 64 5 0 0x200 0) = (true, 5, false) := by decide

theorem witness_guard_false : CoreReady sc 64 4 ∧ guardTrue { core := 64, pg := 2 } (sc.core 64) = false ∧ (2 : Fin 8).val ≠ 0 := by
  unfold CoreReady; decide
theorem witness_instruction_faults : CoreReady sc 64 4 ∧ 64 ≤ hs.core.val ∧ schemeCap sc (sc.core 64).world = false ∧
    (sc.core 64).hf = false ∧ (sc.core 64).fesc = false ∧ guardTrue hs (sc.core 64) = true ∧
    (gRead (sc.core 64) 1 + (0 : BitVec 12).signExtend 32).toNat % 4 ≠ 0 ∧
    coreMap sc 64 (gRead (sc.core 64) 2).toNat = .nothing ∧ (sc.core 64).rs = [] ∧ (sc.core 64).gates = [] ∧
    (gRead (sc.core 64) 1).toNat < 0x10000000 ∧ (sc.core 64).gtcount ≤ (0 : Fin 1024).val := by unfold CoreReady; decide
theorem witness_instruction_faults_more : rstrap (sc.setReg Reg.devCoreCfg 1) .safety = true ∧
    (gated.core 64).lvl = false ∧ cxemu State.reset 64 = true ∧ (({ core := 64, inv := true } : Hdr).pg.val = 0) := by decide
theorem test_reserved_guard : seen (execAdd { core := 64, inv := true } 3 2 1 sc) (fun t => ((t.core 64).cause, (t.core 64).faddr)) =
    some (1, 0xE2018820) := by decide
theorem test_lw_nothing : seen (execLw hs 10 2 0 sc) (fun t => ((t.core 64).cause, (t.core 64).faddr)) = some (0x10007, 0x80000000) := by
  decide

theorem witness_region : (bitOf (rgnNow table 0).2.2 0 = true ∧ (rgnNow table 0).1 ≤ 0x800000040 / 4096 ∧
    0x800000040 / 4096 ≤ (rgnNow table 0).2.1) ∧ (0 : Nat) < 64 := by decide
theorem witness_no_region : ∀ i, i < 64 → ¬(bitOf (rgnNow State.reset i).2.2 0 = true) := by decide
theorem test_levee_refuses : (leveeCheck State.reset .scS .safety .p .write (rgnNow State.reset) 0x800000000).2 = false ∧
    (leveeCheck State.reset .scS .safety .p .write (rgnNow State.reset) 0x800000000).1.levee.refuseCnt = 1 := by decide
theorem witness_levee_commit : Writes sc .scS 0x2404 1 ∧ tableFault (dramPages sc) (rgnShadow sc) ≠ none ∧
    tableFault (dramPages State.reset) (rgnShadow State.reset) = none := by unfold Writes; simp only [Reaches]; decide
theorem witness_levee_done : (sc.modLevee fun l => { l with busy := true, revBusy := true }).levee.busy = true := by decide
theorem witness_levee_revoke : Writes sc .scS 0x2424 (BitVec.ofNat 32 (2 ^ 31 + (5 : BitVec 12).toNat)) ∧ MemOk sc ∧
    fld (peekWord sc 0x800000014) 7 0 < 255 ∧ fld (peekWord (pokeMem sc 0x800000014 [0xFF]) 0x800000014) 7 0 = 255 := by
  unfold Writes MemOk; simp only [Reaches]; decide
theorem test_revoke : seen (execLeveeRevoke .scS 5 sc) (fun t => (t.mem, t.levee.revBusy)) = some ([(0x800000014, 1)], true) := by decide

/-! ### Architecture, registers, operations, sequencer -/

/-- The device after start-up, host port on, subchannel 5 configured on TE 3, its queue 7 with ring 9 in ERROR. -/
def dev : State :=
  let s := sc.modBoot fun b => { b with st := .ready, ready := true }
  let s := ((s.setReg Reg.devHostCfg 9).setNow 1000000).modIsland 3 fun x => { x with clk := 2 }
  let s := s.modSub 5 fun b => { b with attr := { valid := true, reach := 1, owner := 3, cls := 2 } }
  let s := s.modSq 7 fun q => { q with st := .enabled, desc := { q.desc with cq := 9, reach := 1, log2 := 4 } }
  s.modRing 9 fun r => { r with st := .error }

/-- The same with subchannel 5 changed. -/
def with5 (f : Sub → Sub) : State := dev.modSub 5 f

/-- An operation on subchannel 5. -/
def op5 : Op := { sub := 5, tag := 0x77, queue := 7, chain := { asel := 1, addr := 0x30000 } }

theorem tget_forall {α : Type} {P : α → Prop} (d : α) (t : Tbl α) (hd : P d) (h : ∀ e ∈ t, P e.2) (n : Nat) : P (tget d t n) := by
  induction t with
  | nil => exact hd
  | cons e t ih =>
    unfold tget tget?
    split
    · exact h e (List.mem_cons_self ..)
    · exact ih fun x hx => h x (List.mem_cons_of_mem _ hx)

theorem witness_islands : dieRuns dev = true ∧ (dev.island 3).clk ≠ 0 ∧ dev.posted = [] ∧ coreGoes dev 64 = true ∧
    ((dev.modIsland 3 fun x => { x with clk := 3 }).island 3).clk = 3 ∧ Writes dev .scS (islOff 3) 8 ∧ dev.boot.st ≠ .off ∧
    dev.sluice = [] ∧ refLink dev = none ∧ voteMode dev = 0 ∧ bitOf (dev.reg Reg.pinStormBase) 0 = false ∧
    dieRuns State.reset = false ∧ (State.reset.island 3).clk = 0 := by unfold Writes; simp only [Reaches]; decide
theorem builtin_none {s : State} {n code : Nat} (h : (s.sub n).prog.phase ≠ .onCore) : builtinRuns s n code = false := by
  unfold builtinRuns; cases hp : (s.sub n).prog.phase <;> simp_all
theorem witness_islands_no_capture (m : Nat) : (dev.sub m).prog.phase ≠ .sampling ∧ builtinRuns dev m 0x11 = false :=
  ⟨tget_forall (P := fun b : Sub => b.prog.phase ≠ .sampling) _ _ (by decide) (by decide) m,
    builtin_none (tget_forall (P := fun b : Sub => b.prog.phase ≠ .onCore) _ _ (by decide) (by decide) m)⟩
theorem witness_keepalive : isOutMode (pinMode (dev.setReg 0x40000 5) 0) = true := by decide
theorem test_tick : seen (execTimebaseTick dev) (fun t => t.now) = some 1000010 := by decide
theorem test_freq_slow : seen (execIslandFreqUpdate 3 539 dev) (fun t => (t.island 3).slow) = some true ∧
    seen (execIslandFreqUpdate 3 540 dev) (fun t => (t.island 3).slow) = some false := by decide
theorem test_handshake_core : seen (execHandshakeWatchdog 3 (.coreFetch 64) dev) (fun t => ((t.core 64).cause, (t.core 64).faddr)) =
    some (0x30006, 0x200) := by decide

theorem witness_register_writes : Writes dev .scS 0x424 7 ∧ Writes dev .scS 0x414 1 ∧ Writes dev .scS 0 1 ∧ Writes dev .scS 0x2000 1 ∧
    Writes dev .scS (islOff 3) 8 ∧ Writes dev .scS 0x4014 75 ∧ Writes dev .scS 0x4014 76 ∧ initWorld dev .scS = .safety ∧ regAt 0x1FFFFC = .none := by
  unfold Writes; simp only [Reaches]; decide
theorem witness_register_service : Writes (dev.modCore 65 fun x => { x with run := true, lvl := true, world := .service }) .scV 0x508 3 ∧
    initWorld (dev.modCore 65 fun x => { x with run := true, lvl := true, world := .service }) .scV = .service := by
  unfold Writes; simp only [Reaches]; decide
theorem witness_register_refused : worldCode (regAt 0x414) = .s ∧ dev.posted = [] ∧ hostPeriod dev = 3 ∧ fnServes dev 1 = true ∧
    coreGoes (dev.modCore 65 fun x => { x with run := true }) 65 = true ∧
    ((with5 fun b => { b with attr := { b.attr with world := .service } }).sub 5).attr.world = .service := by decide
theorem witness_register_pages : hostPeriod dev = 3 ∧ fnServes dev 0 = true ∧ fnServes dev 1 = true ∧ dev.posted = [] ∧
    (dev.page (0 * 32 + 1)).refused < 2 ^ 16 := by decide
theorem unswept_dev : Unswept dev :=
  ⟨tget_forall (P := fun b : Sub => b.prog.phase ≠ .sampling) _ _ (by decide) (by decide),
    tget_forall (P := fun d : DmaCh => d.fence = false) _ _ (by decide) (by decide)⟩
theorem witness_register_channel : coreGoes chan 3 = true ∧ regRefuses chan (.te 3) 0x200 5 = false ∧ (chan.te 3).held = {} ∧
    Reaches dev .scS ∧ dev.latch = [] := by simp only [Reaches]; decide
theorem test_latch : seen (execLatchingRead .scS 0x90000 (dev.setNow 0x700000003)) (fun t => (t.ans, seen (execLatchingRead .scS 0x90004 t) (·.ans))) =
    some ([3], some [7]) := by decide

theorem witness_operations : (dev.sub 5).attr.valid = true ∧ dev.posted = [] ∧ (dev.sub 5).st = .idle ∧ (dev.sub 5).st ≠ .fenced ∧
    clearWindow (dev.sub 5) = false ∧ ownerGone dev 5 = false ∧ (dev.sub 5).attr.movable = false ∧ (∀ code ∈ [1, 2, 3, 4, 5], inTurn dev op5 code = true) ∧
    HoldsNone dev 5 ∧ RingWaits dev (ringOfQueue dev op5.queue) ∧ (dev.sub 5).genDue = [] ∧ (dev.sub 5).genAt = none := by
  unfold HoldsNone RingWaits; decide
theorem witness_operations_none_sampling (m : Nat) : (dev.sub m).prog.phase ≠ .sampling :=
  tget_forall (P := fun b : Sub => b.prog.phase ≠ .sampling) _ _ (by decide) (by decide) m

theorem witness_operations_out_of_turn : inTurn (dev.modQ fun q => { q with handed := [{ op5 with code := 4 }] }) op5 1 = false ∧
    inTurn (dev.modQ fun q => { q with handed := [{ op5 with code := 4 }] }) op5 2 = false ∧
    inTurn (dev.modQ fun q => { q with handed := [{ op5 with code := 4 }] }) op5 3 = false ∧
    inTurn (dev.modQ fun q => { q with handed := [{ op5 with code := 3 }] }) op5 4 = false ∧
    inTurn (dev.modQ fun q => { q with handed := [{ op5 with code := 3 }] }) op5 5 = false := by decide
theorem witness_operations_full :
    ((with5 fun b => { b with st := .statusPending, held := [⟨9, {}, 0⟩, ⟨9, {}, 1⟩] }).sub 5).held.length = 2 ∧
    RingWaits (with5 fun b => { b with st := .statusPending, held := [⟨9, {}, 0⟩, ⟨9, {}, 1⟩] }) (ringOfQueue dev op5.queue) := by
  unfold RingWaits; decide

/-- Subchannel 5 runs a program that has not begun its next CCW. -/
def running : State := with5 fun b => { b with
  st := .active
  resident := true
  prog := { b.prog with phase := .fetch, op := op5, pos := .mem { asel := 1, addr := 0x30000 } } }

theorem witness_operations_active : (running.sub 5).st = .active ∧ (running.sub 5).prog.phase = .fetch ∧
    (running.sub 5).prog.dstat = 0 ∧ (running.sub 5).prog.cstat = 0 ∧ (running.sub 5).cue = false ∧ HoldsNone running 5 ∧
    RingWaits running (ringOfQueue running (running.sub 5).prog.op.queue) ∧ (running.sub 5).prog.direct = [] ∧
    (running.sub 5).prog.committed = false := by unfold HoldsNone RingWaits; decide
theorem witness_operations_states : ((with5 fun b => { b with st := .suspended }).sub 5).st = .suspended ∧
    ((with5 fun b => { b with st := .active, prog := { b.prog with phase := .onCore } }).sub 5).prog.phase = .onCore ∧
    ((with5 fun b => { b with st := .active, prog := { b.prog with phase := .onCore, committed := true } }).sub 5).prog.committed = true ∧
    ((with5 fun b => { b with st := .startPending, pend := some op5 }).sub 5).pend = some op5 ∧
    HoldsNone (with5 fun b => { b with st := .resumePending, pend := some op5 }) 5 := by unfold HoldsNone; decide
theorem test_start : seen (execStart op5 dev) (fun t => ((t.sub 5).st, (t.sub 5).pend)) =
    some (.startPending, some { op5 with code := 1 }) := by decide
theorem test_halt_idle : seen (execHalt op5 dev) (fun t => (t.sub 5).held.map fun h => (h.csw.op, h.csw.cstat, h.csw.detail)) =
    some [(3, 4, 0x0701)] := by decide
theorem test_clear : seen (execClear op5 dev) (fun t => ((t.sub 5).gen, (t.sub 5).held.map fun h => h.csw.gen)) = some (1, [1]) := by decide
theorem test_cancel : seen (execCancel op5 (with5 fun b => { b with st := .startPending, pend := some op5 }))
    (fun t => (t.sub 5).held.map fun h => h.csw.detail) = some [0x0702, 0] := by decide

/-- Subchannel 5 at the beginning of a CCW with this code. -/
def ccwReady (code : Nat) (w2 : Word) : State := with5 fun b => { b with
  st := .active
  resident := true
  prog := { b.prog with phase := .ready, op := op5, cnt := 1, cur := { w0 := BitVec.ofNat 32 (code * 2 ^ 24), w2 := w2 } } }

theorem witness_begins : Begins (ccwReady 0x16 0) 5 0x16 ∧ Begins (ccwReady 0x18 0) 5 0x18 ∧ Begins (ccwReady 0x08 0x1000) 5 0x08 ∧
    Begins (ccwReady 0x12 0) 5 0x12 := by unfold Begins; decide
theorem witness_tic_goes_on : ((ccwReady 0x08 0).sub 5).st = .active ∧ ((ccwReady 0x08 0).sub 5).clear = [] ∧
    ((ccwReady 0x08 0).sub 5).held = [] ∧ (ccwReady 0x08 0).mig.busy = false ∧
    ((ccwReady 0x08 0).te ((ccwReady 0x08 0).sub 5).attr.owner).st ≠ .retiring ∧ ((ccwReady 0x08 0).sub 5).prog.pre = [] := by decide
theorem test_nop : seen (execNop 5 (ccwReady 0x16 0)) (fun t => ((t.sub 5).prog.phase, (t.sub 5).prog.dstat)) = some (.deviceEnd, 0x0C) := by
  decide

/-- A MARK or SENSE CCW of this length whose data area is Basin. -/
def marking (code len : Nat) : State := with5 fun b => { b with
  st := .active
  resident := true
  prog := { b.prog with
    phase := .ready
    cur := { w0 := BitVec.ofNat 32 (code * 2 ^ 24 + len), w1 := 0x100, w2 := 0x81000#32 } } }

theorem witness_mark : Begins (marking 0x17 8) 5 0x17 ∧ PlainArea ((marking 0x17 8).sub 5).prog.cur 8 ∧
    ((memWriteN (marking 0x17 8) (moverOf 5) (areaAt ((marking 0x17 8).sub 5).prog.cur) (toBytes 8 1000000)).2 = (8, none)) ∧
    (memWriteN (marking 0x17 8) (moverOf 5) (areaAt ((marking 0x17 8).sub 5).prog.cur) (toBytes 8 1000000)).1.posted = [] := by
  unfold Begins PlainArea; decide
theorem witness_sense : Begins (marking 0x04 32) 5 0x04 ∧ PlainArea ((marking 0x04 32).sub 5).prog.cur 32 ∧
    ((marking 0x04 32).sub 5).sense.dev.length ≤ 5 ∧
    (memWriteN (marking 0x04 32) (moverOf 5) (areaAt ((marking 0x04 32).sub 5).prog.cur) (List.replicate 32 0)).2 = (32, none) := by
  unfold Begins PlainArea; decide
theorem test_mark : seen (execMark 5 (marking 0x17 8)) (fun t => ofBytes (peekMem t 0x800000100 8)) = some 1000000 := by decide

/-- Subchannel 5 waits in WAITEV for source 9, or for its time limit. -/
def waiting (last : Option DWord) (dead : DWord) : State :=
  (with5 fun b => { b with
    st := .active
    resident := true
    wmark := 7
    prog := { b.prog with phase := .waitev, wsrc := some 9, wdead := dead } }).modEv fun e => { e with src := [(9, { last := last })] }

theorem witness_waitev : ((waiting (some 7) 0).sub 5).prog.phase = .waitev ∧ ((waiting (some 7) 0).evSrc 9).last = some 7 ∧
    ((waiting (some 7) 0).sub 5).wmark.toNat ≤ (7 : DWord).toNat ∧ (6 : DWord).toNat < ((waiting (some 6) 0).sub 5).wmark.toNat ∧
    ((waiting none 1000000).sub 5).prog.wdead.toNat ≤ (waiting none 1000000).now.toNat ∧
    ((waiting none 1000000).sub 5).prog.wdead ≠ 0 := by decide
theorem test_waitev : seen (execWaitevArrival 5 (waiting (some 7) 0)) (fun t => ((t.sub 5).prog.phase, (t.sub 5).prog.dstat)) =
    some (.deviceEnd, 0x4C) := by decide
theorem test_waitev_timeout : seen (execWaitevTimeout 5 (waiting none 1000000)) (fun t => ((t.sub 5).prog.phase, (t.sub 5).prog.detail)) =
    some (.deviceEnd, 0x0803) := by decide

theorem witness_routine_command : ((ccwReady 0x60 0).sub 5).prog.phase = .ready ∧ ((ccwReady 0x60 0).sub 5).resident = true ∧
    routineCode 0x60 = true ∧ entryStageIn (lookupEntry (ccwReady 0x60 0) 5 0x60) = false ∧
    entryStageOut (lookupEntry (ccwReady 0x60 0) 5 0x60) = false := by decide

/-- Subchannel 5 at the end of a NOP, with this flag byte in its CCW. -/
def ending (flags : Nat) : State := with5 fun b => { b with
  st := .active
  resident := true
  prog := { b.prog with
    phase := .deviceEnd
    op := op5
    dstat := 0x0C
    cur := { w0 := BitVec.ofNat 32 (0x16 * 2 ^ 24 + flags * 2 ^ 16) }
    first := { w0 := BitVec.ofNat 32 (0x16 * 2 ^ 24) } } }

theorem witness_command_end_chains : ((ending 0x40).sub 5).prog.cur.cc = true ∧ ((ending 0x40).sub 5).prog.dstat &&& 0x13 = 0 ∧
    ((ending 0x40).sub 5).prog.cstat &&& 0x1FBFE#32 = 0 ∧ fieldCode ((ending 0x40).sub 5).prog.first.code = false ∧
    routineCode ((ending 0x40).sub 5).prog.first.code = false ∧ ((ending 0x40).te 3).recovWin = 0 := by decide
theorem witness_command_end_stops : RunsFull (ending 0) 5 ∧ ((ending 0).sub 5).prog.cur.cc = false ∧ ((ending 0).sub 5).clear = [] ∧
    ((ending 0).sub 5).attr.errSafe = false ∧ ((ending 0).sub 5).cue = false := by
  unfold RunsFull HoldsNone RingWaits; decide
theorem test_command_end : seen (execCommandEnd 5 (ending 0)) (fun t => (t.sub 5).held.map fun h => (h.csw.tag, h.csw.dstat, h.csw.cstat)) =
    some [(0x77, 0x0C, 0)] := by decide
theorem witness_runaway : RunsFull (with5 fun b => { b with st := .active, prog := { b.prog with phase := .runaway, op := op5 } }) 5 := by
  unfold RunsFull HoldsNone RingWaits; decide

theorem witness_context : ctxFirst (with5 fun b => { b with st := .startPending, pend := some { op5 with code := 1 }, prog := { b.prog with op := op5 } }) 5 = true ∧
    (dev.te 3).slots.length < 16 ∧ ((dev.te 3).st = .inService ∨ (dev.te 3).st = .slow) ∧ 0 + 1 ≤ chainLimit (dev.sub 5) := by decide
theorem witness_context_ready : (dev.te 3).st = .inService ∧ (dev.te 3).slots.length < 16 ∧
    RingWaits (with5 fun b => { b with st := .resumePending, pend := some { op5 with deadline := 5 } }) (ringOfQueue dev op5.queue) := by
  unfold RingWaits; decide
theorem witness_context_deadline : ctxFirst (with5 fun b => { b with st := .resumePending, pend := some { op5 with deadline := 5 } }) 5 = true ∧
    (5 : DWord) ≠ 0 ∧ (5 : DWord).toNat < dev.now.toNat ∧
    HoldsNone (with5 fun b => { b with st := .resumePending, pend := some { op5 with deadline := 5 } }) 5 := by
  unfold HoldsNone; decide

/-- The sixteen bytes of a CCW, its CHK field filled in for subchannel 5 of the safety world. -/
def ccwBytes (w0 w1 w2 w3 : Word) : List Byte :=
  let c : Ccw := { w0 := w0, w1 := w1, w2 := w2, w3 := w3 }
  wordsBytes [w0, w1, w2, setFld w3 15 0 (ccwCheck c 5 .safety)]

/-- Subchannel 5 fetches its next CCW from Basin, where these bytes stand. -/
def fetching (bs : List Byte) : State :=
  pokeMem (with5 fun b => { b with
    st := .active
    resident := true
    prog := { b.prog with phase := .fetch, op := op5, pos := .mem { asel := 1, addr := 0x800000200 } } }) 0x800000200 bs

theorem witness_fetch_nop : ∃ u bs, memRead (fetching (ccwBytes 0x16000000 0 0 0)) (seqOf 5) { asel := 1, addr := 0x800000200 } 16 =
      (u, .ok bs) ∧ u.subs = (fetching (ccwBytes 0x16000000 0 0 0)).subs ∧ u.q = (fetching (ccwBytes 0x16000000 0 0 0)).q ∧
    u.posted = [] ∧ (ccwOfBytes bs).code = 0x16 ∧ (ccwOfBytes bs).w2 = 0 ∧ (ccwOfBytes bs).param = 0 ∧
    (ccwOfBytes bs).chk = ccwCheck (ccwOfBytes bs) 5 .safety := by
  refine ⟨fetching (ccwBytes 0x16000000 0 0 0), ccwBytes 0x16000000 0 0 0, ?_, rfl, rfl, by decide, by decide, by decide, by decide,
    by decide⟩
  exact eq_of_got (by decide)
theorem witness_fetch_full : RunsFull (fetching []) 5 ∧ ((fetching []).sub 5).attr.errSafe = false ∧ ((fetching []).sub 5).cue = false ∧
    (fetching []).vote.rejoin.holdSub ≠ some 5 ∧ ((fetching []).sub 5).prog.phase = .fetch ∧ ((fetching []).sub 5).resident = true := by
  unfold RunsFull HoldsNone RingWaits; decide
/-- One CCW for each check that the sequencer makes after CHK, in the order of the statement's clauses. -/
theorem witness_fetch_checks :
    (ccwOfBytes (ccwBytes 0x16000000 0 0 0 ++ [])).chk ≠ 1 ∧
    4 ≤ (ccwOfBytes (ccwBytes 0x16000000 0 0x4000 0)).aselF ∧ knownCode (ccwOfBytes (ccwBytes 0x05000000 0 0 0)).code = false ∧
    (ccwOfBytes (ccwBytes 0x08000000 8 0 0)).dataAddr % 16 ≠ 0 ∧ (ccwOfBytes (ccwBytes 0x08000000 16 0 0)).dataAddr % 16 = 0 ∧
    (ccwOfBytes (ccwBytes 0x16080000 0 0 0)).code = 0x16 ∧ (ccwOfBytes (ccwBytes 0x17000008 0 0x2000 0)).aselF = 2 ∧
    (ccwOfBytes (ccwBytes 0x17000008 0 1 0)).arg ≠ 0 ∧ (ccwOfBytes (ccwBytes 0x17000000 0 0 0)).count = 0 := by decide
/-- Subchannel 5 moves the data of a WRITE. -/
def writing : State := with5 fun b => { b with
  st := .active
  resident := true
  prog := { b.prog with phase := .exchange, op := op5, cur := { w0 := 0x01000010 }, first := { w0 := 0x01000010 } } }

theorem witness_timeouts : ((fetching []).sub 5).prog.pos = .mem { asel := 1, addr := 0x800000200 } ∧ RunsFull writing 5 ∧
    (writing.sub 5).prog.first.code = 0x01 ∧ PlainArea (writing.sub 5).prog.cur (writing.sub 5).prog.cur.count ∧
    fetchEarly (fetching []) ((fetching []).sub 5) (.mem { asel := 1, addr := 0x800000200 }) = false ∧
    fetchEarly ((fetching []).setNow 9990) ((fetching []).sub 5) (.mem { asel := 1, addr := 0x800000200 }) = true ∧
    accessEarly (writing.setNow 40000000) (writing.sub 5) 0 = false ∧
    (writing.sub 5).prog.cur.pci = false ∧ ([] : List Byte).length ≤ (writing.sub 5).prog.cur.count := by
  unfold RunsFull HoldsNone RingWaits PlainArea; decide
theorem test_fetch_check : seen (execCcwFetchComplete 5 (fetching (List.replicate 16 1)))
    (fun t => (t.sub 5).held.map fun h => (h.csw.cstat, h.csw.detail)) = some [(4, 0x0104)] := by decide

/-! ### Data commands, memory, channel status words, queues -/

/-- Position 1 of Brook link 2 is ONLINE, subchannel 5 is bound to it and at the beginning of a CCW with this code. -/
def linked (code len : Nat) : State :=
  let s := with5 fun b => { b with
    attr := { b.attr with binding := 16384 + 8 * 2 + 1 }
    st := .active
    resident := true
    prog := { b.prog with
      phase := .ready
      op := op5
      first := { w0 := BitVec.ofNat 32 (code * 2 ^ 24 + len), w1 := 0x100, w2 := 0x81100#32 }
      cur := { w0 := BitVec.ofNat 32 (code * 2 ^ 24 + len), w1 := 0x100, w2 := 0x81100#32 } } }
  (s.setReg (Reg.bkCfg 2) 2).modBk 2 fun b => { b with pos := b.pos.set 1 { (nth {} b.pos 1) with st := .online } }

theorem witness_link : bindSat ((linked 0x01 4).sub 5).attr.binding = some (2, 1) ∧ bkPosSt (linked 0x01 4) 2 1 = .online ∧
    ((linked 0x01 4).sub 5).prog.committed = false ∧ Begins (linked 0x01 4) 5 0x01 ∧ PlainArea ((linked 0x01 4).sub 5).prog.cur 4 ∧
    gotAll (memReadN (startSnap (linked 0x01 4) 5) (moverOf 5) (areaAt ((linked 0x01 4).sub 5).prog.cur) 4)
      (startSnap (linked 0x01 4) 5) [0, 0, 0, 0] = true := by unfold Begins PlainArea; decide
theorem witness_link_read_control : Begins (linked 0x02 0) 5 0x02 ∧ Begins (linked 0x03 0) 5 0x03 ∧
    0x100 ≤ ((linked 0x03 0).sub 5).prog.cur.arg ∧ ((linked 0x03 0).sub 5).prog.cur.count = 0 ∧
    ((linked 0x03 0).sub 5).prog.cur.ida = false := by unfold Begins; decide
theorem witness_link_down : bkPosSt ((linked 0x02 0).setReg (Reg.bkCfg 2) 0) 2 1 ≠ .online ∧
    RunsFull ((linked 0x02 0).setReg (Reg.bkCfg 2) 0) 5 := by unfold RunsFull HoldsNone RingWaits; decide
theorem test_read_asks : seen (execRead 5 (linked 0x02 0)) (fun t => ((t.bk 2).waiting.map fun e => (e.pos, e.ty), (t.sub 5).prog.phase)) =
    some ([(1, 0x12)], .exchange) := by decide
theorem test_read_down : seen (execRead 5 ((linked 0x02 0).setReg (Reg.bkCfg 2) 0)) (fun t => (t.sub 5).held.map fun h => (h.csw.cstat, h.csw.detail)) =
    some [(0x40, 0x0901)] := by decide

/-- Ring 4 of the Silt store is ONLINE; the ring table stands at the beginning of Basin; SIFT in the ARCHIVE as sift says. -/
def archiving (sift : Word) : State :=
  pokeMem (with5 fun b => { b with
    st := .active
    resident := true
    prog := { b.prog with phase := .ready, op := op5, cur := { w0 := 0x14000008, w1 := 0x800, w2 := 0x81004#32 ||| sift } } })
    0x800000104 (toBytes 4 0x10000 ++ List.replicate 52 0 ++ toBytes 4 2)

theorem witness_archive : Begins (archiving 0) 5 0x14 ∧ arState (archiving 0) 4 = 2 ∧ bitOf ((archiving 0).sub 5).prog.cur.w2 8 = false ∧
    PlainArea ((archiving 0).sub 5).prog.cur 8 := by unfold Begins PlainArea; decide
theorem witness_archive_sift : Begins (archiving 0x100) 5 0x14 ∧ arState (archiving 0x100) 4 = 2 ∧
    bitOf ((archiving 0x100).sub 5).prog.cur.w2 8 = true ∧ PlainArea ((archiving 0x100).sub 5).prog.cur 8 ∧
    gotAll (memReadN (startSnap (archiving 0x100) 5) (moverOf 5) (areaAt ((archiving 0x100).sub 5).prog.cur) 8)
      (startSnap (archiving 0x100) 5) (List.replicate 8 0) = true := by unfold Begins PlainArea; decide

/-- A FETCHSTORE descriptor of one page from store address 0 to Basin at 0x1000. -/
def fsDesc : List Byte := wordsBytes [0x1000, 0x10008, 0, 0, 0x1000, 0, 0, 0]

/-- Extent 0 is valid with one member, and subchannel 5 begins FETCHSTORE of this length. -/
def fetchStore (len : Nat) : State :=
  let s := with5 fun b => { b with
    st := .active
    resident := true
    prog := { b.prog with phase := .ready, op := op5, cur := { w0 := BitVec.ofNat 32 (0x15000000 + len), w1 := 0x4000, w2 := 0x81000#32 } } }
  (pokeMem (pokeMem s 0x800000000 [1]) 0x800004000 fsDesc).modDrv 0 fun d => { d with st := .ready, blocks := 2 ^ 24 }

theorem witness_fetchstore : Begins (fetchStore 32) 5 0x15 ∧ PlainArea ((fetchStore 32).sub 5).prog.cur 32 ∧
    gotAll (memReadN (fetchStore 32) (moverOf 5) (areaAt ((fetchStore 32).sub 5).prog.cur) 32) (fetchStore 32) fsDesc = true ∧
    bitOf (wordAt fsDesc 1) 16 = true ∧ fld (wordAt fsDesc 1) 31 18 = 0 ∧ fld (wordAt fsDesc 3) 31 17 = 0 ∧ wordAt fsDesc 7 = 0 ∧
    (wordAt fsDesc 0).toNat % 4096 = 0 ∧ 4096 ≤ (wordAt fsDesc 4).toNat := by unfold Begins PlainArea; decide
theorem witness_fetchstore_drives : (cutRuns ((wordAt fsDesc 4).toNat / 4096) (fetchStore 32)
    ((wordAt fsDesc 0).toNat + 2 ^ 32 * fld (wordAt fsDesc 1) 15 0) 0 ((wordAt fsDesc 4).toNat / 4096)).all
      (fun x => ((fetchStore 32).drv x.1).st == .ready) = true ∧
    (cutRuns ((wordAt fsDesc 4).toNat / 4096) (fetchStore 32)
      ((wordAt fsDesc 0).toNat + 2 ^ 32 * fld (wordAt fsDesc 1) 15 0) 0 ((wordAt fsDesc 4).toNat / 4096)) ≠ [] := by decide
theorem witness_fetchstore_extent : bounceFits (fetchStore 32) 1 = true ∧
    (extFault (fetchStore 32) .safety false true 0x1000 1).isNone = true := by decide
theorem witness_fetchstore_length : (33 : Nat) % 32 ≠ 0 ∧ RunsFull (fetchStore 33) 5 ∧ Begins (fetchStore 33) 5 0x15 ∧
    PlainArea ((fetchStore 33).sub 5).prog.cur 33 := by unfold RunsFull HoldsNone RingWaits Begins PlainArea; decide

/-- Subchannel 5 begins a field command of this code, one data word in Basin. -/
def fieldCmd (code len : Nat) : State := with5 fun b => { b with
  st := .active
  resident := true
  prog := { b.prog with
    phase := .ready
    op := op5
    first := { w0 := BitVec.ofNat 32 (code * 2 ^ 24 + len), w1 := 0x4000, w2 := 0x81000#32 }
    cur := { w0 := BitVec.ofNat 32 (code * 2 ^ 24 + len), w1 := 0x4000, w2 := 0x81000#32 } } }

theorem witness_field_commands : Begins (fieldCmd 0x10 4) 5 0x10 ∧ PlainArea ((fieldCmd 0x10 4).sub 5).prog.cur 4 ∧
    gotAll (memReadN (fieldCmd 0x10 4) (moverOf 5) (areaAt ((fieldCmd 0x10 4).sub 5).prog.cur) 4) (fieldCmd 0x10 4) [0, 0, 0, 0] = true ∧
    entryValid (lookupEntry (fieldCmd 0x10 4) 5 0x10) = false ∧ Begins (fieldCmd 0x11 8) 5 0x11 ∧
    entryValid (lookupEntry (fieldCmd 0x11 8) 5 0x11) = false ∧ ((fieldCmd 0x11 8).sub 5).prog.first.param ≤ 1024 ∧
    gotAll (memReadN (fieldCmd 0x11 8) (moverOf 5) (areaAt ((fieldCmd 0x11 8).sub 5).prog.cur) 8) (fieldCmd 0x11 8) (List.replicate 8 0) = true ∧ Begins (fieldCmd 0x13 10) 5 0x13 := by
  unfold Begins PlainArea; decide

/-- The built-in routine of this code runs for subchannel 5 on TE 3, with working data w; pin 8 is a GD output owned by 5. -/
def builtin (code : Nat) (w : Work) (f : State → State) : State :=
  let s := with5 fun b => { b with
    st := .active
    resident := true
    prog := { b.prog with
      phase := .onCore
      op := op5
      first := { w0 := BitVec.ofNat 32 (code * 2 ^ 24 + 4), w2 := 0x1008#32, w3 := 0 }
      work := w } }
  f ((s.setReg (Reg.pinCfg 8) (BitVec.ofNat 32 (5 + 64 + 128 * 5))).modTe 3 fun t => { t with slots := [5], running := some 5, builtin := true })

/-- DRIVE of pin 8 to its safe value, and to the other one. -/
def driving (v : Nat) (f : State → State) : State := builtin 0x10 { bytes := toBytes 4 (8 + 65536 * v) } f

theorem witness_drive : builtinRuns (driving 0 id) 5 0x10 = true ∧ ((driving 0 id).sub 5).prog.work.bytes = toBytes 4 (8 + 65536 * 0) ∧
    pinMode (driving 0 id) 8 = 5 ∧ pinOwner (driving 0 id) 8 = some 5 ∧ ((driving 0 id).te 3).held = {} ∧
    ((driving 0 id).te 3).stageOut = false ∧ ((driving 0 id).te 3).fiOvf = false ∧ (pinSafeValue (driving 0 id) 8).toNat = 0 ∧ pinSafety (driving 0 id) 8 = false := by decide
theorem witness_drive_service : (fun s : State => (s.sub 5).attr.world == .service && pinSafety s 8)
    (driving 1 fun s => (s.setReg (Reg.pinCfg 8) (BitVec.ofNat 32 (5 + 32 + 64 + 128 * 5))).modSub 5 fun b => { b with
      attr := { b.attr with world := .service } }) = true ∧ RunsFull (driving 1 id) 5 := by
  unfold RunsFull HoldsNone RingWaits; decide
theorem witness_drive_vot : (1 : Nat) ≠ (pinSafeValue (driving 1 id) 8).toNat ∧ ((driving 1 id).sub 5).prog.first.vot = false := by decide
theorem test_drive_held : seen (execDrive 5 (driving 0 id)) (fun t => ((t.sub 5).prog.phase, (t.sub 5).prog.held.outs, (t.pin 8).value)) =
    some (.commitReq, [(8, 0)], 0) := by decide
theorem test_drive_unvoted : seen (execDrive 5 (driving 1 id)) (fun t => (t.sub 5).held.map fun h => (h.csw.cstat, h.csw.detail)) =
    some [(4, 0x0109)] := by decide

/-- PROVE with one window that is complete: two conversions that sum to 8, limits 0 to 20. -/
def proving : State := builtin 0x11
  { begun := true, prove := [{ qty := 0, low := 0, high := 20, sum := 8, n := 2 }], interval := 2
    bytes := toBytes 4 0 ++ toBytes 4 0, segs := [{ asel := 1, addr := 0x800004000, len := 8 }] } id

theorem witness_prove : builtinRuns proving 5 0x11 = true ∧ (proving.sub 5).prog.work.begun = true ∧
    2 * (4 * 2 * (5 : Int) - 5 * 8).natAbs < 4 * 2 ∧
    (memWriteN proving (moverOf 5) { asel := 1, addr := 0x800004000 }
      (toBytes 4 (setFld (setBit (wordAt (proving.sub 5).prog.work.bytes 0) 7 (decide ((5 : Int) < 0 ∨ (20 : Int) < 5))) 31 16
        ((5 : Int) % 65536).toNat).toNat)).2 = (4, none) ∧ (proving.sub 5).prog.work.bytes.length = 8 ∧
    (proving.sub 5).prog.first.arg % 2 = 0 ∧ (proving.te 3).fiOvf = false := by decide
theorem witness_sample : builtinRuns (builtin 0x13 {} id) 5 0x13 = true ∧ ((builtin 0x13 {} id).sub 5).prog.first.arg % 128 < 96 ∧
    scanned (builtin 0x13 {} id) 8 = true ∧ ((builtin 0x13 {} id).sub 5).prog.first.aselF < 2 := by decide

/-- Function 0 may issue requests, so host memory answers. -/
def hosted : State := dev.modHostFn 0 fun h => { h with bme := true }

theorem witness_memory_device : MemOk dev ∧ 0xFFC % 4096 + 4 ≤ 4096 ∧ 0x800000FFC < 2 ^ 36 ∧ placeOf dev 0x800000FFC ≠ .nowhere ∧
    placeOf dev 0x800000FFC ≠ .regs ∧ (leveeCheck dev .scS (initWorld dev .scS) .e .read (rgnNow dev) 0x800000FFC).2 = true ∧
    ueHit dev 0x800000FFC 4 = none ∧ (leveeCheck dev .scS (initWorld dev .scS) .e .write (rgnNow dev) 0x800000FFC).2 = true ∧
    uePart dev 0x800000FFC 4 = none := by unfold MemOk; decide
theorem witness_memory_refused : (leveeCheck State.reset .scS .safety .e .read (rgnNow State.reset) 0x800000000).2 = false ∧
    (leveeCheck State.reset .scS .safety .e .write (rgnNow State.reset) 0x800000000).2 = false := by decide
theorem witness_memory_nowhere : placeOf dev 0x700000000 = .nowhere ∧ 0x700000000 < 2 ^ 36 ∧ (2 ^ 36 : Nat) ≤ 2 ^ 36 := by decide
theorem witness_memory_ue : ueHit { dev with ue := [0x800000FF0] } 0x800000FFC 4 = some 0x800000FF0 := by decide
theorem witness_memory_host : bitOf (hosted.reg 0x800) 0 = true ∧ mayIssue hosted (worldFn .safety) = true ∧
    mayIssue dev (worldFn .safety) = false ∧ bitOf (State.reset.reg 0x800) 0 = false := by decide
theorem test_memory_tag_cleared : (fun r : State × Nat × Option MemErr => (r.1.tags, r.1.mem, r.2))
    (memWriteN { dev with tags := [0x800000000, 0x800000010] } .device { asel := 1, addr := 0x80000000F } [9]) =
    ([0x800000010], [(0x80000000F, 9)], (1, none)) := by decide

theorem witness_unnamed : regAt 0xD0000 = .none ∧ regAt 0x41800 = .none ∧ regAt (0x40000 + 0x40 * 95 + 0x3C) = .none ∧
    regAt (0x600 + 4 * 75) = .none ∧ Reaches dev .scS ∧ dev.posted = [] ∧ coreGoes chan 3 = true ∧ (chan.te 3).held = {} := by
  simp only [Reaches]; decide

theorem witness_csw_posts : (dev.ring 3).st = .disabled ∧ RingWaits dev 9 ∧ (dev.sub 5).held.length < 2 ∧ (dev.sub 5).toCreate = [] ∧
    2 ≤ ((with5 fun b => { b with held := [⟨9, {}, 0⟩, ⟨9, {}, 1⟩] }).sub 5).held.length := by unfold RingWaits; decide

/-- Ring 9 takes entries in Basin at 0x2000. -/
def open9 : State := dev.modRing 9 fun r => { r with st := .enabled, desc := { r.desc with log2 := 4, base := { asel := 1, addr := 0x800002000 } } }

theorem witness_csw_written : (open9.ring 9).st = .enabled ∧ ringFull (open9.ring 9) = false ∧
    (memWriteN open9 (.commit .safety) { asel := 1, addr := 0x800002000 } (wordsBytes (cswWords {}))).2 = (32, none) ∧
    (memWriteN open9 (.commit .safety) { asel := 1, addr := 0x800002000 } (wordsBytes (cswWords {}))).1.now = open9.now := by decide
theorem test_csw_words : cswWords { sub := 5, reach := 1, gen := 2, kind := 1, tag := 0x77, op := 1, dstat := 0x0C, resid := 70000 } =
    [0x01041005, 0x010C0077, 0, 0xFFFF, 0, 0, 0, 0] := by decide

/-! Queues. -/

theorem witness_doorbell_core : coreGoes dev 64 = true ∧ (dev.sq 7).st = .enabled ∧ (dev.sq 7).desc.world = .safety ∧
    (open9.ring 9).st = .enabled ∧ (open9.ring 9).desc.world = .safety ∧ (dev.sq 6).st ≠ .enabled ∧ (dev.ring 6).st ≠ .enabled := by decide
theorem witness_doorbell_host : hostPeriod dev = 3 ∧ fnServes dev 0 = true ∧ fnServes dev 1 = true := by decide
theorem test_doorbell : seen (execDbellSq 0 1 7 true dev) (fun t => (t.sq 7).reading) = some true ∧
    seen (execDbellSq 1 1 7 true dev) (fun t => ((t.sq 7).reading, (t.pages))) = some (false, [(33, { refused := 1, seen := true })]) := by
  decide

/-- Queue 7 reads its tail index, which stands in Basin at 0x3000, ring 9 its head index at 0x3004. -/
def indexed (tail head : Word) : State :=
  let s := open9.modSq 7 fun q => { q with reading := true, desc := { q.desc with tailA := { asel := 1, addr := 0x800003000 } } }
  let s := s.modRing 9 fun r => { r with reading := true, desc := { r.desc with headA := { asel := 1, addr := 0x800003004 } } }
  pokeMem s 0x800003000 (wordsBytes [tail, head])

theorem witness_index_reads : ((indexed 15 15).sq 7).reading = true ∧ ((indexed 15 15).sq 7).desc.log2 ≤ 16 ∧
    got (memRead (indexed 15 15) (.queue .safety) { asel := 1, addr := 0x800003000 } 4) (indexed 15 15) (toBytes 4 15) = true ∧
    got (memRead (indexed 16 16) (.queue .safety) { asel := 1, addr := 0x800003004 } 4) (indexed 16 16) (toBytes 4 16) = true ∧
    (wordAt (toBytes 4 15) 0).toNat < 2 ^ 4 ∧ 2 ^ 4 ≤ (wordAt (toBytes 4 16) 0).toNat ∧
    ((indexed 15 15).sq 7).issued = [] ∧ ((indexed 15 15).sq 7).head < 2 ^ 4 ∧ fld (wordAt (toBytes 4 0x10000) 0) 31 16 ≠ 0 := by decide
theorem test_tail_range : seen (execTailIndexReadComplete 7 (indexed 16 0)) (fun t => ((t.sq 7).st, (t.sq 7).err)) = some (.error, 2) := by
  decide
theorem test_tail_read : seen (execTailIndexReadComplete 7 (indexed 15 0)) (fun t => ((t.sq 7).tail, available (t.sq 7))) = some (15, 15) := by
  decide

/-- Queue 7 has three entries to read, and its visit of the round has one left. -/
def visiting : State :=
  ((dev.modSq 7 fun q => { q with tail := 3, head := 0 }).setReg Reg.dbellCtl 1).modQ fun q => { q with safe := { q.safe with visit := some (7, 1) } }

theorem witness_entry_slot : visiting.q.slotAt.toNat + 10 ≤ visiting.now.toNat ∧ notYet (dev.modQ fun q => { q with slotAt := 999995 }) 999995 10 = true ∧
    bitOf (visiting.reg 0xC0000) 0 = true ∧ readsOut visiting < 32 ∧ visiting.cu.pl = .none ∧
    (roundOf visiting .safety).visit = some (7, 1) ∧ 0 < available (visiting.sq 7) ∧ worldHasEntry visiting .safety = true ∧
    worldHasEntry visiting .service = false ∧ bitOf (State.reset.reg 0xC0000) 0 = false := by decide
theorem test_entry_slot : seen (execEntrySlot visiting) (fun t => ((t.sq 7).issued, (roundOf t .safety).visit)) = some ([(0, true, 1000000)], none) := by
  decide

/-- Queue 7 copies entry 0 from Basin at 0x4000. -/
def copying (entry : List Byte) : State :=
  pokeMem (hosted.modSq 7 fun q => { q with
    issued := [(0, true, 0)]
    tail := 3
    desc := { q.desc with base := { asel := 1, addr := 0x800004000 }, headA := { asel := 0, addr := 0x100 } } }) 0x800004000 entry

/-- A START entry of subchannel 5 with tag 0x77 and one inline CCW. -/
def entryStart : List Byte := wordsBytes [0x00050101, 0x77, 0x30000, 0x10000, 0, 0, 0, 0, 0x16000000, 0, 0, 0, 0, 0, 0, 0]

theorem witness_entry_copy : ((copying entryStart).sq 7).issued = [(0, true, 0)] ∧ mayIssue (copying entryStart) 0 = true ∧
    bitOf ((copying entryStart).reg 0x800) 0 = true ∧
    got (memRead (copying entryStart) (.queue .safety) { asel := 1, addr := 0x800004000 } 64) (copying entryStart) entryStart = true ∧
    fld (wordAt entryStart 0) 7 0 = 1 ∧ fld (wordAt entryStart 0) 9 8 ≠ 3 ∧ fld (wordAt entryStart 0) 15 10 = 0 ∧
    ((copying entryStart).sub (fld (wordAt entryStart 0) 27 16)).attr.reach = ((copying entryStart).sq 7).desc.reach ∧
    fld (wordAt entryStart 3) 19 16 ≤ 1 ∧ (wordAt entryStart 2).toNat % 16 = 0 := by decide
theorem witness_entry_malformed : fld (0x00050106 : Word) 7 0 = 6 ∧ fld (0x00050301 : Word) 9 8 = 3 ∧ fld (0x00050501 : Word) 15 10 ≠ 0 ∧
    (dev.sub 6).attr.valid = false ∧ 1 < fld (0x20000 : Word) 19 16 ∧ (0x30008 : Word).toNat % 16 ≠ 0 := by decide
theorem test_entry_copy : seen (execEntryCopyComplete 7 (copying entryStart)) (fun t => (t.q.handed.map fun o => (o.code, o.sub, o.tag, o.inl.length),
    (t.sq 7).head, t.hostMem)) = some ([(1, 5, 0x77, 1)], 1, [(0x100, 1)]) := by decide
theorem test_entry_foreign : seen (execEntryCopyComplete 7 (copying (wordsBytes [0x00060001] ++ List.replicate 60 0)))
    (fun t => ((t.sq 7).st, (t.sq 7).err, (t.sq 7).head)) = some (.error, 3, 0) := by decide

/-- Ring 9 in host memory has one entry that no tail write covers, written at 5 µs. -/
def uncovered : State := hosted.modRing 9 fun r => { r with
  st := .enabled, uncov := 1, unsig := [5000], desc := { r.desc with log2 := 4, tailA := { asel := 0, addr := 0x200 }, evTime := 1 } }

theorem witness_tail_write : (uncovered.ring 9).st ≠ .disabled ∧ 0 < (uncovered.ring 9).uncov ∧ (uncovered.ring 9).desc.tailA.asel = 0 ∧
    bitOf (uncovered.reg 0x800) 0 = true ∧ mayIssue uncovered (worldFn (uncovered.ring 9).desc.world) = true ∧
    (if (uncovered.ring 9).desc.evCount = 0 then 1 else (uncovered.ring 9).desc.evCount) ≤ (uncovered.ring 9).unsig.length := by decide
theorem witness_tail_write_later : ¬((2 : Nat) ≤ (uncovered.ring 9).unsig.length) ∧
    ¬((5000 : DWord).toNat + 1000 * 2000 ≤ uncovered.now.toNat) := by decide
theorem witness_ring_timeout : (uncovered.ring 9).unsig = [5000] ∧ (5000 : DWord).toNat + 1000 * 1 ≤ uncovered.now.toNat ∧
    (uncovered.setNow 5999).now.toNat < (5000 : DWord).toNat + 1000 * 1 := by decide

/-- Subchannel 5 holds a CSW for ring 9, which stands open in host memory. -/
def holding : State :=
  (hosted.modSub 5 fun b => { b with st := .statusPending, held := [⟨9, {}, 0⟩] }).modRing 9 fun r => { r with
    st := .enabled, desc := { r.desc with log2 := 4, base := { asel := 0, addr := 0x2000 } } }

theorem witness_held_post : holding.posted = [] ∧ KeysRise holding.subs ∧ (tget? holding.subs 5).isSome = true ∧
    (∀ x ∈ holding.subs, x.1 ≠ 5 → ∀ h ∈ x.2.held, h.ring ≠ 9) ∧ (holding.sub 5).held = [⟨9, {}, 0⟩] ∧
    (holding.sub 5).prog.phase = .none ∧ (holding.sub 5).clearWin = false ∧ (holding.sub 5).toCreate = [] ∧ (holding.sub 5).resident = false ∧ ringFull (holding.ring 9) = false := by unfold KeysRise; decide
theorem witness_no_resets (s : State) (h : s.reaches = []) (r : Nat) : (s.reach r).reqs = [] := by
  show (tget {} s.reaches r).reqs = []
  rw [h]; rfl
theorem test_held_post : seen (execHeldCswPost 9 holding) (fun t => ((t.sub 5).st, (t.sub 5).held, (t.ring 9).tail)) = some (.idle, [], 1) := by
  decide

/-! ### Queue control, reach reset -/

/-- SC-S has selected this queue or ring, and its descriptor stands at the head of Basin. -/
def selecting (sel : Word) (k : Nat) (desc : List Byte) : State :=
  pokeMem (hosted.setReg Reg.dbellQselS sel) (0x800000000 + 64 * k) desc

/-- Ring 3: 16 entries in Basin, tail address in host memory, reach 1. Queue 4: the same, with ring 9. -/
def ringDesc : List Byte := wordsBytes ([0x00002000, 0x10008, 0x81000004, 0, 0x200, 0, 0x204, 0] ++ List.replicate 8 0)
def queueDesc : List Byte := wordsBytes ([0x00002000, 0x10008, 0x81010104, 0x90000, 0x200, 0, 0x204, 0] ++ List.replicate 8 0)

theorem witness_enable_ring : selected (selecting 0x10003 3 ringDesc) .safety = (3, true) ∧ Writes (selecting 0x10003 3 ringDesc) .scS 0xC0014 1 ∧
    got (memRead (selecting 0x10003 3 ringDesc) .device { asel := 1, addr := 0x800000000 + 65536 * 0 + 64 * 3 } 64)
      (selecting 0x10003 3 ringDesc) ringDesc = true ∧ ((selecting 0x10003 3 ringDesc).ring 3).st = .disabled ∧
    descOk true ringDesc = true ∧ (parseDesc true ringDesc).tailA.asel = 0 ∧ mayIssue (selecting 0x10003 3 ringDesc) 0 = true := by
  unfold Writes; simp only [Reaches]; decide
theorem witness_enable_queue : selected (selecting 4 4 queueDesc) .safety = (4, false) ∧ ((selecting 4 4 queueDesc).sq 4).st = .disabled ∧
    descOk false queueDesc = true ∧ (parseDesc false queueDesc).headA.asel = 0 ∧ (parseDesc false queueDesc).cq = 9 ∧
    ((selecting 4 4 queueDesc).ring 9).st ≠ .disabled ∧ ((selecting 4 4 queueDesc).sq 4).headDue = false ∧
    (((selecting 4 4 queueDesc).modRing 9 fun r => { r with desc := { r.desc with world := .service } }).ring 9).desc.world ≠
      (parseDesc false queueDesc).world ∧ descOk false ringDesc = false ∧ descOk true (List.replicate 64 0) = false := by decide
theorem witness_queue_commands : Writes (selecting 7 0 []) .scS 0xC0014 1 ∧ Writes (selecting 7 0 []) .scS 0xC0014 2 ∧
    Writes (selecting 7 0 []) .scS 0xC0014 3 ∧ ((selecting 7 0 []).sq 7).st = .enabled ∧
    ((selecting 7 0 []).sq 7).headDue = false ∧
    (((selecting 7 0 []).modSq 7 fun q => { q with st := .error, err := 2 }).sq 7).err ≠ 1 ∧
    ((selecting 0x10009 0 []).ring 9).st = .error ∧ ((selecting 0x10009 0 []).ring 9).err ≠ 1 := by
  unfold Writes; simp only [Reaches]; decide
theorem witness_disable_held : ((holding.setReg Reg.dbellQselS 0x10009).sub 5).held = [⟨9, {}, 0⟩] ∧ KeysRise holding.subs ∧
    (holding.sub 5).st = .statusPending ∧ (holding.sub 5).prog.phase = .none ∧ Writes (holding.setReg Reg.dbellQselS 0x10009) .scS 0xC0014 2 := by
  unfold Writes KeysRise; simp only [Reaches]; decide
theorem tget_other {α : Type} {P : α → Prop} (d : α) (t : Tbl α) (k n : Nat) (hd : P d) (h : ∀ e ∈ t, e.1 ≠ k → P e.2) (hn : n ≠ k) :
    P (tget d t n) := by
  induction t with
  | nil => exact hd
  | cons e t ih =>
    unfold tget tget?
    split
    · rename_i he; exact h e (List.mem_cons_self ..) (fun x => hn (he ▸ x))
    · exact ih fun x hx => h x (List.mem_cons_of_mem _ hx)
theorem witness_disable_none (m : Nat) (hm : m ≠ 5) : ∀ h ∈ (holding.sub m).held ++ (holding.sub m).toCreate, h.ring ≠ 9 :=
  tget_other (P := fun b : Sub => ∀ h ∈ b.held ++ b.toCreate, h.ring ≠ 9) _ _ 5 m (by decide) (by decide) hm
theorem test_enable_ring : seen (execQueueEnable .safety (selecting 0x10003 3 ringDesc)) (fun t => ((t.ring 3).st, (t.ring 3).desc.log2)) =
    some (.enabled, 4) := by decide

theorem witness_reach_reset : reachHasSafety dev 1 = true ∧ reachHasSafety dev 2 = false ∧ dev.posted = [] ∧ (dev.reach 1).reqs = [] ∧
    KeysRise dev.subs ∧ (dev.sub 5).st = .idle ∧ dev.q.handed = [] ∧ dev.sluice = [] ∧
    Writes dev .scS 0xC0030 (BitVec.ofNat 32 (2 ^ 31 + 1 * 65536 + 2 ^ 21 + 0x77)) := by
  unfold Writes KeysRise; simp only [Reaches]; decide
theorem witness_reach_reset_none (n : Nat) : (dev.sub n).prog.phase = .none ∧ (dev.sub n).held = [] ∧ (dev.sub n).resident = false ∧
    (dev.sub n).genDue = [] ∧ (dev.sub n).st = .idle :=
  tget_forall (P := fun b : Sub => b.prog.phase = .none ∧ b.held = [] ∧ b.resident = false ∧ b.genDue = [] ∧ b.st = .idle) _ _
    (by decide) (by decide) n
theorem witness_reach_reset_idle (k : Nat) : (dev.sq k).headDue = false ∧ (dev.dch k).desc = none ∧ (dev.dch k).fence = false :=
  ⟨tget_forall (P := fun q : SubQ => q.headDue = false) _ _ (by decide) (by decide) k,
    tget_forall (P := fun d : DmaCh => d.desc = none ∧ d.fence = false) _ _ (by decide) (by decide) k⟩
theorem witness_reach_reset_host : hostPeriod dev = 3 ∧ fnServes dev 0 = true ∧ fnServes dev 1 = true := by decide
theorem witness_reach_again : ((dev.modReach 1 fun x => { x with reqs := [⟨.safety, 1, true⟩] }).reach 1).reqs ≠ [] ∧
    Unswept (dev.modReach 1 fun x => { x with reqs := [⟨.safety, 1, true⟩] }) :=
  ⟨by decide, unswept_dev⟩
theorem test_reach_reset : seen (execDbellReset 0 1 0x77 true dev) (fun t => ((t.sub 5).st, (t.sq 7).st, (t.ring 9).st, (t.reach 1).reqs.length)) =
    some (.fenced, .fenced, .error, 1) := by decide

/-- A reset of reach 1 waits for its drain; its default ring, 9, stands open in host memory. -/
def draining : State :=
  let s := (hosted.modReach 1 fun x => { x with reqs := [⟨.safety, 0x77, false⟩] }).setReg (Reg.dbellDefcq 1) 9
  let s := s.modSub 5 fun b => { b with st := .fenced }
  s.modRing 9 fun r => { r with st := .enabled, desc := { r.desc with log2 := 4, base := { asel := 0, addr := 0x2000 } } }

theorem witness_drain : (draining.reach 1).reqs = [⟨.safety, 0x77, false⟩] ∧ (draining.reach 1).drained = false ∧ KeysRise draining.subs ∧
    defaultRing draining 1 .safety = 9 ∧ (draining.ring 9).st = .enabled ∧ ringFull (draining.ring 9) = false ∧
    (∀ e ∈ draining.q.cq, e.2.st ≠ .fenced) ∧ (∀ e ∈ draining.q.sq, e.2.st ≠ .fenced) ∧ reachDrained draining 1 = true ∧ (draining.sub 5).prog.phase = .none := by
  unfold KeysRise; decide
theorem test_drain : seen (execReachResetDrainComplete 1 draining) (fun t => ((t.sub 5).st, (t.sub 5).gen, (t.reach 1).reqs, (t.ring 9).tail)) =
    some (.idle, 1, [], 1) := by decide
theorem witness_drain_waits : (running.sub 5).attr.reach = 1 ∧ (running.sub 5).prog.phase ≠ .none := by decide
theorem witness_generation : ((with5 fun b => { b with genAt := some 930000, genDue := [.reset] }).sub 5).genAt = some 930000 ∧
    (930000 : DWord).toNat + 70000 ≤ dev.now.toNat ∧ dev.now.toNat < (930001 : DWord).toNat + 70000 ∧
    ((with5 fun b => { b with genAt := some 930000, genDue := [.clear ⟨4, 0x77, 7⟩] }).sub 5).genDue = [.clear ⟨4, 0x77, 7⟩] ∧
    RingWaits dev (ringOfQueue dev 7) := by unfold RingWaits; decide
theorem test_generation : seen (execGenerationIncrement 5 (with5 fun b => { b with genAt := some 930000, genDue := [.reset], st := .fenced }))
    (fun t => ((t.sub 5).gen, (t.sub 5).st)) = some (1, .idle) := by decide

/-- Reach 1 has one running program, which waits for software source 1300, and has been quiescent three times. -/
def deadlocked : State := (with5 fun b => { b with
  st := .active
  prog := { b.prog with phase := .waitev, wsrc := some 1300, op := op5 } }).modReach 1 fun x => { x with
    quiet := 3, examAt := some 750000 }

theorem witness_deadlock : 3 ≤ (deadlocked.reach 1).quiet ∧ KeysRise deadlocked.subs ∧ softWait (deadlocked.sub 5) = true ∧
    RunsFull deadlocked 5 ∧ (deadlocked.evSrc 1300).last = none ∧
    sourceArmed deadlocked 1300 = false ∧ (deadlocked.reach 1).examAt = some 750000 ∧ (deadlocked.sub 5).waitAt.toNat ≤ (750000 : DWord).toNat ∧
    (750000 : DWord).toNat + 250000 ≤ deadlocked.now.toNat ∧ (deadlocked.setNow 999999).now.toNat < (750000 : DWord).toNat + 250000 ∧ (dev.reach 1).quiet < 3 ∧
    bitOf (deadlocked.reg (0xC0400 + 4 * ((1300 - 1280) / 32))) ((1300 - 1280) % 32) = false := by
  unfold RunsFull HoldsNone RingWaits KeysRise; decide
theorem witness_deadlock_queues : ∀ x ∈ (deadlocked.modQ fun q => { q with sq := [] }).q.sq, x.2.desc.reach ≠ 1 := by decide
theorem test_deadlock : seen (execDeadlockEnd 1 deadlocked) (fun t => ((t.reach 1).quiet, (t.sub 5).held.map fun h => (h.csw.kind, h.csw.detail))) =
    some (0, [(5, 0x0C03)]) := by decide
theorem witness_not_waiting (n : Nat) : softWait (dev.sub n) = false :=
  tget_forall (P := fun b : Sub => softWait b = false) _ _ (by decide) (by decide) n

/-! ### Events, mailboxes, the Weir -/

/-- Sources 1300 and 1301 have arrived for SC-S, 1301 with the higher priority; 7 is masked. -/
def arrived : State := dev.modEv fun e => { e with en := true, src := [(7, { count := 1, prio := 0xFF }),
  (1300, { prio := 0x40, en := true, count := 255 }), (1301, { prio := 0x41, en := true, count := 3, ovf := true })] }

theorem witness_events : srcExists 1300 = true ∧ srcExists 1229 = false ∧ srcExists 2048 = false ∧ (arrived.evSrc 1300).count = 255 ∧
    (arrived.evSrc 1300).ovf = false ∧ arrived.ev.ovfSeen = false ∧ Writes arrived .scS 0x8008 (BitVec.ofNat 32 1300) := by
  unfold Writes; simp only [Reaches]; decide
theorem witness_claim : Reaches arrived .scS ∧ KeysRise arrived.ev.src ∧ isTarget .scS 0 = true ∧ isTarget .scS 1 = false ∧
    (arrived.evSrc 1301).target = 0 ∧ (arrived.evSrc 1301).en = true ∧ (arrived.evSrc 1301).active = none ∧
    (activeAt arrived 0).length < 8 ∧ (arrived.evSrc 1301).count < 256 := by unfold KeysRise; simp only [Reaches]; decide
theorem test_claim : seen (execEvtClaim .scS 0 arrived) (fun t => (t.ans, (t.evSrc 1301).active, (t.evSrc 1301).count)) =
    some ([0x81020515], some 0, 2) := by decide
theorem test_overflow : (fun t : State => ((t.evSrc 1300).count, (t.evSrc 1300).ovf, t.ev.ovfSeen, t.ev.ovfSrc, (t.evSrc 1226).count))
    (raiseEventAt arrived 1300 0) = (255, true, true, 1300, 1) := by decide
theorem witness_done : Writes (arrived.modEv fun e => { e with src := [(1300, { active := some 0 })] }) .scS 0x8040 (BitVec.ofNat 32 1300) ∧
    ((arrived.modEv fun e => { e with src := [(1300, { active := some 0 })] }).evSrc 1300).active = some 0 ∧
    (arrived.evSrc 1300).active ≠ some 0 := by unfold Writes; simp only [Reaches]; decide
theorem witness_source_config : Writes arrived .scS (0x10000 + 4 * 1300) 0x500 ∧ (arrived.evSrc 1300).prio < 256 ∧
    (arrived.evSrc 1300).vector < 64 ∧ (arrived.evSrc 1300).target < 4 := by unfold Writes; simp only [Reaches]; decide

/-- Source 1300 goes to PF0 by vector 5, whose table entry stands open. -/
def told : State := ((dev.modEv fun e => { e with en := true, ovfSeen := true, src := [(1300, { en := true, target := 2, vector := 5 })] }).modHostFn 0
  fun h => { h with bme := true, msixEn := true, table := [(5, (0x900, 0xABCD, false))] })

theorem witness_told : KeysRise told.ev.src ∧ (told.evSrc 1300).target = 2 ∧ bitOf (nth 0 told.ev.vsent 0) 5 = false ∧
    told.ev.vsent.length = 2 ∧ told.host.fns.length = 2 ∧ (told.hostFn 0).msixEn = true ∧ (told.hostFn 0).funcMask = false ∧
    (told.hostFn 0).d3 = false ∧ tget (0, 0, true) (told.hostFn 0).table 5 = (0x900, 0xABCD, false) := by unfold KeysRise; decide
theorem test_told : (raiseEventAt told 1300 0).hostMem = [(0x900, 0xCD), (0x901, 0xAB)] := by decide

/-- READY, and channel 2 has n words waiting at its C end. -/
def mail (n : Nat) : State :=
  (dev.modMb 2 true fun e => { e with inq := List.replicate n 7, ie := 15 }).modMb 2 false fun e => { e with ie := 15 }

theorem witness_mailbox : Writes (mail 7) (.pf 0) 0x20200 5 ∧ Writes (mail 7) (.pf 0) 0x20214 3 ∧ Writes (mail 7) (.pf 0) 0x20210 3 ∧
    Writes (mail 7) (.pf 0) 0x20218 3 ∧ Writes (mail 7) (.pf 0) 0x20224 1 ∧ Writes (mail 7) (.pf 0) 0x20224 2 ∧
    fld (3 : Word) 15 0 ≠ 0xFFFF ∧ ((mail 7).mb 2 false).senderReset = false ∧ fld (0xFFFF : Word) 15 0 = 0xFFFF := by
  unfold Writes; simp only [Reaches]; decide
theorem witness_mailbox_receive : Reaches (mail 8) .scS ∧ mbxOwner .scS 2 true = true ∧ ((mail 8).mb 2 true).inq = 7 :: List.replicate 7 7 ∧
    ((mail 0).mb 2 true).inq = [] ∧ (mail 8).ready = true ∧ 8 ≤ ((mail 8).mb 2 true).inq.length := by simp only [Reaches]; decide
theorem witness_mailbox_full : mbxOwner .scS 2 true = true ∧ coreInit 64 = .scS ∧ coreGoes (mail 8) 64 = true ∧
    8 ≤ ((dev.modMb 2 false fun e => { e with inq := List.replicate 8 7 }).mb 2 false).inq.length := by decide
theorem test_mailbox_receive : seen (execMbxRx .scS 2 true (mail 1)) (fun t => (t.ans, (t.mb 2 true).inq)) = some ([7], []) := by decide

theorem witness_weir_grant : weirTarget dev 0x800000000 = 0 ∧ weirTarget dev 0x800000100 = 4 ∧ weirTarget dev 0x100 = 8 ∧ weirTarget dev 0xA00000000 = 9 ∧ (dev.weirReq 75).cnt.length = 2 ∧ dev.weir.ptrs.length = 9 := by decide
theorem test_weir_pick : (weirPick (dev.modWeirReq 3 fun x => { x with cnt := [5, 5] })
    [{ req := 9, addr := 0x800000000, wait := 90 }, { req := 3, addr := 0x800000000, wait := 1 }] 0).map (fun g => (g.1.req, g.2)) = some (3, false) := by decide
theorem test_weir_cost : askCost { req := 1, addr := 0x8000000F0, len := 256 } = 5 ∧ askCost { req := 1, addr := 0x800000000, len := 16 } = 1 := by decide
theorem witness_weir_commit : Writes dev .scS 0x4008 1 ∧ Writes dev .scS (0x600 + 4 * 64) 0x1C9D := by
  unfold Writes; simp only [Reaches]; decide
theorem test_dev_win : seen (execDevWinWrite .scS 64 0x1C9D dev) (fun t => (fld (t.reg 0x700) 4 0, fld (t.reg 0x700) 12 8)) =
    some (0, 28) := by decide

theorem witness_memory_errors : weirTarget dev 0x800000100 = 4 ∧ fld ((dev.setReg 0x420 0x100).reg 0x420) 15 8 ≠ 0 ∧ dev.ue = [] ∧
    dev.memErrs.ueValid = false ∧ fld (dev.reg 0x424) 15 0 = 0 := by decide
theorem test_scrub : seen (execWeirGrant [] [{ addr := 0x800000104, found := .uncorrectable, last := true }] true (dev.setReg 0x420 0x100))
    (fun t => (t.ue, t.memErrs.ueReq, t.memErrs.ueCount, t.memErrs.bpass)) = some ([0x800000100], 127, 1, 1) := by decide
theorem test_correctable : seen (execWeirGrant [{ req := 3, addr := 0x800000104, found := .corrected }] [] true dev)
    (fun t => (t.reg 0x424, (t.evSrc 1228).count, t.ue)) = some (1, 1, []) := by decide

/-! ### Engines, commit, resets, supply -/

/-- TE 3 is free, and subchannel 5 waits for it with a field command or a device routine of this code. -/
def queued (code : Nat) : State :=
  ((with5 fun b => { b with
      st := .active
      resident := true
      prog := { b.prog with phase := .waitCore, op := op5, first := { w0 := BitVec.ofNat 32 (code * 2 ^ 24) } } }).modTe 3 fun t => { t with
    slots := [5], waitq := [9, 5], st := .inService }).modSub 9 fun b => { b with attr := { b.attr with world := .service } }

theorem witness_dispatch : ((queued 0x10).te 3).running = none ∧ bitOf ((queued 0x10).reg (0x30000 + 0x100 * 3)) 0 = true ∧
    ((queued 0x10).dbg 3).halted = false ∧ (queued 0x10).cu.pl = .none ∧ ((queued 0x10).te 3).waitq = [9] ++ 5 :: [] ∧
    (5 : Nat) ∉ [9] ∧ ((queued 0x10).sub 5).attr.world = .safety ∧ (∀ m ∈ [9], ((queued 0x10).sub m).attr.world = .service) ∧
    ((queued 0x10).te 3).rerun = [] ∧ ((queued 0x10).te 3).dcache = [] := by decide
theorem test_dispatch_order : seen (execCoreDispatch 3 (queued 0x10)) (fun t => ((t.te 3).running, (t.te 3).waitq, (t.te 3).builtin)) =
    some (some 5, [9], true) := by decide
theorem test_dispatch_routine : seen (execCoreDispatch 3 (queued 0x20)) (fun t => ((t.core 3).run, (t.core 3).pc, (t.core 3).rs, gRead (t.core 3) 6)) =
    some (true, 0, [0xFFFFFFF0], 0x1005) := by decide

/-- Stage-in of len bytes for subchannel 5, whose entry of code 0x20 asks for it; a transfer of its mover stands for generation g. -/
def staging (len g : Nat) : State :=
  pokeMem (with5 fun b => { b with
    st := .active
    resident := true
    mover := [g]
    prog := { b.prog with
      phase := .staging
      op := op5
      first := { w0 := BitVec.ofNat 32 (0x20000000 + len), w1 := 0x4000, w2 := 0x81000#32 }
      cur := { w0 := BitVec.ofNat 32 (0x20000000 + len), w1 := 0x4000, w2 := 0x81000#32 } } })
    (0x800000000 + 0x80000 * fld (dev.reg 0x300) 12 8 + 0x2000 * 2 + 0x20 * 0x20) (toBytes 4 0x30000)

/-- The same with the transfer begun: the other buffer is next. -/
def staged (len : Nat) : State :=
  ((staging len 0).modSub 5 fun b => { b with mover := [] }).modTe 3 fun t => { t with stageAlt := !t.stageAlt }

theorem witness_stage_in : ((staging 8 0).sub 5).mover = ((staging 8 0).sub 5).gen.toNat :: [] ∧ ((staging 8 0).sub 5).prog.phase = .staging ∧
    ((staging 8 0).sub 5).resident = true ∧ PlainArea ((staging 8 0).sub 5).prog.cur 8 ∧ MemOk (staging 8 0) ∧ (staging 8 0).posted = [] ∧
    bitOf (nth 0 (lookupEntry (staging 8 0) 5 0x20) 0) 17 = true ∧
    gotAll (memReadN (staged 8) (moverOf 5) (areaAt ((staging 8 0).sub 5).prog.cur) 8) (staged 8) (List.replicate 8 0) = true := by
  unfold PlainArea MemOk; decide
theorem witness_stage_in_stale : ((staging 8 15).sub 5).mover = 15 :: [] ∧ 15 ≠ ((staging 8 15).sub 5).gen.toNat ∧
    (((staging 8 0).modSub 5 fun b => { b with prog := { b.prog with phase := .none } }).sub 5).prog.phase ≠ .staging := by decide
theorem witness_stage_in_long : PlainArea ((staging 4097 0).sub 5).prog.cur 4097 ∧ (4096 : Nat) < 4097 ∧ RunsFull (staging 4097 0) 5 := by
  unfold PlainArea RunsFull HoldsNone RingWaits; decide
theorem witness_stage_out : (fun s : State => ((s.sub 5).prog.phase, (s.sub 5).prog.stage, (s.sub 5).mover, (s.sub 5).prog.work.segs))
    (hosted.modSub 5 fun b => { b with mover := [0], prog := { b.prog with
      phase := .stageOut, stage := some (0xE000, 4), work := { segs := [{ asel := 0, addr := 0x4000, len := 4 }] } } }) =
    (.stageOut, some (0xE000, 4), [(hosted.sub 5).gen.toNat], [{ asel := 0, addr := 0x4000, len := 4 }]) ∧
    (memWriteN (hosted.modSub 5 fun b => { b with prog := { b.prog with
      phase := .stageOut, stage := some (0xE000, 4), work := { segs := [{ asel := 0, addr := 0x4000, len := 4 }] } } }) (moverOf 5)
      { asel := 0, addr := 0x4000 } [1, 2, 3, 4]).2 = (4, none) := by decide

/-- A routine of subchannel 5 runs on TE 3 of the device. -/
def onCore : State := (with5 fun b => { b with
  st := .active
  resident := true
  prog := { b.prog with phase := .onCore, op := op5 } }).modTe 3 fun t => { t with slots := [5], running := some 5, st := .inService }

theorem witness_budget : (onCore.te 3).running = some 5 ∧ (onCore.te 3).builtin = false ∧ (onCore.dbg 3).halted = false ∧
    (onCore.sub 5).attr.owner = 3 ∧ (onCore.sub 5).prog.phase = .onCore ∧ RunsFull onCore 5 ∧ (onCore.te 3).st ≠ .retiring := by
  unfold RunsFull HoldsNone RingWaits; decide
theorem test_budget : seen (execBudgetExpiry 3 onCore) (fun t => (t.sub 5).held.map fun h => (h.csw.cstat, h.csw.detail)) =
    some [(0x800, 0x0317)] := by decide

/-- All contexts of TE 3 are taken, 5 waits in WAITEV, and 6 wants a context. -/
def crowded : State :=
  ((with5 fun b => { b with st := .active, resident := true, waitAt := 0, prog := { b.prog with phase := .waitev, op := op5 } }).modSub 6 fun b => { b with
    attr := { valid := true, owner := 3, cls := 2, reach := 1 }, st := .startPending, pend := some { op5 with sub := 6, code := 1 } }).modTe 3 fun t => { t with
    st := .inService, slots := [5, 100, 101, 102, 103, 104, 105, 106, 107, 108, 109, 110, 111, 112, 113, 114] }

theorem witness_swap : 16 ≤ (crowded.te 3).slots.length ∧ (5 : Nat) ∈ (crowded.te 3).slots ∧ KeysRise crowded.subs ∧ wantsCtx (crowded.sub 6) = true ∧
    (crowded.sub 5).attr.sticky = false ∧ crowded.mig.busy = false ∧
    (crowded.sub 5).waitAt.toNat + 1000 * fld (crowded.reg 0x304) 23 16 ≤ crowded.now.toNat := by unfold KeysRise; decide
theorem test_swap : seen (execSwapOutComplete 3 crowded) (fun t => ((t.sub 5).resident, (t.te 3).slots.length, (t.te 3).swapCnt)) =
    some (false, 15, 1) := by decide
theorem witness_disp_inval : Writes dev .scS (0x30010 + 0x100 * 3) (BitVec.ofNat 32 (2 ^ 31 + 256 * 63 + 0xFF)) := by
  unfold Writes; simp only [Reaches]; decide
theorem witness_disp_cmd : Writes (dev.setReg 0x330 0x10000) .scS 0x340 (BitVec.ofNat 32 (2 ^ 31 + 256 * 2 + 0x20)) ∧
    fld (0x10000 : Word) 31 19 = 0 ∧ oldSegs dev 2 = 0 ∧ fld (0x80000 : Word) 31 19 ≠ 0 := by
  unfold Writes; simp only [Reaches]; decide
theorem witness_migrate : Writes (dev.modTe 4 fun t => { t with st := .inService }) .scS 0x324 (BitVec.ofNat 32 (2 ^ 31 + 4096 * 4 + 5)) ∧
    ((dev.modTe 4 fun t => { t with st := .inService }).te 4).st = .inService ∧ (dev.sub 5).resident = false := by
  unfold Writes; simp only [Reaches]; decide
theorem witness_migration : (fun s : State => (s.mig.busy, s.mig.sub, (s.te 4).slots.length, (s.te 3).st, (s.sub 5).prog.phase, (s.sub 5).resident))
    { ((with5 fun b => { b with st := .active, resident := true, prog := { b.prog with phase := .waitev } }).modTe 3 fun t => { t with
        st := .inService, slots := [5] }) with mig := { busy := true, sub := 5, dest := 4 } } =
    (true, 5, 0, .inService, .waitev, true) := by decide
theorem witness_retire : Writes ((dev.modTe 4 fun t => { t with st := .spare }).modTe 3 fun t => { t with st := .inService }) .scS 0x320
    (BitVec.ofNat 32 (2 ^ 31 + 3)) ∧ (((dev.modTe 4 fun t => { t with st := .spare }).te 4).st = .spare) ∧
    (∀ j, j < 4 → ((dev.modTe 4 fun t => { t with st := .spare }).te j).st ≠ .spare) := by
  unfold Writes; simp only [Reaches]; decide

/-- TE 3 stalled at 0.5 ms. -/
def stalled : State := (dev.modIsland 3 fun i => { i with clk := 3, stallAt := 500000 }).modTe 3 fun t => { t with st := .inService }

theorem witness_stall_retire : (stalled.island 3).clk = 3 ∧ (stalled.te 3).st = .inService ∧ (stalled.te 3).slots = [] ∧
    (stalled.island 3).stallAt.toNat + 20000 ≤ stalled.now.toNat ∧
    (stalled.setNow 519999).now.toNat < (stalled.island 3).stallAt.toNat + 20000 := by decide
theorem witness_rebalancer : fld (dev.reg 0x304) 7 0 = 10 ∧ dev.q.rbalAt = 0 ∧
    dev.now.toNat < dev.q.rbalAt.toNat + 1000000 * 10 ∧
    (dev.setNow 10000000).q.rbalAt.toNat + 1000000 * 10 ≤ (dev.setNow 10000000).now.toNat := by decide
theorem witness_freeSpare : freeSpare (stalled.modTe 4 fun t => { t with st := .spare }) = some 4 := by decide

/-- TE 4 loads in place of TE 3. -/
def loading : State := ((stalled.modTe 3 fun t => { t with st := .retired, spareFor := some 4, loamImg := 3 }).modTe 4 fun t => { t with
  st := .loading })

theorem witness_spare_load : MemOk loading ∧ (loading.te 4).st = .loading ∧ (loading.te 3).st = .retired ∧ (loading.te 3).loamImg < 64 ∧
    (∀ j, j < 64 → ((loading.te j).spareFor = some 4 ↔ j = 3)) ∧ fld (loading.reg 0x300) 12 8 < 31 ∧
    (loading.te 3).running = none ∧ ((loading.modTe 3 fun t => { t with running := some 5 }).te 3).running ≠ none := by unfold MemOk; decide

/-! Commit. -/

/-- Subchannel 5 asks for a commit with these outputs; pin 8 is a GD output. -/
def asking (outs : List (Nat × Nat)) : State := (with5 fun b => { b with
  st := .active
  resident := true
  prog := { b.prog with phase := .commitReq, op := op5, held := { outs := outs } } }).setReg (Reg.pinCfg 8) 5

theorem witness_accept : ((asking []).sub 5).prog.phase = .commitReq ∧ (asking []).cu.pl = .none ∧ (asking []).vote.hold = none ∧
    awayOf (asking [(8, 0)]) [(8, 0)] = [] ∧ awayOf (asking [(8, 1)]) [(8, 1)] ≠ [] ∧ voteMode (asking [(8, 1)]) = 0 ∧
    (asking [(8, 1)]).cu.safeOnly = false ∧ (asking [(8, 1)]).unprov = false ∧
    (asking [(8, 1)]).fd.reports = [] ∧ ((asking [(8, 1)]).sub 5).prog.direct = [] ∧ pinHeldSafe (asking [(8, 1)]) 8 = false ∧
    1 ≠ (pinSafeValue (asking [(8, 1)]) 8).toNat ∧ pinMode (asking [(8, 1)]) 8 ≠ modePWM := by decide
theorem witness_accept_safe_only : (asking [(8, 1)]).vote.votes.length < 256 ∧ RunsFull (asking [(8, 1)]) 5 ∧
    ((asking [(8, 1)]).modCu fun c => { c with safeOnly := true }).cu.safeOnly = true ∧
    ((asking [(8, 1)]).modBoot fun b => { b with unprov := true }).unprov = true := by
  unfold RunsFull HoldsNone RingWaits; decide
theorem test_accept_outputs : seen (execCommitAccept 5 (asking [(8, 1)])) (fun t => ((t.pin 8).value, (t.sub 5).aslot, t.cu.queue)) =
    some (1, 1, [5]) := by decide

/-- The accepted commit of subchannel 5 stores two bytes of a block. -/
def accepted : State := (with5 fun b => { b with
  st := .active
  resident := true
  prog := { b.prog with
    phase := .accepted
    op := op5
    held := { stores := [{ blk := 0x800005000, mask := 0x6, data := List.replicate 32 9 }] } } }).modCu fun c => { c with queue := [5] }

theorem witness_stores : accepted.cu.queue = 5 :: [] ∧ accepted.ue = [] ∧ MemOk accepted ∧ (accepted.sub 5).prog.held.regs = [] ∧
    (accepted.sub 5).prog.held.mark = none ∧ tget? accepted.sluice 5 = none ∧ (accepted.sub 5).prog.work.seq = none ∧
    (accepted.sub 5).resident = true ∧ (accepted.sub 5).st ≠ .fenced ∧
    (accepted.sub 5).prog.retries = [] ∧ (asking []).cu.queue.head? ≠ some 5 := by unfold MemOk; decide
theorem witness_stores_refused : storeRefused { accepted with ue := [0x800005000] } { blk := 0x800005000, mask := 0x6, data := List.replicate 32 9 } = true := by
  decide
theorem test_stores : seen (execCommitStoresComplete 5 accepted) (fun t => (t.mem, t.cu.queue)) =
    some ([(0x800005001, 9), (0x800005002, 9)], []) := by decide
theorem witness_store_refused_part : byteRefused { accepted with ue := [0x800005000] } { blk := 0x800005000, mask := 0x20006, data := List.replicate 32 9 } 1 = true ∧
    byteRefused { accepted with ue := [0x800005000] } { blk := 0x800005000, mask := 0x20006, data := List.replicate 32 9 } 17 = false := by decide
theorem witness_commit_tags : bitOf (1 : BitVec 2) 0 = true ∧ bitOf (1 : Word) (16 * 0) = true := by decide
theorem witness_retry_window : dev.now.toNat < dev.cu.retryAt.toNat + 1000000000 ∧
    (dev.setNow 1000000000).cu.retryAt.toNat + 1000000000 ≤ (dev.setNow 1000000000).now.toNat := by decide
theorem witness_commit_fault_none : (accepted.sub 5).prog.phase ≠ .stageOut ∧ (accepted.sub 5).prog.phase ≠ .commitReq ∧ accepted.posted = [] := by
  decide

/-- Behind it, subchannel 6 has a commit in the queue. -/
def acceptedTwo : State := (accepted.modSub 6 fun b => { b with
  attr := { valid := true, owner := 3, cls := 2, reach := 1 }, st := .active, resident := true,
  prog := { b.prog with phase := .accepted } }).modCu fun c => { c with queue := [5, 6] }

theorem witness_commit_fault_torn : acceptedTwo.cu.queue = 5 :: [6] ∧ (5 : Nat) ∉ [6] ∧ (acceptedTwo.sub 5).prog.phase = .accepted ∧
    (acceptedTwo.sub 5).prog.held.stores = [{ blk := 0x800005000, mask := 0x6, data := List.replicate 32 9 }] ∧
    (acceptedTwo.sub 5).prog.held.regs = [] ∧ (acceptedTwo.sub 5).prog.held.events = [] ∧ (acceptedTwo.sub 5).prog.held.mark = none ∧
    (acceptedTwo.sub 6).resident = true ∧ (acceptedTwo.sub 6).st ≠ .fenced ∧ MemOk acceptedTwo ∧ acceptedTwo.ue = [] := by
  unfold MemOk; decide
theorem witness_commit_fault : ((asking []).sub 5).prog.stage = none ∧ ((asking []).sub 5).prog.retries = [] ∧ ((asking []).te 3).running ≠ some 5 ∧
    voteMode accepted = 0 ∧ accepted.vote.st ≠ .standby ∧ accepted.sluice = [] ∧ (5 : Nat) ∉ ([] : List Nat) ∧ (1 : Fin 4) ≠ 0 := by decide

/-! Resets, power loss, supply, temperature. -/

theorem witness_reset_requests : Writes dev .scS 0x40C 0x80000001 ∧ Writes dev .scS 0x40C 0x80000002 ∧ dev.cu.pl = .none ∧ dev.cu.resetAsk = none ∧
    (dev.modCu fun c => { c with resetAsk := some { kind := .cold, last := 2 } }).cu.resetAsk = some { kind := .cold, last := 2 } := by
  unfold Writes; simp only [Reaches]; decide
theorem witness_reset_pin : dev.boot.st ≠ .off ∧ State.reset.boot.st = .off ∧ 1000 ≤ 1000 ∧ (999 : Nat) < 1000 := by decide
theorem witness_warm_waits : (accepted.modCu fun c => { c with resetAsk := some { kind := .warm, last := 1 } }).cu.queue ≠ [] ∧
    dev.cu.queue = [] := by decide
theorem test_cold_reset : seen (execMainDieReset (dev.modCu fun c => { c with resetAsk := some { kind := .cold, last := 2 } }))
    (fun t => (t.cu.lastReset, t.boot.st, t.subs.length, t.now)) = some (2, .fieldTest, 0, 0) := by decide
theorem witness_power_loss : (if bitOf (dev.reg 0x414) 9 = true then (1 : Fin 4).val else (1 : Fin 4).val % 2) ≠ 0 ∧
    (∀ x ∈ dev.subs, unaccepted x.2 = false) ∧ dev.sluice = [] := by decide

/-- The power-loss sequence has finished its commits; the journal goes to ring 4. -/
def losing : State :=
  pokeMem ((dev.setReg 0x414 9).modCu fun c => { c with pl := .commits }) 0x800000104 (toBytes 4 0x10000 ++ List.replicate 52 0 ++ toBytes 4 2)

theorem witness_power_loss_journal : losing.cu.pl = .commits ∧ losing.cu.queue = [] ∧ bitOf (losing.reg 0x414) 0 = true ∧
    arValid losing (fld (losing.reg 0x414) 8 1) = true ∧ arState losing (fld (losing.reg 0x414) 8 1) = 2 ∧ MemOk losing ∧
    (∀ x ∈ losing.silt.drv, x.2.st ≠ .ready) ∧ bitOf ((losing.setReg 0x414 0).reg 0x414) 0 = false := by unfold MemOk; decide
/-- The journal's record, in ring 4, with this header state. -/
def journalling (issued : Bool) : State :=
  (losing.modCu fun c => { c with pl := .journal }).modSilt fun y => { y with
    recs := [{ ring := 4, seq := 0, epoch := 0, blk := 0, blocks := 2, sub := 4096, gen := 0, mark := true, issued := issued }] }

theorem witness_journal : journalRec (losing.modCu fun c => { c with pl := .journal }) 4 = none ∧ (losing.modCu fun c => { c with pl := .journal }).cu.pl = .journal ∧
    (journalling true).cu.pl = .journal ∧ payloadLeft (journalling true) 4 0 = false ∧
    ((recsOf (journalling true) 4).map fun x => (x.sub, x.ring, x.issued)) = [(4096, 4, true)] ∧
    ((journalRec (journalling false) 4).map fun x => x.issued) = some false ∧ losing.cu.pl ≠ .journal := by decide
theorem witness_warm_memory (n : Nat) : (dev.sub n).prog.direct = [] :=
  tget_forall (P := fun b : Sub => b.prog.direct = []) _ _ (by decide) (by decide) n
theorem witness_power_loss_ends : (dev.modCu fun c => { c with pl := .flush }).cu.pl ≠ .none ∧ (dev.modCu fun c => { c with pl := .dead }).cu.pl = .dead ∧
    dev.supply.shut = false := by decide
theorem test_power_loss : seen (execPowerLossDetect 1 dev) (fun t => (t.cu.pl, t.boot.ready, t.supply.plossSeen)) = some (.commits, false, true) := by
  decide
theorem witness_thermal : dieRuns dev = true ∧ (4 * (fld (dev.reg 0x90104) 7 0 : Nat) : Int) ≤ (1000 : BitVec 11).toInt ∨
    (488 : Int) ≤ (500 : BitVec 11).toInt ∧ (520 : Int) ≤ (520 : BitVec 11).toInt := by decide
theorem witness_thermal_states : dev.supply.warn = false ∧ dev.supply.throt = false ∧ ¬(dev.supply.teMhz ≤ 480) ∧
    (dev.modSupply fun u => { u with teMhz := 480, shut := true, throt := true }).supply.teMhz ≤ 480 ∧ (519 : BitVec 11).toInt < 520 := by decide
theorem test_te_stop : seen (execThermalTeStop 488 3 ((dev.setNow 1000000).modSupply fun u => { u with teMhz := 480 }))
    (fun t => ((t.island 3).clk, t.supply.stopping, t.supply.stopAt)) = some (3, true, 1000000) := by decide

/-! ### The field die -/

/-- Pin n with this configuration and fault configuration. -/
def pinned (n : Nat) (cfg flt : Word) (f : Pin → Pin) : State :=
  ((dev.setReg (Reg.pinCfg n) cfg).setReg (0x40020 + 0x40 * n) flt).modPin n f

theorem witness_keepalive_pin : isOutMode (pinMode (pinned 8 5 0 id) 8) = true ∧ isOutMode (pinMode (pinned 8 1 0 id) 8) = false ∧
    (pinned 8 5 0 id).sluice = [] := by decide
theorem witness_edges : (fun s : State => (pinMode s 8 = 1 ∧ (s.pin 8).inLevel ≠ true ∧ (s.bank 1).failed = false ∧
    fld (s.reg 0x40200) 20 19 = 1 ∧
    500 + 40 * 2 ^ fld (s.reg 0x40200) 24 21 ≤ s.now.toNat)) ((pinned 8 0x80001 0 id).setNow 540) ∧ fld (0x100001 : Word) 20 19 = 2 ∧ pinMode (pinned 8 8 0 id) 8 = 8 := by decide
theorem test_edge : seen (execPinEdgeAccept 8 true 500 ((pinned 8 0x280001 0 id).setNow 600))
    (fun t => ((t.pin 8).inLevel, (t.pin 8).edgeAt, (t.evSrc 1032).last)) = some (true, 500, some 580) := by decide
theorem test_edge_fq : seen (execPinEdgeAccept 8 true 500 ((pinned 8 8 0 fun p => { p with fq := 4 }).setNow 540)) (fun t => ((t.pin 8).fq, (t.evSrc 1032).count)) =
    some (5, 0) := by decide
theorem witness_wetting : (fun s : State => pinMode s 8 = 1 ∧ bitOf (s.reg 0x40200) 25 = true ∧ bitOf (s.reg 0x40200) 26 = false ∧
    s.now.toNat % 2000000 / 20000 = 8 ∧ (s.bank 1).failed = false ∧ bitOf (s.reg 0x40200) 28 = true ∧ bitOf (s.reg 0x40220) 2 = true)
    ((pinned 8 0x12000001 4 id).setNow 160000) ∧ 2000 * fld (0 : Word) 27 24 ≤ 0 := by decide
theorem witness_conversion : (dev.bank 1).failed = false ∧ (dev.bank 1).refBad = false ∧ dev.posted = [] ∧
    ((dev.modBank 1 fun b => { b with refBad := true }).bank 1).refBad = true ∧ fld ((dev.setReg 0x42044 0x80).reg 0x42044) 3 0 = 0 ∧
    fld ((dev.setReg 0x42044 0x80).reg 0x42044) 7 4 = 8 ∧ KeysRise dev.subs ∧ (∀ x ∈ dev.subs, x.2.prog.phase ≠ .sampling) := by
  unfold KeysRise; decide
theorem witness_pwm : (fun s : State => pinMode s 8 = 7 ∧ (s.pin 8).pwmHold = some 3 ∧ pinHeldSafe s 8 = false ∧ s.sluice = [] ∧ pwmPhase s 8 = 0)
    (((pinned 8 7 0 fun p => { p with pwmHold := some 3 }).setReg (Reg.pinPwm 8) 0x80000190).setNow 6000) ∧
    ((pinned 8 7 0 id).pin 8).pwmHold = none ∧
    (fun s : State => pinMode s 8 = 7 ∧ (s.pin 8).pwmHold = some 3 ∧ pinHeldSafe s 8 = true ∧ s.sluice = [] ∧ pwmPhase s 8 = 0)
      ((((pinned 8 7 0 fun p => { p with pwmHold := some 3 }).setReg (Reg.pinPwm 8) 0x80000190).setNow 6000).modBank 1
        fun b => { b with ot := true }) := by decide
theorem witness_pwm_sluice : (fun s : State => s.sluice = [(5, ⟨[], [], true, [8], false⟩)] ∧ (s.sub 5).prog.phase = .sluice ∧
    (s.sub 5).prog.committed = true)
    { (with5 fun b => { b with prog := { b.prog with phase := .sluice, committed := true } }) with sluice := [(5, ⟨[], [], true, [8], false⟩)] } := by
  decide
theorem witness_audio : (fun s : State => pinMode s 8 = 7 ∧ pinAudio s 8 = true ∧ (s.pin 8).value ≠ 0 ∧ (s.pin 8).fifo = [5])
    ((pinned 8 7 0 fun p => { p with value := 9, fifo := [5] }).setReg (Reg.pinOutcfg 8) 0x10000000) := by decide
theorem test_audio : seen (execAudioSample 8 ((pinned 8 7 0 fun p => { p with value := 0x8000, fifo := [-2] }).setReg (Reg.pinOutcfg 8) 0x10000000))
    (fun t => ((t.pin 8).dutyNext, (t.pin 8).fifo)) = some (some 32767, []) := by decide

/-- Pin 8 is a GD output with detections 0 to 6 on; over-current is reported, short circuit is fatal. -/
def outPin : State :=
  (pinned 8 5 0x27F fun p => { p with value := 1, atSafe := false }).setReg (Reg.pinOutcfg 8) 0x8000

theorem witness_diagnostics : diagApplies outPin 8 6 = true ∧ diagApplies outPin 8 1 = true ∧ bitOf (outPin.reg 0x40220) 1 = true ∧
    isOutMode (pinMode outPin 8) = true ∧ bitOf (outPin.reg 0x40220) 9 = true ∧ pinSafeOn outPin 8 = false ∧ outPin.sluice = [] ∧
    bitOf (outPin.reg 0x40220) 8 = false ∧ diagApplies (pinned 8 1 0 id) 8 6 = false ∧ fbApplies outPin 8 = true ∧
    fbApplies (outPin.setReg (Reg.pinOutcfg 8) 0x807F) 8 = false := by decide
theorem test_diagnostic : seen (execDiagnosticDetect 8 ⟨6, false⟩ outPin) (fun t => ((t.pin 8).atSafe, (t.pin 8).latchOff, t.fd.reports.map fun r => (r.pin, r.kind))) =
    some (true, true, [(8, 7)]) := by decide
theorem witness_test_pulse : (fun s : State => (s.bank 1).failed = false ∧ pinMode s 8 = 6 ∧ pinLevel s 8 = false ∧ bitOf (s.reg 0x40220) 2 = true ∧
    bitOf (s.reg 0x40220) 1 = false ∧ bitOf (s.reg 0x40220) 10 = false) (pinned 8 6 4 id) ∧
    (fun s : State => bitOf (s.reg 0x40220) 2 = false ∧ bitOf (s.reg 0x40220) 1 = true ∧ bitOf (s.reg 0x40220) 9 = false) (pinned 8 6 2 id) := by
  decide
theorem witness_walk : fld (dev.reg 0x43000) 23 16 = 0 ∧ fld ((outPin.setReg 0x43000 0x10000).reg 0x43000) 23 16 ≠ 0 ∧
    walkNext (dev.setReg 0x43000 0x10000) = none ∧ (walkNext ((pinned 8 0x8000006 0x10 id).setReg 0x43000 0x10000)).isSome = true := by decide

/-- Pins 8 and 9 are LS outputs that take part in the walk, which has seen pin 8 and is past it. -/
def walking (pos : Nat) : State :=
  (((pinned 8 0x8000006 0x10 id).setReg (Reg.pinCfg 9) 0x8000006).setReg (0x40020 + 0x40 * 9) 0x10 |>.setReg 0x43000 0x10000).modFd fun f => { f with
    walkPos := pos, walkSeen := [8], walkHits := [] }

theorem witness_walk_steps : walkNext (walking 10) = none ∧ (8 ∈ (walking 10).fd.walkSeen ∧ 8 ∉ (walking 10).fd.walkHits) ∧
    walkNext (walking 9) = some (9, 10, []) ∧ (∃ x ∈ [(8 : Fin 96)], x.val = 8 ∧ 8 ≠ 9 ∧ walks (walking 9) 8 = true ∧ walkOn (walking 9) 8 = false) ∧
    bitOf ((walking 9).reg (0x40020 + 0x40 * 8)) 4 = true ∧ (walking 9).sluice = [] := by decide
theorem witness_field_times : slotEnds dev 1 7 = true ∧ slotEnds dev 1 0 = false ∧ walkEarly (dev.setReg Reg.pinCcCtl 0xA0000) = true ∧
    walkEarly (walking 9) = false ∧ notYet (dev.setNow 99990) (dev.bank 1).gbAt 100000 = true ∧
    notYet dev (dev.pin 8).testAt (testPeriod dev 8) = true ∧ notYet (dev.setNow 100000000) (dev.pin 8).testAt (testPeriod dev 8) = false ∧
    pwmPhase ((dev.setReg (Reg.pinPwm 8) 0x80000190).setNow 6000) 8 = 0 ∧ pwmPhase ((dev.setReg (Reg.pinPwm 8) 0x80000190).setNow 4000) 8 = 2000 ∧
    audioPeriod (dev.setReg (Reg.pinAux 8) 0x06000000) 8 = 20830 ∧ notYet (dev.setNow 999990) dev.supply.stepAt 1000000 = true := by decide
theorem test_walk_hit : seen (execWalkStep [8] (walking 9)) (fun t => (t.fd.walkPos, t.fd.reports.map fun r => (r.pin, r.kind), (t.pin 9).active, (t.pin 8).active)) =
    some (0, [(9, 5), (8, 5)], 0x10, 0x10) := by decide

/-- A report of pin 8 has waited long enough. -/
def reported : State := dev.modFd fun f => { f with reports := [⟨8, 1, 0, true⟩] }

theorem witness_report : dev.fd.reports = [] ∧ (0 : DWord).toNat + 10000 ≤ reported.now.toNat ∧ bitOf (reported.reg 0x43014) 0 = false ∧
    suppressed reported ⟨8, 1, 0, true⟩ = false ∧ (reported.setNow 9999).now.toNat < (0 : DWord).toNat + 10000 ∧
    suppressed (reported.modFd fun f => { f with cc := { f.cc with active := true, banks := 2, hit := 2 } }) ⟨8, 1, 0, true⟩ = true := by decide
theorem test_report : seen (execFaultReport reported) (fun t => ((t.pin 8).count, (t.evSrc 1032).count, (t.bank 1).firstKind)) = some (1, 1, 1) := by
  decide

theorem test_guard_band : seen (execGuardBandUpdate 1 (100 : BitVec 11) 0 0 (dev.modBank 1 fun b => { b with tCal := 100, iCal := 0 })) (fun t => (t.bank 1).g) =
    some 8 := by decide
theorem witness_calibration : fld ((dev.setReg 0x42040 0x01000000).reg 0x42040) 27 24 ≠ 0 ∧
    (dev.bank 1).calDone.toNat + 100000000 * 2 ^ 0 ≤ (dev.setNow 100000000).now.toNat ∧ Writes dev .scS (0x42008 + 0x40 * 1) 2 ∧
    (dev.modBank 1 fun b => { b with calRun := true, house := 800 }).posted = [] ∧
    (dev.bank 1).refBad = false ∧ ((dev.modBank 1 fun b => { b with calRun := true, house := 800, refBad := true }).bank 1).refBad = true ∧
    800 ≤ ((dev.modBank 1 fun b => { b with calRun := true, house := 800 }).bank 1).house := by unfold Writes; simp only [Reaches]; decide
theorem witness_common_cause : (1 : BitVec 12) ≠ 0 ∧ (dev.bank 0).failed = false ∧ bitOf ((dev.setReg 0x42000 0x10000000).reg 0x42000) 28 = true ∧ dev.fd.cc.active = false ∧ dev.sluice = [] ∧ bitOf (dev.reg 0x43014) 0 = false ∧
    (dev.modFd fun f => { f with cc := { f.cc with active := true } }).fd.cc.active = true := by decide
theorem witness_storm : bitOf ((dev.setReg 0x43014 1).reg 0x43014) 0 = true ∧ dev.fd.stormMs ≠ dev.now.toNat / 1000000 ∧ MemOk dev ∧
    dev.fd.stormIdx < 1024 ∧ dev.fd.stormSeq < 65536 := by unfold MemOk; decide
theorem test_common_cause : seen (execCommonCauseBegin 2 false false dev) (fun t => (t.fd.cc.active, (t.bank 1).firstKind, (t.bank 0).firstKind, (t.evSrc 1221).count)) =
    some (true, 8, 0, 1) := by decide
theorem witness_recfg : Writes dev .scS (0x40028 + 0x40 * 8) 1 ∧ Writes dev .scS (0x40028 + 0x40 * 8) 7 ∧
    (dev.modPin 8 fun p => { p with recBusy := true, recPair := true, recCal := true }).posted = [] ∧
    ((dev.modPin 8 fun p => { p with recBusy := true, recPair := true, recCal := true }).pin 8).recCal = true := by
  unfold Writes; simp only [Reaches]; decide
theorem witness_recfg_busy : (fun s : State => bitOf (s.reg 0x40200) 6 = true ∧ (s.sub (fld (s.reg 0x40200) 18 7)).st ≠ .idle)
    (running.setReg (Reg.pinCfg 8) (BitVec.ofNat 32 (5 + 64 + 128 * 5))) := by decide
theorem witness_scan : Writes dev .scS (0x42008 + 0x40 * 1) 1 ∧ (dev.bank 1).failed = false ∧
    ((dev.modBank 1 fun b => { b with failed := true }).bank 1).failed = true ∧
    ((dev.modBank 1 fun b => { b with scanBusy := true }).bank 1).scanBusy = true ∧
    (dev.bank 1).scanAt.toNat / 5000 < dev.now.toNat / 5000 := by unfold Writes; simp only [Reaches]; decide
theorem test_scan_refused : seen (execScanGo .scS 1 ({ dev with shadow := [(0x42044, 0x88888889)] })) (fun t => ((t.bank 1).result, (t.bank 1).scanBusy)) =
    some (1, false) := by decide

/-! ### The composite -/

/-- Position 0 of a pair in service: link 0 leads to position 1, both expected. -/
def pair : State :=
  let s := ((dev.setReg 0x60000 0x31).setReg 0x60004 200).setReg (Reg.cflCtl 0) 1
  let s := s.modVote fun v => { v with st := .inService, view := [2, 2, 0, 0], actOfs := 20 }
  s.modCfl 0 fun c => { c with st := 2, lastValid := 999990, rttMax := 8, rttMin := 4 }

theorem witness_reference : dieRuns pair = true ∧ refLink pair = none ∧
    (fun s : State => refLink s = some 2 ∧ s.vote.trim < 999) ((pair.setReg 0x60000 0x131).modCfl 2 fun c => { c with st := 2 }) ∧
    (fun s : State => 999 ≤ s.vote.trim ∧ (s.cfl 2).off < 0)
      (((pair.setReg 0x60000 0x131).modCfl 2 fun c => { c with st := 2, off := -3 }).modVote fun v => { v with trim := 999 }) ∧
    (fun s : State => 999 ≤ s.vote.trim ∧ 0 < (s.cfl 2).off)
      (((pair.setReg 0x60000 0x131).modCfl 2 fun c => { c with st := 2, off := 3 }).modVote fun v => { v with trim := 999 }) := by decide
theorem witness_link_loss : (fun s : State => s.boot.st ≠ .off ∧ s.subs = [] ∧ s.vote.votes = [] ∧ s.sluice = [] ∧ voteMode s ≠ 0 ∧ s.vote.st = .inService ∧
    s.vote.exclLog = 0) { pair with subs := [] } := by decide
theorem witness_link_loss_out : (pair.modVote fun v => { v with st := .forming }).vote.st = .forming := by decide

/-- The key of a command of subchannel 5. -/
def key5 : VKey := { sub := 5, gen := 0, world := .safety, aslot := 0 }

/-- A record received on link 0. -/
def fromLink (r : CflRec) (f : VoteU → VoteU) : State := (pair.modCfl 0 fun c => { c with rx := [r] }).modVote f

/-- This member has sent its digest of that command. -/
def sent (v : VoteU) : VoteU := { v with votes := [{ key := key5, own := some 0xAB, ownFirst := some 15624 }] }

/-- A digest or echo of that command, first sent in cycle 15,624. -/
def rec5 (ty : Nat) (own : Bool) (v : DWord) : CflRec := mkRec ty key5 own 15624 v

theorem witness_pair : voteMode pair = 1 ∧ myPos pair = 0 ∧ linkPos pair 0 = 1 ∧ expected pair 0 = true ∧ expected pair 1 = true ∧
    expected pair 2 = false ∧ expected pair 3 = false ∧ viewOf pair 1 = 2 ∧ pair.vote.promo = [] ∧ pair.vote.dec = [] ∧
    pair.vote.late = [0, 0, 0, 0] ∧ pair.vote.lags.length = 4 ∧ pair.posted = [] := by decide
theorem witness_frame_send : pair.vote.sentCyc ≠ some (pair.now.toNat / 64) ∧ pair.cu.pl = .none ∧ pair.vote.rejoin.joiner = none ∧ (pair.cfl 0).st = 2 ∧
    (pair.cfl 0).digQ = [] ∧ (pair.cfl 1).st ≠ 2 ∧ (dev.modVote fun v => { v with sentCyc := some 15625 }).vote.sentCyc = some (dev.now.toNat / 64) := by decide
theorem witness_frame_send_digest : (fun s : State => ((s.cfl 0).digQ = [key5] ∧ (voteOf s key5).isSome = true ∧
      0 + 4 ≤ s.now.toNat / 64 * 64 ∧ key5.sub < 4096 ∧ key5.gen < 16 ∧ key5.aslot < 65536))
    ((pair.modCfl 0 fun c => { c with digQ := [key5] }).modVote fun v => { v with votes := [{ key := key5, own := some 0xAB }] }) := by decide
theorem test_frame_send : seen (execCflFrameSend ((pair.modCfl 0 fun c => { c with digQ := [key5] }).modVote fun v => { v with
      votes := [{ key := key5, own := some 0xAB }] }))
    (fun t => ((t.cfl 0).tx.map fun f => (f.cyc, f.mstate, f.digests), t.vote.votes.map fun v => v.ownFirst)) =
    some (some (15625, 2, [mkRec 1 key5 false (15625 % 16384) 0xAB]), [some 15625]) := by decide
theorem witness_frame_receive : (pair.cfl 0).st = 2 ∧ pair.vote.votes = [] ∧ bitOf (pair.reg 0x60000) 24 = false ∧
    pair.vote.view.length = 4 ∧ ((myPos pair + 0 + 1) % 4 = 1) := by decide
theorem test_frame_position : seen (execCflFrameReceive 0 { pos := 2 } pair) (fun t => ((t.cfl 0).st, (t.cfl 0).err)) = some (3, 2) := by decide
theorem witness_digest : ((fromLink (rec5 1 false 0xAB) id).cfl 0).rx = rec5 1 false 0xAB :: [] ∧ (rec5 1 false 0xAB).ty = 1 ∧
    (rec5 1 false 0xAB).key = key5 ∧ fullFirst pair (rec5 1 false 0xAB).first = 15624 ∧
    pair.now.toNat ≤ 64 * 15624 + 1000000 ∧ (pair.sub 5).gen.toNat = 0 ∧ (pair.sub 5).st ≠ .fenced := by decide
theorem test_digest : seen (execDigest 0 (fromLink (rec5 1 false 0xAB) id)) (fun t => (t.vote.votes.map fun v => v.ans, (t.cfl 0).echoQ.length)) =
    some ([[⟨1, some 0xAB, 15624⟩]], 1) := by decide
theorem witness_echo : (rec5 2 true 0xAB).ty = 2 ∧ (rec5 2 true 0xAB).own = true ∧ (sent pair.vote).votes = [{ key := key5, own := some 0xAB, ownFirst := some 15624 }] ∧
    (rec5 2 true 0xAB).value = 0xAB ∧ (rec5 2 true 0xAC).value ≠ 0xAB ∧ pair.now.toNat + 10 ≤ 64 * Nat.max 15625 15625 + 20 := by decide
theorem test_echo_agrees : seen (execEcho 0 (fromLink (rec5 2 true 0xAB) sent)) (fun t => t.vote.votes.map fun v => v.verdict) =
    some [some (.apply 0xAB)] := by decide
theorem test_echo_differs : seen (execEcho 0 (fromLink (rec5 2 true 0xAC) sent)) (fun t => t.vote.votes.map fun v => v.verdict) =
    some [some .disagree] := by decide
theorem witness_absent : (rec5 3 false 0).ty = 3 ∧ (∃ d ∈ ([⟨key5, .timeout, 0, 15624, []⟩] : List DecRec), d.key = key5) := by decide

/-- That command has been decided: APPLY, with the digests of these positions noted. -/
def decided (seen : List Nat) (v : VoteU) : VoteU := { v with dec := [⟨key5, .apply 0xAB, 1000000, 15624, seen⟩] }

theorem witness_decided : (decided [1] pair.vote).dec.find? (fun x => x.key == key5) = some ⟨key5, .apply 0xAB, 1000000, 15624, [1]⟩ ∧
    1 ∈ [1] ∧ 1 ∉ ([] : List Nat) ∧ (rec5 1 false 0xAC).value ≠ 0xAB ∧ (rec5 1 false 0xAB).value = 0xAB ∧ voteMode pair ≠ 3 ∧
    pair.vote.votes = [] ∧ nth 0 pair.vote.view 1 ≠ 4 ∧ bitOf pair.vote.exclLog 31 = false := by decide
theorem test_late_digest : seen (execDigest 0 (fromLink (rec5 1 false 0xAC) (decided [1]))) (fun t => (nth 0 t.vote.view 1, fld t.vote.exclLog 7 4)) =
    some (4, 1) := by decide
theorem test_absent : seen (execAbsent 0 (fromLink (rec5 3 false 0) sent)) (fun t => (t.vote.votes.map fun v => v.verdict, t.vote.cntTmo)) =
    some ([some .timeout], 1) := by decide

/-- A transfer record while this member rejoins. -/
def xfer : CflRec := { w0 := pack [(17, 3, 4)], w1 := 1, w2 := 2, w3 := 3 }
theorem witness_transfer : xfer.ty = 4 ∧ pair.vote.st ≠ .rejoining ∧ fld xfer.w0 15 0 = pair.vote.rejoin.seq := by decide
theorem witness_transfer_body : ∃ pre body more : List Byte, body.length = 256 ∧ more.length < 8 ∧
    (more.length < 4 ∨ fld (wordAt more 0) 7 0 ≠ 0) ∧
    pre ++ wordsBytes [xfer.w1, xfer.w2, xfer.w3] = wordsBytes [0x00010001, 7] ++ body ++ more :=
  ⟨wordsBytes [0x00010001, 7] ++ List.replicate 248 0, List.replicate 248 0 ++ wordsBytes [1, 2], wordsBytes [3], by decide, by decide, by decide, by decide⟩
theorem witness_joins : (mkCtl 1 0 0).ty = 5 ∧ (mkCtl 1 0 0).code = 1 ∧ referencePos pair = some (myPos pair) ∧
    ¬0 < (pair.cfl 0).off ∧ pair.vote.rejoin.step = 0 ∧ 0 < ((pair.modCfl 0 fun c => { c with off := 5 }).cfl 0).off ∧ pair.vote.actOfs < (ownActOfs pair).1 ∧
    ¬((pair.modVote fun v => { v with actOfs := 22 }).vote.actOfs < (ownActOfs (pair.modVote fun v => { v with actOfs := 22 })).1) ∧
    (pair.modVote fun v => { v with st := .forming }).vote.entry = none := by decide
theorem witness_join_agreed : 0 ≤ (pair.cfl 0).off ∧ (ownActOfs pair).1 ≤ fld (mkCtl 2 40 15625).w1 15 8 := by decide
theorem witness_rejoin_refused : (mkCtl 3 (0 + 16 * 9) 0).code = 3 ∧ fld (mkCtl 3 (0 + 16 * 9) 0).w1 9 8 = myPos pair ∧
    fld (mkCtl 3 (0 + 16 * 9) 0).w1 15 12 = 9 ∧ (pair.modVote fun v => { v with st := .rejoining }).vote.votes = [] := by decide
theorem test_rejoin_refused : seen (execExclusionNotice 0 (fromLink (mkCtl 3 (0 + 16 * 9) 0) fun v => { v with
    st := .rejoining, rejoin := { v.rejoin with step := 1 } })) (fun t => (t.vote.st, t.vote.rejoin.result)) = some (.excluded, 1) := by decide
theorem witness_exclusion : fld (mkCtl 3 1 0).w1 9 8 ≠ myPos pair ∧ voteMode pair ≠ 3 ∧ nth 0 pair.vote.view (fld (mkCtl 3 1 0).w1 9 8) ≠ 4 ∧
    bitOf pair.vote.exclLog 31 = false := by decide
theorem test_exclusion : seen (execExclusionNotice 0 (fromLink (mkCtl 3 1 0) id)) (fun t => (nth 0 t.vote.view 1, t.vote.st)) = some (4, .inService) := by
  decide
theorem witness_rejoin_done : fld (mkCtl 4 0 0).w1 9 8 = myPos pair ∧ fld (mkCtl 4 1 0).w1 9 8 ≠ myPos pair := by decide
theorem test_rejoin_done : seen (execRejoinDone 0 (fromLink (mkCtl 4 0 0) fun v => { v with st := .rejoining })) (fun t => t.vote.st) = some .inService := by
  decide
theorem witness_link_up : cflEnabled pair 0 = true ∧ cflEnabled pair 1 = false ∧ ((pair.modCfl 0 fun c => { c with st := 1 }).cfl 0).st ≠ 2 ∧
    Writes pair .scS (0x60100 + 0x40 * 0) 2 := by unfold Writes; simp only [Reaches]; decide
theorem test_link_up_position : seen (execCflLinkUp 0 2 1 3 [] 5 5 5 (pair.modCfl 0 fun c => { c with st := 1 })) (fun t => ((t.cfl 0).st, (t.cfl 0).err)) =
    some (3, 2) := by decide
theorem witness_link_timeout : (pair.cfl 0).lastValid.toNat + 2000 ≤ (pair.setNow 1001990).now.toNat ∧ ¬((pair.cfl 0).lastValid.toNat + 2000 ≤ pair.now.toNat) ∧
    pair.vote.rejoin.step = 0 := by decide
theorem witness_formation : (fun s : State => s.vote.st = .forming ∧ s.vote.entry = some (s.now.toNat / 64) ∧ (∀ p ∈ s.vote.formSet, p < 4) ∧
    (∀ p ∈ s.vote.formSet, reaches s p = true → (s.cfl (posLink s p)).off ≤ 0) ∧ (s.now.toNat + 0) / 64 = 15625 ∧ (s.now.toNat + 0) / 64 < 15626)
    (pair.modVote fun v => { v with st := .forming, entry := some 15625, formSet := [0, 1] }) := by decide
theorem test_formation : seen (execFormationEntry (pair.modVote fun v => { v with st := .forming, entry := some 15625, formSet := [0, 1] }))
    (fun t => (t.vote.st, nth 0 t.vote.view 1)) = some (.inService, 2) := by decide
theorem witness_resend : (fun v : Vote => v.own.isSome = true ∧ v.verdict = none ∧ v.echoed.contains 1 = false ∧ 64 * (tget? v.sends 0).getD 15624 + pair.vote.rttMax ≤ pair.now.toNat)
    { key := key5, own := some 0xAB, ownFirst := some 15624 } := by decide
theorem witness_resend_due : 64 * (tget? ([] : Tbl Nat) 0).getD 15600 + pair.vote.rttMax + 64 ≤ pair.now.toNat ∧ (pair.cfl 0).digQ = [] ∧
    (pair.cfl 0).st = 2 := by decide
theorem witness_window : fld (pair.reg 0x60004) 16 0 = 200 ∧ 64 * 15621 + 200 ≤ pair.now.toNat ∧ pair.now.toNat < 64 * 15624 + 200 ∧ 1 < lateMax pair := by decide
theorem test_window : seen (execVoteWindowClose 5 (pair.modVote fun v => { v with votes := [{ key := key5, own := some 0xAB, ownFirst := some 15620 }] }))
    (fun t => (t.vote.votes.map fun v => v.verdict, t.vote.late)) = some ([some .timeout], [0, 1, 0, 0]) := by decide

/-- The image of subchannel 5 waits in the Sluice with this verdict of its vote. -/
def sluiced (e : Verdict) (at_ : DWord) : State :=
  { (((pair.setReg (Reg.pinCfg 8) 5).modSub 5 fun b => { b with st := .active, resident := true, prog := { b.prog with phase := .sluice, committed := true } }).modVote
      fun v => { v with votes := [{ key := key5, own := some 0xAB, verdict := some e, tAct := at_ }] }) with sluice := [(5, ⟨[(8, 1)], [8], false, [], false⟩)] }

theorem witness_actuation : (sluiced .disagree 1000000).sluice = [(5, ⟨[(8, 1)], [8], false, [], false⟩)] ∧
    ((sluiced .disagree 1000000).sub 5).prog.phase = .sluice ∧ (sluiced .disagree 1000000).now.toNat < (1000001 : DWord).toNat ∧
    (sluiced (.apply 0xAB) 0).fd.reports = [] ∧ pinHeldSafe (sluiced (.apply 0xAB) 0) 8 = false ∧ ((sluiced (.apply 0xAB) 0).pin 8).pwmHold = none ∧
    isOutMode (pinMode (sluiced .disagree 0) 8) = true := by decide
theorem test_actuation : seen (execActuationInstant 5 (sluiced (.apply 0xAB) 1000000)) (fun t => ((t.pin 8).value, t.sluice, (t.sub 5).prog.phase)) =
    some (1, [], .deviceEnd) := by decide
theorem test_actuation_disagree : seen (execActuationInstant 5 (sluiced .disagree 1000000)) (fun t => ((t.pin 8).value, (t.sub 5).prog.detail)) =
    some (0, 0x0B01) := by decide
theorem witness_out_of_service : (∀ x ∈ pair.subs, x.2.attr.valid = true → ownsLive pair x.1 = false) ∧ pair.sluice = [] ∧
    pair.vote.quorumLostAt = none ∧ (0 : DWord).toNat + 1000000 ≤ pair.now.toNat ∧ Writes pair .scS 0x60008 1 ∧ Writes pair .scS 0x60008 2 := by
  unfold Writes; simp only [Reaches]; decide
theorem test_leave : seen (execLeave .scS pair) (fun t => (t.vote.st, fld t.vote.exclLog 7 4)) = some (.excluded, 8) := by decide
theorem witness_rejoin : (fun s : State => s.vote.st = .excluded ∧ referencePos s = some 1 ∧ reaches s 1 = true ∧ 0 ≤ (s.cfl (posLink s 1)).off)
    (pair.modVote fun v => { v with st := .excluded }) ∧
    (fun s : State => (s.cfl (posLink s 1)).off < 0)
      ((pair.modVote fun v => { v with st := .excluded }).modCfl 0 fun c => { c with off := -1 }) := by decide
theorem witness_donor : (fun r : Rejoin => r.joiner = some 1 ∧ r.items = [] ∧ r.bytes = [] ∧ r.step = 2) { joiner := some 1, step := 2 } ∧
    pair.vote.rejoin.joiner = none ∧ 15625 ≤ pair.now.toNat / 64 := by decide
theorem test_hold_timeout : seen (execRejoinHoldTimeout (pair.modVote fun v => { v with hold := some 15625, rejoin := { joiner := some 1, step := 5, attempts := 8 } }))
    (fun t => (t.vote.rejoin.step, t.vote.rejoin.result, t.vote.hold)) = some (0, 2, none) := by decide

/-! ### Brook links -/

/-- Link 2 is UP in cycle c; position 1 is configured and in this state. -/
def brook (st : PosSt) (now_ : DWord) (f : Brook → Brook) : State :=
  (((dev.setNow now_).setReg (Reg.bkCfg 2) 2).setReg 0x50204 1).modBk 2 fun b =>
    f { b with link := 2, cyc := 10, last := { b.last with valid := true }, pos := b.pos.set 1 { (nth {} b.pos 1) with st := st } }

theorem witness_brook : ((brook .online 1099000 id).bk 2).pos.length = 8 ∧ ((brook .online 1099000 id).bk 2).link = 2 ∧
    ((brook .online 1099000 id).now.toNat + 1000) % 100000 = 0 ∧ bkPosSt (brook .online 1099000 id) 2 1 = .online ∧
    (brook .online 1005000 id).now.toNat = 10 * 100000 + 5000 * 1 ∧ (brook .online 1062000 id).now.toNat = 10 * 100000 + 62000 ∧
    bkConfigured (brook .online 0 id) 2 1 = true ∧ bkConfigured (brook .online 0 id) 2 7 = false := by decide
theorem test_pd_out : seen (execPdOut 2 1 (brook .online 1005000 fun b => { b with latch := [0, 9, 0, 0, 0, 0, 0, 0] })) (fun t => (t.bk 2).sent.take 22) =
    some [1, 1, 10, 0, 16, 0, 0, 0, 0, 0, 9, 0, 0, 0, 0, 0, 0, 0, 10, 0, 0, 0] := by decide

/-- A frame that a satellite sends: W0, the payload, and when it begins. -/
def upFrame (w0 : Word) (payload : List Byte) (begun : DWord) : BkArrival := ⟨bkBytes w0 (BitVec.ofNat 32 payload.length) 0 payload, begun⟩

/-- A valid PD_IN of position 1 in the cycle: POS 1, DIR 1, TYPE 2, SEQ 10, ATTN. -/
def pdIn1 : BkArrival := upFrame 0x010A0209 ([0x81] ++ List.replicate 7 0 ++ [0xFF] ++ List.replicate 11 0) 1013100

theorem witness_pd_in : (fun f : BkFrame => f.crcOk = true ∧ f.formOk = true ∧ f.inWindow = true ∧ f.ty = 2 ∧ f.seq = 10 % 256 ∧ f.payload.length = 20)
      (bkParse pdIn1.bytes (pdWindow (brook .lost 0 id) 2 pdIn1.begun)) ∧
    (bkPos (brook .lost 0 id) 2 1).busySeen = false ∧ bkPosSt (brook .lost 0 id) 2 1 = .lost := by decide
theorem test_pd_in : seen (execPdIn 2 pdIn1 (brook .lost 1017000 id)) (fun t => (bkPosSt t 2 1, (bkPos t 2 1).fresh, (t.bk 2).attn)) =
    some (.ident, some (0x81, 0xFF), 2) := by decide
theorem witness_input_image : (bkPos (brook .online 1062000 id) 2 1).fresh = none ∧
    3 ≤ (bkPos (brook .online 1062000 fun b => { b with pos := b.pos.map fun x => { x with miss := 2 } }) 2 1).miss + 1 := by decide
theorem witness_message_send : (fun s : State => (s.bk 2).waiting = [] ∧ (s.bk 2).msgCyc ≠ some 10 ∧ (s.bk 2).cur = none ∧ bkPosSt s 2 1 = .ident ∧
    s.now.toNat = 10 * 100000 + 62000 - 80 * (22 + 0) ∧ ∀ q, q < 1 → bkPosSt s 2 q ≠ .ident) (brook .ident 1060240 id) := by decide
theorem test_message_ident : seen (execBrookMessageSend 2 (brook .ident 1060240 id)) (fun t => (t.bk 2).cur.map fun e => (e.ty, e.arg, e.pos)) =
    some (some (0x14, 1, 1)) := by decide
theorem witness_message_waiting : (fun s : State => (∀ p, p < 8 → bkPosSt s 2 p ≠ .ident) ∧ (s.bk 2).waiting = [{ kind := .sub 5, pos := 1 }])
    (brook .online 0 fun b => { b with waiting := [{ kind := .sub 5, pos := 1 }] }) := by decide
theorem witness_message_staged : (fun s : State => (s.bk 2).stageWait = true ∧ (s.bk 2).rx = [] ∧ fld (s.reg (0x50044 + 0x100 * 2)) 2 0 = 1)
    ((brook .online 0 fun b => { b with stageWait := true }).setReg 0x50244 1) := by decide

/-- Subchannel 5 waits for the reply to this frame type. -/
def exch (ty : Nat) (payload : List Byte) : State :=
  (((brook .online 1050000 fun b => { b with cur := some { kind := .sub 5, pos := 1, ty := ty, seq := 4, payload := payload, sentAt := 1000000, tries := 1 } }).modSub 5
    fun b => { b with st := .active, resident := true, prog := { b.prog with phase := .exchange, op := op5, cur := { w0 := 0x02000004, w1 := 0x900 } } })).modHostFn 0
    fun h => { h with bme := true }

theorem witness_reply : ((exch 0x10 [1, 2]).bk 2).retry = false ∧ ((exch 0x10 [1, 2]).sub 5).prog.phase = .exchange ∧
    (exch 0x10 [1, 2]).now.toNat ≤ (1000000 : DWord).toNat + 1000000 ∧ (bkPos (exch 0x10 [1, 2]) 2 1).attn = false ∧
    PlainArea ((exch 0x12 []).sub 5).prog.cur 4 ∧ ((exch 0x12 []).sub 5).prog.cur.aselF = 0 ∧ (hostErr (exch 0x12 []) .safety).isNone = true ∧
    RunsFull (exch 0x12 []) 5 := by unfold PlainArea RunsFull HoldsNone RingWaits; decide
theorem test_ack : seen (execAck 2 (upFrame 0x00041109 [1, 0] 1005000) (exch 0x10 [1, 2])) (fun t =>
    ((t.bk 2).cur, (t.sub 5).prog.phase, (t.sub 5).prog.resid, (t.sub 5).prog.cstat)) = some (none, .deviceEnd, 1, 2) := by decide
theorem test_data : seen (execData 2 (upFrame 0x00041309 [7, 8, 9, 10] 1005000) (exch 0x12 [])) (fun t => t.hostMem) =
    some [(0x900, 7), (0x901, 8), (0x902, 9), (0x903, 10)] := by decide
theorem test_nak : seen (execNak 2 (upFrame 0x00041F09 [] 1005000) (exch 0x12 [])) (fun t => (t.sub 5).held.map fun h => (h.csw.dstat, h.csw.detail)) =
    some [(2, 0x0201)] := by decide
theorem witness_ident_reply : (fun s : State => bkPosSt s 2 1 = .ident ∧ ∃ e, (s.bk 2).cur = some e ∧ e.kind = .ident 1 ∧ e.ty = 0x14)
    (brook .ident 0 fun b => { b with cur := some { kind := .ident 1, pos := 1, ty := 0x14 } }) := by
  refine ⟨by decide, _, rfl, rfl, rfl⟩
theorem test_ident_reply : seen (execData 2 (upFrame 0x00001309 [0, 0, 0, 0] 1055000) (brook .ident 1050000 fun b => { b with
    cur := some { kind := .ident 1, pos := 1, ty := 0x14, sentAt := 1050000 } })) (fun t => bkPosSt t 2 1) = some .online := by decide
theorem witness_reply_timeout : (1000000 : DWord).toNat + 80 * (22 + 0) + 20000 ≤ (exch 0x10 []).now.toNat ∧ (fun s : State => fld (s.reg (0x50000 + 0x100 * 2)) 9 8 = 0 ∧ ¬(1 ≤ 0)) (exch 0x10 []) := by decide
theorem test_reply_timeout : seen (execBrookReplyTimeout 2 (exch 0x12 [])) (fun t => ((t.bk 2).cur, (t.sub 5).held.map fun h => h.csw.detail)) =
    some (none, [0x0901]) := by decide
theorem witness_brook_registers : Writes dev .scS (0x5004C + 0x100 * 2) 5 ∧ Reaches dev .scS ∧ initWorld dev .scS = .safety ∧
    Writes (brook .online 0 id) .scS 0x50204 3 ∧ bkEnabled (brook .online 0 id) 2 = true ∧ Writes (brook .online 0 id) .scS 0x50204 0 ∧
    Writes (brook .online 0 id) .scS 0x50204 5 ∧ Writes (brook .failed 0 id) .scS 0x50204 0x201 ∧ bkPosSt (brook .failed 0 id) 2 1 = .failed := by
  unfold Writes; simp only [Reaches]; decide
theorem witness_training : (0 : DWord).toNat + 1000000 ≤ (dev.setNow 1500000).now.toNat ∧ (dev.setNow 1500000).now.toNat ≤ (0 : DWord).toNat + 2000000 ∧ (fun s : State => (s.bk 2).link = 0 ∧ bitOf (s.reg 0x50204) 0 = true ∧ (s.bk 2).downAt = 0)
    (brook .online 0 fun b => { b with link := 0 }) ∧ (0 : DWord).toNat + 2000000 ≤ (dev.setNow 2000000).now.toNat := by decide
theorem test_link_down : seen (execBrookLinkDown 2 64 (brook .online 0 id)) (fun t => ((t.bk 2).link, bkPosSt t 2 1, (t.bk 2).errSym)) = some (0, .lost, 64) := by decide
theorem witness_verified : (fun s : State => (s.bk 2).shadow = 2 ∧ (s.bk 2).verAt.toNat + 8388608 ≤ s.now.toNat ∧
    (s.bk 2).vPri + fld (s.reg (0x5001C + 0x100 * 2)) 15 8 ≤ (12 : Byte).toNat) (brook .online 9000000 fun b => { b with shadow := 2 }) := by decide
theorem witness_eye : (fun s : State => (s.bk 2).eyeAt.toNat + 1000000 ≤ s.now.toNat ∧ (s.bk 2).shadow = 0 ∧ (3 : Byte).toNat < fld (s.reg (0x5001C + 0x100 * 2)) 7 0 ∧
    (if fld (s.reg (0x5001C + 0x100 * 2)) 23 16 = 0 then 1 else fld (s.reg (0x5001C + 0x100 * 2)) 23 16) ≤ (s.bk 2).lowMs + 1)
    ((brook .online 1000000 id).setReg 0x5021C 0x10) := by decide
theorem test_shadow_swap : seen (execShadowSwap 2 (brook .online 0 fun b => { b with shadow := 3, vSh := 40, vPri := 10 })) (fun t => ((t.bk 2).vPri, (t.bk 2).shadow, (t.bk 2).swaps)) =
    some (40, 0, 1) := by decide

/-! ### The Silt store -/

/-- Drive 2 in this state. -/
def driven (f : Drive → Drive) : State := (dev.setReg 0x70000 1).modDrv 2 f

theorem witness_drive_states : (fun s : State => s.silt.nv = [] ∧ (s.drv 2).st = .absent ∧ bitOf (s.reg 0x70000) 0 = true ∧ (s.drv 2).perst = false)
    (driven id) ∧ ((driven fun d => { d with st := .init, any := true }).drv 2).st = .init ∧
    Writes (driven id) .scS (0x70104 + 0x20 * 2) (BitVec.ofNat 32 (2 ^ 31 + 1)) ∧
    Writes (driven id) .scS (0x70104 + 0x20 * 2) (BitVec.ofNat 32 (2 ^ 31 + 2)) ∧
    Writes (driven id) .scS (0x70104 + 0x20 * 2) (BitVec.ofNat 32 (2 ^ 31 + 3)) := by unfold Writes; simp only [Reaches]; decide
theorem witness_drive_lanes : fld ((driven id).reg (0x70010 + 4 * (2 / 4))) 1 0 = 0 ∧
    fld (((driven id).setReg 0x70010 1).reg (0x70010 + 4 * (1 / 4))) 1 0 = 1 ∧ fld (((driven id).setReg 0x70010 2).reg (0x70010 + 4 * (2 / 4))) 1 0 = 2 ∧
    ((driven fun d => { d with st := .removing, flushed := true }).drv 2).flushed = true ∧
    ((driven fun d => { d with st := .removing }).drv 2).flushed = false ∧
    (driven id).now.toNat < ((driven fun d => { d with st := .removing }).drv 2).since.toNat + 2000000000 := by decide
theorem witness_drive_quiet : ∀ q, q < 256 → ringOn (driven id) q 2 = false := by decide
theorem test_drive_identify : seen (execDriveIdentifyComplete 2 { serial := [1], blocks := 2 ^ 25 } (driven fun d => { d with st := .init, any := true }))
    (fun t => ((t.drv 2).st, (t.drv 2).maxXfer, (t.evSrc Config.srcSilt).count)) = some (.ready, 32, 1) := by decide
theorem test_drive_foreign : seen (execDriveIdentifyComplete 2 { serial := [1], blocks := 2 ^ 25 } (driven fun d => { d with st := .init, serial := [2] }))
    (fun t => (t.drv 2).st) = some .foreign := by decide

/-- Ring 4, 16 blocks of extent 0, which lies on drive 2, with an index of 16 entries in Basin at 0x10000, in this state with this
word 15; the drive in this state. -/
def ringed (w15 : Word) (d : DrvSt) : State :=
  let s := ((archiving 0).setReg Reg.siltExtBase 0x4000).modDrv 2 fun y => { y with st := d, blocks := 2 ^ 30 }
  let s := pokeMem s 0x800004000 (wordsBytes [1, 0, 0, 2])
  pokeMem s 0x800000100 (wordsBytes ([0, 0x10000, 16, 4, 0x10000, 8, 0, 0] ++ List.replicate 7 0 ++ [w15]))

theorem witness_ring_drive : ringOn (ringed 2 .ready) 4 2 = true ∧ (∀ q, q < 256 → q ≠ 4 → ringOn (ringed 2 .ready) q 2 = false) ∧
    arState (ringed 2 .ready) 4 = 2 ∧ (ringed 2 .ready).silt.recs = [] ∧ (ringed 2 .ready).silt.cmdS.busy = false ∧ MemOk (ringed 2 .ready) ∧
    arRingAddr (ringed 2 .ready) 256 ≤ Config.basinBase + fld ((ringed 2 .ready).reg Reg.siltExtBase) 23 14 * 0x4000 ∧
    ((ringed 2 .foreign).drv 2).st = .foreign ∧ ringHas (ringed 2 .foreign) 4 2 = true ∧ ringHas (ringed 2 .foreign) 4 3 = false := by
  unfold MemOk; decide
theorem witness_latency : (fun s : State => (s.drv 2).st = .ready ∧ (s.drv 2).slow = false ∧ (s.drv 2).latAt.toNat + 100000000 ≤ s.now.toNat ∧
    100000 * fld (s.reg 0x70000) 23 16 * (s.drv 2).latN < (s.drv 2).latSum)
    (((driven fun d => { d with st := .ready, latSum := 500000, latN := 2 }).setReg 0x70000 0x20001).setNow 100000000) := by decide
theorem test_latency : seen (execDriveLatencyWindow 2 false true (((driven fun d => { d with st := .ready, latSum := 500000, latN := 2, latMax := 400001 }).setReg 0x70000 0x20001).setNow 100000000))
    (fun t => ((t.drv 2).mean, (t.drv 2).max, (t.drv 2).slow, (t.drv 2).latN)) = some (250, 401, true, 0) := by decide

/-- One NVMe command of this use is in flight on drive 2. -/
def flying (u : NvUse) (f : State → State) : State :=
  f ((driven fun d => { d with st := .ready, tmoRun := 2 }).modSilt fun y => { y with nv := [{ id := 3, drive := 2, lba := 64, blocks := 1, use := u }] })

/-- Subchannel 5 waits for the data of its FETCHSTORE. -/
def waits (s : State) : State :=
  (s.modSub 5 fun b => { b with st := .active, resident := true, prog := { b.prog with phase := .fetching, op := op5 } }).setNow 3000000000

theorem witness_nvme : ((flying .flush id).silt.nv.find? fun c => c.id == 3 && !c.done && !c.wait).map (fun c => (c.drive, c.use, c.issued)) =
      some (2, .flush, 0) ∧
    ((flying .flush id).silt.nv.find? fun c => c.id == 4 && !c.done && !c.wait) = none ∧ ((flying .flush id).drv 2).tmoRun = 2 ∧
    (∀ z ∈ (flying .flush id).silt.nv, z.wait = false) ∧ ((flying .flush id).drv 2).st ≠ .removing ∧ (flying .flush id).silt.copy.busy = false ∧
    (0 : DWord).toNat + 1000000 * Nat.max 1 (fld ((flying .flush waits).reg 0x70000) 15 8) ≤ (flying .flush waits).now.toNat := by decide
theorem witness_nvme_fetch : (NvUse.fetch 5 0 = .fetch 5 ((flying (.fetch 5 0) waits).sub 5).gen.toNat) ∧
    ((flying (.fetch 5 0) waits).sub 5).prog.phase = .fetching ∧ RunsFull (flying (.fetch 5 0) waits) 5 := by
  unfold RunsFull HoldsNone RingWaits; decide
theorem test_nvme_timeout : seen (execNvmeCommandTimeout 3 (flying .flush waits)) (fun t => ((t.drv 2).st, (t.drv 2).reason, (t.drv 2).errTmo)) =
    some (.failed, 5, 1) := by decide
theorem test_nvme_status : seen (execNvmeCompletion 3 2 0x81 ⟨[], false, false⟩ (flying (.fetch 5 0) waits)) (fun t => (t.sub 5).held.map fun h => h.csw.detail) =
    some [0x0903] := by decide

/-- Subchannel 5 holds a record of eight bytes for ring 4. -/
def recording (w15 : Word) (q : Option Nat) : State :=
  ((ringed w15 .ready).modSub 5 fun b => { b with prog := { b.prog with
    phase := .archive
    work := { b.prog.work with ring := 4, seq := q, bytes := List.replicate 8 1, olen := 8 } } }).modSilt fun y => { y with bouncePages := 32 }

theorem witness_record : (fun s : State => (s.sub 5).prog.phase = .archive ∧ (s.sub 5).prog.work.seq = none ∧ (s.sub 5).prog.work.raw = [] ∧
    (s.sub 5).prog.committed = false ∧ arState s 4 = 2 ∧ RunsFull s 5 ∧ MemOk s ∧ arOpen s 4 < 255 ∧
    extFault s (s.sub 5).attr.world true false (arBase s 4 + 4096 * (placeRec s 4 1).1) 1 = none ∧ ringFullFor s 4 0 1 = false ∧ meetsUnread s 4 0 1 = false ∧
    (∀ y ∈ s.subs, y.1 ≠ 5 → awaitsRec y.2.prog 4 = true → (s.sub 5).prog.work.arr ≤ y.2.prog.work.arr) ∧
    s.silt.bounceBase + 4096 * s.silt.bouncePages ≤ arRingAddr s 0 ∧ (s.sub 5).prog.work.unread = false)
    (recording 2 none) ∧ meetsUnread ((recording 2 none).modSilt fun y => { y with ringx := [(4, { scanFrom := 3, scanBlk := 3 })] }) 4 0 1 = true ∧
    (fun s : State => ∃ y ∈ s.subs, y.1 ≠ 5 ∧ awaitsRec y.2.prog 4 = true ∧ ¬((s.sub 5).prog.work.arr ≤ y.2.prog.work.arr))
      (((recording 2 none).modSub 6 fun _ => (recording 2 none).sub 5).modSub 5 fun b => { b with
        prog := { b.prog with work := { b.prog.work with arr := 1 } } }) ∧ arState (recording 3 none) 4 = 3 ∧ arState (recording 0 none) 4 = 0 ∧
    arIdxBase (recording 2 none) 4 + 16 * arIdxN (recording 2 none) 4 ≤ arIdxBase (recording 2 none) 4 + 256 := by
  unfold RunsFull HoldsNone RingWaits MemOk; decide

/-- Ring 4 with one open record of sequence 0, so changed. -/
def opened (f : Rec → Rec) : State :=
  (recording 0x12 (some 0)).modSilt fun y => { y with recs := [f { ring := 4, seq := 0, epoch := 0, blk := 0, blocks := 1, sub := 5, gen := 0 }] }

theorem witness_bounce : (fun s : State => (s.sub 5).prog.phase = .archive ∧ (s.sub 5).prog.work.seq = some 0 ∧ (s.sub 5).prog.work.bounce = false ∧
    (s.sub 5).prog.work.left = 0 ∧ (s.silt.recs.find? fun z => z.ring == 4 && z.seq == 0).isSome = true ∧
    bounceUsed s + recBlocks (s.sub 5).prog.work.bytes.length ≤ s.silt.bouncePages) (opened id) := by decide
theorem witness_header : recsOf (opened fun r => { r with mark := true }) 4 = [{ ring := 4, seq := 0, epoch := 0, blk := 0, blocks := 1, sub := 5, gen := 0, mark := true }] ∧
    payloadLeft (opened fun r => { r with mark := true }) 4 0 = false ∧ recsOf dev 4 = [] ∧
    recsOf (opened fun r => { r with dead := true }) 4 = [{ ring := 4, seq := 0, epoch := 0, blk := 0, blocks := 1, sub := 5, gen := 0, dead := true }] := by decide
theorem witness_committed : (fun s : State => MemOk s ∧ arRingAddr s 256 ≤ arIdxBase s 4 ∧ s.silt.cmdS.busy = false ∧ s.silt.cmdV.busy = false ∧
    (s.sub 5).gen.toNat = 0 ∧ ((s.sub 5).prog.work.seq = some 0)) (opened fun r => { r with written := true }) := by unfold MemOk; decide
theorem test_record_void : seen (execRecordVoid 4 (opened fun r => { r with dead := true })) (fun t => t.silt.nv.map fun c => (c.drive, c.blocks, c.fua, c.use)) =
    some [(2, 1, true, .void 4 0)] := by decide
theorem test_record_committed : seen (execRecordCommitted 4 (opened fun r => { r with written := true })) (fun t =>
    (arOpen t 4, arDone t 4, idxW t 4 0 3, (t.sub 5).prog.phase)) = some (0, 0, 1, .deviceEnd) := by decide
theorem witness_ring_commands : (fun s : State => Writes s .scS 0x70034 6 ∧ Writes (s.setReg 0x70034 6) .scS 0x70030 (BitVec.ofNat 32 (2 ^ 31 + 256 + 4)) ∧
    Writes s .scS 0x70030 (BitVec.ofNat 32 (2 ^ 31 + 512 + 4)) ∧ Writes s .scS 0x70030 (BitVec.ofNat 32 (2 ^ 31 + 768 + 4)) ∧
    (ringCmd s .safety).busy = false ∧ initWorld s .scS = .safety ∧ arValid s 4 = true ∧ arWorld s 4 = .safety) (ringed 0 .ready) ∧
    seqDist (arRel (ringed 2 .ready) 4) (arNext (ringed 2 .ready) 4) < seqDist (arRel (ringed 2 .ready) 4) 7 ∧
    ¬(seqDist 5 9 < seqDist 5 7) ∧ arOpen (ringed 2 .ready) 4 = 0 ∧ arOpen (opened id) 4 = 1 ∧ MemOk (ringed 2 .ready) := by
  unfold Writes MemOk; simp only [Reaches]; decide
theorem test_ring_enable : seen (execRingEnable .scS 4 (ringed 0 .ready)) (fun t => (arState t 4, t.silt.cmdS.result)) = some (1, 0) := by decide

theorem wordAt_append {a : List Byte} {k : Nat} (h : a.length = 4 * k) (w : Word) : wordAt (a ++ toBytes 4 w.toNat) k = w := by
  unfold wordAt
  rw [List.drop_append_of_le_length (by omega), List.drop_of_length_le (by omega)]
  apply BitVec.eq_of_toNat_eq
  have : w.toNat < 2 ^ 32 := w.isLt
  simp [toBytes, ofBytes, List.range_succ]
  omega

theorem takeCkpt_sealed {a : List Byte} (h : a.length = 4092) :
    takeCkpt (a ++ toBytes 4 (crc32c a).toNat) [] = some (a ++ toBytes 4 (crc32c a).toNat, false) := by
  have u : ckptOk (a ++ toBytes 4 (crc32c a).toNat) = true := by
    unfold ckptOk
    rw [wordAt_append (by omega), List.take_append_of_le_length (by omega), List.take_of_length_le (by omega)]
    simp [toBytes, h]
  have b : ckptOk [] = false := rfl
  unfold takeCkpt
  rw [u, b]
theorem witness_checkpoint : ∃ ck bs, takeCkpt ck [] = some (bs, false) :=
  ⟨_, _, takeCkpt_sealed (List.length_replicate (n := 4092) (a := (0 : Byte)))⟩
theorem witness_ring_scan : arState (ringed 1 .ready) 4 = 1 ∧ ringReady (ringed 1 .ready) 4 = true ∧ MemOk (ringed 1 .ready) ∧
    arState (ringed 2 .ready) 4 = 2 ∧ arIndexed (ringed 2 .ready) 4 = false ∧
    (fun s : State => arState s 4 = 2 ∧ arIndexed s 4 = false ∧ seqDist (arOld s 4) ((arDone s 4 + 1) % 2 ^ 32) = 1 ∧
      (idxW s 4 (arOld s 4) 0).toNat = arOld s 4 ∧ fld (idxW s 4 (arOld s 4) 3) 12 0 ≠ 0) (pokeMem (ringed 2 .ready) 0x80001000C [1]) := by
  unfold MemOk; decide
theorem test_index_rebuild : seen (execIndexRebuildComplete 4 [] (pokeMem (ringed 2 .ready) 0x80001000C [1])) (fun t => arIndexed t 4) = some true := by decide

/-- The copy registers name one block from 0x4000 to 0x8000 of extent 0. -/
def copyOf (f : State → State) : State := f (((ringed 0 .ready).setReg 0x70060 0x40000).setReg 0x70068 0x80000 |>.setReg 0x70070 1)

theorem witness_copy : Writes (copyOf id) .scS 0x70074 1 ∧ extentsOf 0x40000 1 = [0] ∧ extValid (copyOf id) 0 = true ∧ extBroken (copyOf id) 0 = false ∧
    extRo (copyOf id) 0 = false ∧ arBase (copyOf id) 4 + 4096 * arSize (copyOf id) 4 ≤ 0x80000 ∧
    (∀ q, q < 256 → q ≠ 4 → arValid (copyOf id) q = false) ∧ (∀ k ∈ extDrives (copyOf id) 0, ((copyOf id).drv k).st = .ready) ∧
    (∀ k ∈ drivesOf (copyOf id) 0x40000 1 ++ drivesOf (copyOf id) 0x80000 1, ((copyOf id).drv k).st = .ready) ∧ copyBusy (copyOf id) = false ∧
    (fun s : State => s.silt.copy.busy = true ∧ copyBusy s = false ∧ 1 ≤ s.silt.copy.next)
      ((copyOf id).modSilt fun y => { y with copy := { busy := true, next := 1 } }) := by
  unfold Writes; simp only [Reaches]; decide
theorem test_copy_go : seen (execSiltCopyGo .scS (copyOf id)) (fun t => (t.silt.copy.busy, t.silt.nv.map fun c => (c.drive, c.blocks, c.write, c.use))) =
    some (true, [(2, 1, false, .copyRead 0)]) := by decide
theorem test_copy_not_ready : seen (execSiltCopyGo .scS (copyOf fun s => s.modDrv 2 fun y => { y with st := .failed })) (fun t => (t.silt.copy.busy, t.silt.copy.result)) =
    some (false, 3) := by decide

/-! ### The DMA engine -/

/-- Channel 3 with a ring of 16 slots in Basin at 0x8000, whose slot 0 holds this descriptor, so changed. -/
def dmaDev (d : List Word) (f : DmaCh → DmaCh) : State :=
  (pokeMem ((dev.setReg 0x80064 0x8000).setReg 0x80068 0x408) 0x800008000 (wordsBytes d)).modDch 3 fun _ => f { st := .idle }

/-- COUNT elements of this pattern and size minus one from Basin at 0x1000 to 0x2000, with this trigger word. -/
def moves (w1 count w6 : Word) : List Word := [0x1000, 8 ||| w1, 0x2000, 8, count ||| 0x1000000, 0x20, w6 ||| 8, 1]

theorem witness_dma_tail : Writes (dmaDev (moves 0x100 1 0) id) .scS (0x80000 + 0x20 * 3 + 0xC) 1 ∧
    ddOk (moves 0x100 1 0) = true ∧ ddOk (moves 0x100 0 0) = false ∧ (1 : Nat) = (0 + 1) % 2 ^ 4 ∧
    (fun s : State => ((s.modDch 3 fun y => { y with tail := 1, st := .running }).dma = (s.modDch 3 fun y => { y with tail := 1, st := .running }).dma) ∧
      got (devRead (s.modDch 3 fun y => { y with tail := 1, st := .running }) (.dma 3) (dmaSlot s 3 0) 32)
        (s.modDch 3 fun y => { y with tail := 1, st := .running }) (wordsBytes (moves 0x100 1 0)) = true) (dmaDev (moves 0x100 1 0) id) := by
  unfold Writes; simp only [Reaches]; decide
theorem test_dma_tail : seen (execDmaChTail .scS 3 1 (dmaDev (moves 0x100 1 0) id)) (fun t => ((t.dch 3).desc, (t.dch 3).st)) =
    some (some (moves 0x100 1 0), .running) := by decide
theorem test_dma_bad : seen (execDmaChTail .scS 3 1 (dmaDev (moves 0x100 0 0) id)) (fun t => ((t.dch 3).st, (t.dch 3).head, peekWord t 0x80000801C, (t.evSrc Config.srcDma).count)) =
    some (.idle, 1, 0x44, 1) := by decide

/-- Channel 3 runs this descriptor. -/
def dmaRuns (d : List Word) (f : DmaCh → DmaCh) : State := dmaDev d fun x => f { x with st := .running, tail := 1, desc := some d }

theorem witness_burst : dmaPick dev = none ∧ dmaPick (dmaRuns (moves 0x100 2 0) id) = some 3 ∧ dmaReq (dmaRuns (moves 0x100 2 0) id) 3 = 0 ∧
    Nat.min 2 (ddBurst (moves 0x100 2 0)) = 1 ∧
    (fun s : State => got (devRead s (.dma 3) 0x800001000 2) s [0, 0] && decide ((devWrite s (.dma 3) 0x800002000 [0, 0]).2 = (2, none)) &&
      decide ((devWrite s (.dma 3) 0x800002000 [0, 0]).1.posted = [])) (dmaRuns (moves 0x100 2 0) id) = true ∧
    got (devRead (dmaRuns (moves 0x110 2 0) id) (.dma 3) (ddTable (moves 0x110 2 0)) 4) (dmaRuns (moves 0x110 2 0) id) [0, 0, 0, 0] = true := by decide
theorem test_burst : seen (execDmaBurst (pokeMem (dmaRuns (moves 0x100 2 0) id) 0x800001000 [7, 8])) (fun t =>
    ((t.dch 3).pos, cellGet t.mem 0x800002000, cellGet t.mem 0x800002001, t.dma.ptr)) = some (1, 7, 8, [4, 0, 0, 0]) := by decide
theorem test_burst_interleave : seen (execDmaBurst (pokeMem (dmaRuns (moves 0x4130 2 0) fun x => { x with pos := 3 }) 0x800001022 [7, 8])) (fun t =>
    (cellGet t.mem 0x800002006, (t.dch 3).moved)) = some (7, true) := by decide

/-- The channel paced by the message transmit FIFO of Brook link 2, and by audio pin 8 with value 9 and sixteen samples. -/
def paced (r : Nat) : State :=
  (((dmaRuns (moves 0x100 2 0) id).setReg 0x80060 (BitVec.ofNat 32 (16 * r))).setReg (Reg.pinCfg 8) 7 |>.setReg (Reg.pinOutcfg 8) 0x10000000 |>.setReg (Reg.pinAux 8) 0x30000).modPin 8
    fun p => { p with value := 9, fifo := List.replicate 16 0 }

theorem witness_withdraw : dmaReq (paced 99) 3 = 99 ∧ dmaReady (paced 99) 3 = true ∧ dmaReq (paced 9) 3 = 9 ∧ dmaReady (paced 9) 3 = true ∧
    ddE (moves 0x100 2 0) = 2 ∧
    (devWrite ((paced 99).modDch 3 fun y => { y with pad := y.pad + 1 }) (.dma 3) 0x800002000 [0, 0]).2 = (2, none) := by decide
theorem test_withdraw : seen (execDmaRequestWithdraw 3 0 ((paced 9).setReg 0x80074 0x1234)) (fun t => ((t.pin 8).fifo.drop 16, (t.dch 3).pad, (t.dch 3).pos)) =
    some ([0x1234], 1, 1) := by decide

/-- All elements moved. -/
def dmaDone (w6 : Word) : State := dmaRuns (moves 0x100 2 w6) fun x => { x with moved := true, pos := 2 }

theorem witness_complete_fence : ((dmaDone 0).dch 3).fence = false ∧ (dmaRuns (moves 0x100 2 0) fun x => { x with moved := true, fence := true }).posted = [] := by
  decide
theorem witness_complete : (devWrite (dmaDone 0) (.dma 3) 0x80000801C [2, 0, 0, 0]).2 = (4, none) ∧
    ((devWrite (dmaDone 0) (.dma 3) 0x80000801C [2, 0, 0, 0]).1.dma = (dmaDone 0).dma) ∧
    ((devWrite (dmaDone 0) (.dma 3) 0x80000801C [2, 0, 0, 0]).1.regs = (dmaDone 0).regs) ∧
    ddKind (moves 0x100 2 0x10) = 1 ∧ ddKind (moves 0x100 2 0x20) = 2 ∧ ddKind (moves 0x100 2 0x30) = 3 ∧
    ddGen (moves 0x100 2 0x10) = (dev.sub 0).gen.toNat ∧ 0 ≠ ((dev.modSub 0 fun b => { b with gen := 3 }).sub 0).gen.toNat ∧
    ((devWrite ((dmaDone 0).setReg (Reg.rgnAttr 0) 0) (.dma 3) 0x80000801C [2, 0, 0, 0]).2.2).isSome = true := by decide
theorem test_complete : seen (execDmaDescriptorComplete 3 (dmaDone (0x10 ||| 0x14800))) (fun t => ((t.dch 3).st, peekWord t 0x80000801C, (t.evSrc 1312).count)) =
    some (.idle, 2, 1) := by decide
theorem witness_resume_abort : Writes (dmaDone 0) .scS (0x80000 + 0x20 * 3 + 0x18) 1 ∧ Writes (dmaDone 0) .scS (0x80000 + 0x20 * 3 + 0x18) 2 ∧
    ((dmaDev [] fun x => { x with st := .halted, tail := 1 }).dch 3).st = .halted ∧ (devWrite (dmaDone 0) (.dma 3) 0x80000801C [4, 0, 0, 0]).2 = (4, none) := by
  unfold Writes; simp only [Reaches]; decide
theorem test_abort : seen (execDmaAbort .scS 3 (dmaDone 0)) (fun t => ((t.dch 3).st, peekWord t 0x80000801C, (t.dch 3).badCnt)) = some (.idle, 4, 1) := by decide

/-- Two samples through the Sift unit: forward in pattern 5, inverse in pattern 6. -/
def sifting (w1 : Word) (src : List Byte) : State := pokeMem (dmaRuns (moves w1 2 0) id) 0x800001000 src

theorem witness_sift : dmaAsserted (sifting 0x150 [5, 0, 7, 0]) 3 = true ∧ ddPat (moves 0x150 2 0) = 5 ∧ ddPat (moves 0x160 2 0) = 6 ∧
    siftBlockLen [0xF8, 0xFF, 0x05, 0] = some (4 + 32) := by decide
theorem test_sift_sub : seen (execSiftBlock (.sub 5) (with5 fun b => { b with prog := { b.prog with phase := .archive, work := { b.prog.work with raw := [5, 0, 5, 0] } } }))
    (fun t => ((t.sub 5).prog.work.raw, ((t.sub 5).prog.work.bytes.take 4))) = some ([], [0xFA, 0xFF, 0, 0]) := by decide
theorem test_sift_inverse : seen (execSiftBlock (.dma 3) (sifting 0x160 [0xFE, 0xFF, 1, 0])) (fun t =>
    (peekWord t 0x800002000, (t.dch 3).bytes, (t.dch 3).moved)) = some (0x10001, 4, true) := by decide
theorem witness_sift_blocks : (sifting 0x160 [0xFE, 0xFF, 1, 0]).posted = [] ∧ siftBlockLen [0xFE, 0xFF, 1, 0] = some 4 ∧
    (siftInverse false 0 2 [0xFE, 0xFF, 1, 0]).isSome = true ∧
    got (devRead (sifting 0x160 [0xFE, 0xFF, 1, 0]) (.dma 3) 0x800001000 4) (sifting 0x160 [0xFE, 0xFF, 1, 0]) [0xFE, 0xFF, 1, 0] = true := by decide

/-! ### The host endpoint -/

/-- The endpoint in this period: 0 without supply, 1 before the image, 2 before READY, 3 READY; function 0 so changed. -/
def endpoint (f : HostFn → HostFn) : State := dev.modHostFn 0 f

theorem witness_host_periods : hostPeriod dev = 3 ∧ hostPeriod (dev.modBoot fun b => { b with st := .off, ready := false }) = 0 ∧
    hostPeriod (dev.modBoot fun b => { b with st := .memory, ready := false }) = 1 ∧
    hostPeriod (dev.modBoot fun b => { b with st := .forming, ready := false }) = 2 ∧ dev.host.linkUp = false ∧
    dev.host.fns.length = 2 ∧ fnPresent dev 0 = true ∧ fnPresent (dev.modBoot fun b => { b with st := .memory, ready := false }) 0 = true ∧
    (dev.hostFn 0).pba = 0 ∧ (dev.hostFn 0).bme = false ∧ (dev.hostFn 0).d3 = false := by decide
theorem test_host_link_up : seen (execHostLinkUp 4 2 dev) (fun t => (t.host.linkUp, t.host.speed, t.host.width, (t.evSrc Config.srcHost).count)) =
    some (true, 4, 2, 1) := by decide
theorem test_config_id : seen (execHostConfigRequest 1 (.read 0) dev) (·.ans) = some [0x48971F3A] := by decide
theorem test_before_ready : seen (execHostMemoryRequestBeforeReady 0 true (dev.modBoot fun b => { b with st := .forming, ready := false })) (fun t => (t.hostFn 0).dropped) =
    some 1 := by decide

/-- Function 0 holds the message of vector 9. -/
def heldMsg (sent : Bool) : State :=
  let s := endpoint fun g => { g with pba := 0x200, bme := true, msixEn := true }
  if sent then { s with ev := { s.ev with vsent := [0x200, 0], src := [(7, { target := 2, en := true, vector := 9, count := 1 })] } } else s

theorem witness_msix : (heldMsg true).posted = [] ∧ ((heldMsg true).hostFn 0).pba = BitVec.ofNat 64 (2 ^ 9) ∧ (heldMsg true).ev.vsent.length = 2 ∧
    bitOf (nth 0 (heldMsg true).ev.vsent 0) 9 = true ∧ (∃ x ∈ (heldMsg true).ev.src, claimable (heldMsg true) (2 + 0) x.2 = true ∧ x.2.vector = 9) ∧
    bitOf (nth 0 (heldMsg false).ev.vsent 0) 9 = false := by decide
theorem test_msix_unmask : seen (execMsixUnmask 0 (.entry 9 0x1000 0xABCD false) (heldMsg true)) (fun t => ((t.hostFn 0).pba, t.hostMem)) =
    some (0, [(0x1000, 0xCD), (0x1001, 0xAB)]) := by decide
theorem test_msix_masked : seen (execMsixUnmask 0 (.entry 9 0x1000 0xABCD true) (heldMsg true)) (fun t => ((t.hostFn 0).pba, t.hostMem)) =
    some (0x200, []) := by decide
theorem witness_bus_master : ((endpoint fun g => { g with bme := true }).hostFn 0).bme = true ∧ ((endpoint fun g => { g with d3 := true }).hostFn 0).d3 = true := by
  decide
theorem test_poison : seen (execPoisonedWriteReceive 0 dev) (fun t => (t.host.poison, (t.evSrc Config.srcHost).count)) = some (1, 1) := by decide

/-- Subchannel 5 waits for bytes of host memory. -/
def reading : State :=
  (running.modSub 5 fun b => { b with prog := { b.prog with phase := .fetching, cur := { w0 := 0x02000004, w1 := 0x900 } } }).modHostFn 0
    fun h => { h with bme := true }

/-- Queue 7 and ring 9 read their indexes from host memory. -/
def polling : State :=
  (reading.modSq 7 fun q => { q with reading := true, desc := { q.desc with tailA := { asel := 0, addr := 0x3000 } } }).modRing 9 fun r =>
    { r with st := .enabled, reading := true, desc := { r.desc with headA := { asel := 0, addr := 0x3004 } } }

theorem witness_completions : hostOut reading (.data 5) = true ∧ RunsFull reading 5 ∧ (reading.sub 5).prog.cur.ida = false ∧
    (reading.sub 5).prog.cur.cd = false ∧ (reading.sub 5).prog.cur.pci = false ∧ (reading.sub 5).attr.errSafe = false ∧
    hostOut polling (.tail 7) = true ∧ hostOut polling (.head 9) = true ∧ hostOut dev (.data 5) = false := by
  unfold RunsFull HoldsNone RingWaits; decide
theorem test_completion_error : seen (execHostCompletionReceive (.data 5) 0 [] 1 reading) (fun t => (t.host.urca, (t.sub 5).held.map fun h => h.csw.detail)) =
    some (1, [0x0505]) := by decide
theorem witness_completion_limits : hostEarly polling (.tail 7) = true ∧ hostEarly (polling.setNow 40000000) (.tail 7) = false ∧
    hostEarly (polling.setNow 40000000) (.head 9) = false ∧ hostEarly (reading.setNow 40000000) (.data 5) = false ∧
    hostEarly (polling.setNow 40000000) (.entry 7) = false := by decide
theorem test_completion_timeout : seen (execHostCompletionTimeout (.tail 7) (polling.setNow 40000000)) (fun t => ((t.sq 7).st, (t.sq 7).err, t.host.cto)) =
    some (.error, 5, 1) := by decide

/-- A device with no subchannel or queue configured, whose function 0 may issue requests. -/
def bare : State := { hosted with subs := [], q := {} }

theorem witness_resets : bare.subs = [] ∧ bare.q.sq = [] ∧ bare.q.cq = [] ∧ bare.posted = [] ∧ hostPeriod bare = 3 ∧ fnPresent bare 0 = true ∧
    (bare.hostFn 0).bme = true := by decide
theorem test_flr : seen (execFunctionLevelReset 0 bare) (fun t => ((t.hostFn 0).bme, t.host.flrs)) = some (false, 1) := by decide
theorem test_link_reset : seen (execHostLinkReset { bare with host := { bare.host with linkUp := true } }) (fun t => (t.host.linkUp, t.host.linkDowns, t.host.flrs)) =
    some (false, 1, 2) := by decide

/-! ### Start-up and updates -/

/-- SHA-256 of the three bytes of "abc", and a signature of P-256, both as FIPS 180-4 and FIPS 186-4 give them. -/
theorem test_sha : (sha256 [0x61, 0x62, 0x63]).take 4 = [0xBA, 0x78, 0x16, 0xBF] := by decide +kernel
theorem test_ecdsa : ecdsaVerify p256G.1 p256G.2 0x5ecbe4d1a6330a44c8f7ef951d4bf165e6c6b721efada985fb41661bc6e7fd6c 0x5ecbe4d1a6330a44c8f7ef951d4bf165e6c6b721efada985fb41661bc6e7fd6c (beBytes 32 0xbd97c9a34c66148991efdf2a3a97e2cbcd8d6e43df5b530bf682cc378dcffad8) = true := by
  decide +kernel

/-- Start-up in this step. -/
def starting (st : BootSt) (f : Boot → Boot) : State := State.reset.modBoot fun b => f { b with st := st }

/-- An image of three sections: GLOBAL; a scan list for each bank, HOUSE in slot 0; a member that runs alone at position 0. -/
def image : List Byte :=
  wordsBytes [0x59414C43, 0x30001, 1024, 7, 3, 0xB14896] ++ List.replicate 232 0 ++
  wordsBytes [1, 304, 24, 0, 3, 336, 104, 0, 9, 448, 16, 0] ++ wordsBytes [0x100A, 0, 0, 0, 0, 0, 0, 0] ++
  wordsBytes ([0x6001, 0] ++ (List.range 12).flatMap fun b => [BitVec.ofNat 32 (0x42004 + 0x40 * b), 0xFFFFFFF8]) ++ List.replicate 8 0 ++
  wordsBytes [0x801, 0, 0x60000, 0x10] ++ List.replicate 560 0
def header (seq : Word) : List Byte := wordsBytes [0x59414C43, 0x10001, 1024, seq, 3, 0xB14896] ++ List.replicate 232 0

theorem witness_boot_steps : (∀ x : BootSt, (starting x id).boot.st = x) ∧ candidate State.reset (header 7) = true ∧ candidate State.reset (header 0) = false ∧
    (imgSeq (header 7)).toNat = 7 ∧ (imgSeq (header 8)).toNat = 8 := by
  refine ⟨fun x => by cases x <;> rfl, ?_⟩; decide
theorem witness_try_times : notYet (starting .reading id) 0 1000000 = true ∧
    notYet (State.reset.setReg Reg.weirWin 1024) (State.reset.setReg Reg.weirWin 1024).weir.winAt 1024 = true := by decide
theorem test_slot_choice : seen (execMemoryInitComplete { hdrA := header 7, hdrB := header 8 } (starting .memory id)) (fun t =>
    (t.boot.slot, t.boot.other, t.boot.st)) = some (true, some false, .reading) := by decide
theorem test_no_image : seen (execMemoryInitComplete {} (starting .memory fun b => { b with monEn := true })) (fun t =>
    (t.boot.st, t.boot.stop, t.mon.run, t.mon.noimg)) = some (.stopped, 1, true, true) := by decide
theorem test_second_try : seen (execFlashReadTimeout ((starting .reading fun b => { b with other := some true }).setNow 1000000)) (fun t =>
    (t.boot.slot, t.boot.fallback, t.boot.errCode, t.boot.st)) = some (true, true, 3, .reading) := by decide
theorem witness_image : headerFault State.reset image = 0 ∧ sectionsOk image = true ∧ headerFault State.reset [] ≠ 0 ∧
    headerFault State.reset (image.set 256 0) = 0 ∧ sectionsOk (image.set 256 0) = false := by decide +kernel
theorem witness_auth : authFault (starting .auth id) [] = 4 ∧ (starting .auth id).boot.len = 0 ∧
    authFault ((starting .auth id).modFuses fun f => { f with keys := [some [], none] }) [] = 4 ∧
    authFault ((starting .auth fun b => { b with unprov := true })) [] = 5 := by decide +kernel
/-- A load has succeeded. -/
def loads (r : Except ClayErr State) : Bool :=
  match r with
  | .ok _ => true
  | .error _ => false

theorem witness_load : loads (loadImage (starting .apply fun b => { b with zeroed := true }) image) = true ∧
    loads (loadImage (starting .apply id) (image.set 304 0x7F)) = false := by decide +kernel
/-- The calibrations of all twelve banks. -/
def calibrations : List CalRead := (List.range 12).map fun b => { bank := Fin.ofNat 12 b }

theorem witness_calibrated : ∀ k, k < 12 → ∃ c ∈ calibrations, c.bank.val = k := by decide
theorem witness_ready : (fun s : State => s.boot.st = .forming ∧ s.cu.pl = .none ∧ s.boot.qenable = [] ∧
    voteMode s = 0 ∧ s.boot.formAt.toNat + 1000000 * s.boot.formWait ≤ s.now.toNat) ((starting .forming id).setNow 300000000) ∧
    ∀ i, bitOf (nth 0 ([] : List Byte) (i / 8)) (i % 8) = false :=
  ⟨by decide, fun i => by show bitOf (0 : Byte) (i % 8) = false; simp [bitOf]⟩

/-- Bit m of byte j is the only one set among 256 bytes. -/
def onlyBit (j m : Nat) : List Byte := (List.replicate 256 0).set j (BitVec.ofNat 8 (2 ^ m))

theorem onlyBit_iff {j m : Nat} (h : ∀ k, k < 256 → nth 0 (onlyBit j m) k = if k = j then BitVec.ofNat 8 (2 ^ m) else 0)
    (b : ∀ k, k < 8 → (bitOf (BitVec.ofNat 8 (2 ^ m)) k = true ↔ k = m)) (hm : m < 8) {i : Nat} (hi : i < 2048) :
    bitOf (nth 0 (onlyBit j m) (i / 8)) (i % 8) = true ↔ i = 8 * j + m := by
  rw [h _ (by omega)]
  split
  · rw [b _ (by omega)]; omega
  · have : bitOf (0 : Byte) (i % 8) = false := by simp [bitOf]
    rw [this]; constructor
    · exact fun h => (Bool.false_ne_true h).elim
    · omega

/-- QENABLE names only ring k or queue k. -/
def enables (j m : Nat) : State := starting .forming fun b => { b with qenable := onlyBit j m }

theorem witness_qenable_ring : (∀ i, i < 2048 → (bitOf (nth 0 (enables 129 1).boot.qenable (i / 8)) (i % 8) = true ↔ i = 1024 + 9)) ∧
    ((enables 129 1).ring 9).st = .disabled ∧ (enableRing (enables 129 1) 9).posted = [] :=
  ⟨fun i hi => onlyBit_iff (by decide) (by decide) (by decide) hi, by decide⟩
theorem witness_qenable_queue : (∀ i, i < 2048 → (bitOf (nth 0 (enables 0 7).boot.qenable (i / 8)) (i % 8) = true ↔ i = 7)) ∧
    ((enables 0 7).sq 7).st = .disabled ∧ (enableQueue (enables 0 7) 7).posted = [] :=
  ⟨fun i hi => onlyBit_iff (by decide) (by decide) (by decide) hi, by decide⟩

/-- The update registers name a block of flash and this length. -/
def updating (ofs len : Word) : State :=
  let s := dev.modCore 65 fun x => { x with run := true, lvl := true, world := .service }
  ((s.setReg 0x1024 ofs).setReg 0x1030 len).setReg 0x1028 0x1000 |>.setReg 0x102C 8

theorem witness_update : Writes (updating 0 256) .scV 0x1020 (BitVec.ofNat 32 (2 ^ 31 + 1)) ∧ Writes (updating 0 256) .scV 0x1020 (BitVec.ofNat 32 (2 ^ 31 + 2)) ∧
    Writes (updating 0 256) .scV 0x1020 (BitVec.ofNat 32 (2 ^ 31 + 3)) ∧ bitOf ((updating 0 256).reg 0x1010) 0 = false ∧
    bitOf ((updating 0 256).setReg 0x1010 1 |>.reg 0x1010) 0 = true ∧ 0x100 % 65536 ≠ 0 ∧ (0x1FFFF00 + 0x100 ≤ 0x2000000) ∧
    got (devRead (updating 0 256) .scV 0x800001000 256) (updating 0 256) (List.replicate 256 0) = true ∧
    (match (devRead ((updating 0 256).setReg (Reg.rgnAttr 0) 0) .scV 0x800001000 256).2 with | .ok _ => false | .error _ => true) = true := by
  unfold Writes; simp only [Reaches]; decide +kernel
theorem test_erase : seen (execClayErase .scV (updating 0x10000 0)) (fun t => (t.boot.updBusy, t.boot.updResult)) = some (1, 0) ∧
    seen (execClayErase .scV (updating 0x100 0)) (fun t => (t.boot.updBusy, t.boot.updResult)) = some (0, 2) := by decide +kernel
theorem witness_update_complete : ((dev.modBoot fun b => { b with updBusy := 3 }).boot.updBusy = 3) ∧ verifyFault dev [] ≠ 0 ∧
    ((dev.modBoot fun b => { b with updBusy := 1 }).setNow 5000000000).boot.updAt.toNat + 5000000000 ≤ ((dev.modBoot fun b => { b with updBusy := 1 }).setNow 5000000000).now.toNat := by
  decide +kernel
theorem test_update_timeout : seen (execClayUpdateTimeout ((dev.modBoot fun b => { b with updBusy := 1 }).setNow 5000000000)) (fun t => (t.boot.updBusy, t.boot.updResult)) =
    some (0, 4) := by decide +kernel
theorem witness_fuses : Writes dev .scS 0x1064 (BitVec.ofNat 32 (2 ^ 31 + 1 + 8 + 0)) ∧ Writes dev .scS 0x1064 (BitVec.ofNat 32 (2 ^ 31 + 2 + 0 + 0)) ∧
    Writes dev .scS 0x1064 (BitVec.ofNat 32 (2 ^ 31 + 3 + 0 + 63 * 16)) ∧ Writes dev .scS 0x1064 (BitVec.ofNat 32 (2 ^ 31 + 4 + 0 + 0)) ∧
    keyUsable (dev.modFuses fun f => { f with keys := [none, some []] }) 1 = true ∧ dev.fuses.busy = false ∧ dev.fuses.lock = false ∧
    dev.boot.svn < 63 := by unfold Writes; simp only [Reaches]; decide +kernel
theorem test_fuse_key : seen (execFuseKey .scS 1 (dev.setReg 0x1070 0x55)) (fun t => (t.fuses.op, t.fuses.busy, t.fuses.data.head?)) = some ((1, 1, 0), true, some 0x55) := by
  decide +kernel
theorem test_fuse_complete : seen (execFuseOperationComplete (dev.modFuses fun f => { f with busy := true, op := (3, 0, 9) })) (fun t => (t.fuses.floor, t.fuses.busy)) =
    some (9, false) := by decide +kernel

/-! ### The monitor -/

/-- The monitor runs, with the image, so changed; TE 3 has its clock. -/
def monitored (f : Monitor → Monitor) : State := dev.modMon fun m => f { m with run := true, noimg := false }

theorem witness_monitor : (monitored id).mon.run = true ∧ (monitored id).mon.noimg = false ∧ (monitored id).posted = [] ∧ dev.mon.run = false ∧
    (monitored fun m => { m with noimg := true }).mon.noimg = true := by decide
theorem witness_display : (64 : Byte) ≠ 0 ∧ (64 : Byte).toNat ≤ 64 ∧ ¬((65 : Byte).toNat ≤ 64) ∧
    (∀ i, i < 64 → 0x800001000 + 4 * i < 2 ^ 36 ∧ monReads (monitored id) (0x800001000 + 4 * i) = true) ∧
    monReads (monitored id) 0x900000000 = false ∧ ueHit (monitored id) 0x800001000 256 = none ∧
    ueHit { monitored id with ue := [0x800001010] } 0x800001000 256 = some 0x800001010 := by decide
theorem test_display : seen (execMonDisplay 0x800001000 1 .good (pokeMem (monitored id) 0x800001000 [1, 2, 3, 4])) (fun t => t.mon.answers.map fun a => (a.no, a.data)) =
    some [(0, [0x04030201])] := by decide
theorem witness_read_register : readActs (monitored id) 0x1000 = false ∧ readRefused (monitored id) .monitor (regAt 0x1000) = false ∧
    regStalled (monitored id) 0x1000 = false ∧ regStalled ((monitored id).modIsland 3 fun x => { x with clk := 3 }) (islOff 3) = true ∧
    bareRegister 0x8000 = false ∧ bareRegister 0x1008 = true ∧ readActs (monitored id) 0x90000 = true := by decide
theorem test_bad_lines : seen (execMonSlotStatus .badSum (monitored fun m => { m with rateAt := some 5 })) (fun t => (t.mon.answers.map (·.no), t.mon.rateAt)) =
    some ([1], some 5) ∧ seen (execMonSlotStatus .unknown (monitored fun m => { m with rateAt := some 5 })) (fun t => (t.mon.answers.map (·.no), t.mon.rateAt)) =
    some ([4], none) := by decide
theorem test_island_status : seen (execMonIslandStatus 211 .good (monitored id)) (fun t => t.mon.answers.map (·.no)) = some [0] ∧
    seen (execMonIslandStatus 212 .good (monitored id)) (fun t => t.mon.answers.map (·.no)) = some [4] := by decide
theorem test_line_rate : seen (execMonLineRate 5 .good (monitored id)) (fun t => (t.mon.rate, t.mon.rateAt)) = some (5, some 1000000) := by decide
theorem test_rate_revert : seen (execMonRateRevert ((monitored fun m => { m with rate := 5, rateAt := some 0 }).setNow 10000000000)) (fun t => (t.mon.rate, t.mon.rateAt)) =
    some (0, none) := by decide
theorem witness_write : placeOf (monitored id) 0x800001000 ≠ .nowhere ∧ placeOf (monitored id) 0x800001000 ≠ .regs ∧
    deciding (rgnNow (monitored id)) (0x800001000 / 4096) = some (0, 0xBFFF) ∧ grants (0xBFFF : Word) .service .p .write = true ∧
    grants (0 : Word) .service .p .write = false ∧ uePart (monitored id) 0x800001000 4 = none ∧ voteMode (monitored id) = 0 := by decide
theorem test_write_word : seen (execMonWriteWord 0x800001000 0x04030201 .good (monitored id)) (fun t => (peekWord t 0x800001000, t.mon.lines)) =
    some (0x04030201, 1) := by decide
theorem witness_write_register : monNever 0x40000 = true ∧ monNever 0x424 = false ∧ monWriter (monitored id) 0x414 = some .scS ∧
    (monitored fun m => { m with sWrite := true }).mon.sWrite = true ∧
    regRefuses (monitored id) .scS 0x414 1 = false ∧ regStalled (monitored id) 0x414 = false ∧ (regEffect (monitored id) .scS 0x414 1).posted = [] ∧
    monWriter (monitored id) 0x20000 = none := by decide
theorem test_write_register : seen (execMonWriteRegister 0x414 1 .good (monitored fun m => { m with sWrite := true })) (fun t => t.mon.answers.map (·.no)) = some [0] ∧
    seen (execMonWriteRegister 0x414 1 .good (monitored id)) (fun t => t.mon.answers.map (·.no)) = some [6] ∧
    seen (execMonWriteRegister 0x40000 1 .good (monitored id)) (fun t => t.mon.answers.map (·.no)) = some [10] := by decide

/-- TE 3 has no safety-world subchannel; its debug unit so changed. -/
def debugged (f : TeDbg → TeDbg) : State :=
  ((monitored id).modSub 5 fun b => { b with attr := { b.attr with world := .service } }).modDbg 3 f

theorem witness_debug : (fun s : State => ∀ x ∈ s.subs, ¬(x.2.attr.valid = true ∧ x.2.attr.world = .safety ∧ (x.2.attr.owner = 3 ∨ inTeMask s x.2.attr.cls 3 = true)))
    (debugged id) ∧ ((debugged id).island 3).clk = 2 ∧ ((debugged id).te 3).st ≠ .retired ∧ ((debugged id).te 3).st ≠ .loading ∧
    ((debugged fun d => { d with halted := true }).dbg 3).halted = true ∧ teRuns (debugged id) 3 = false ∧
    teRuns (((debugged id).modCore 3 fun x => { x with run := true }).modTe 3 fun t => { t with running := some 5 }) 3 = true ∧
    (∃ x ∈ (monitored id).subs, x.2.attr.valid = true ∧ x.2.attr.world = .safety ∧ x.2.attr.owner = 3) := by decide
theorem test_halt : seen (execMonHalt 3 .good (((debugged id).modCore 3 fun x => { x with run := true }).modTe 3 fun t => { t with running := some 5 })) (fun t => ((t.dbg 3).halted, (t.dbg 3).why)) =
    some (true, 1) := by decide
theorem test_resume : seen (execMonResume 3 .good (debugged fun d => { d with halted := true })) (fun t => (t.dbg 3).halted) = some false ∧
    seen (execMonResume 3 .good (debugged id)) (fun t => t.mon.answers.map (·.no)) = some [7] := by decide
theorem test_breakpoint_line : seen (execMonBreakpoint 3 1 0x1234 (some 9) .good (debugged id)) (fun t => ((t.dbg 3).bkpt, (t.dbg 3).bkptEn)) =
    some ([0, 0x491234], 2) := by decide
theorem witness_breakpoint_arguments : ((1 : Byte).toNat < 2 ∧ (0xFFFFF : BitVec 36) = 0xFFFFF) ∧ (0xFFFE : BitVec 36).toNat < 0x10000 ∧
    ¬((0x10000 : BitVec 36).toNat < 0x10000) := by decide
theorem test_core_register : seen (execMonCoreRegister 3 31 .good (((debugged fun d => { d with halted := true })).modCore 3 fun x => { x with g := x.g.set 31 7 })) (fun t =>
    (t.mon.answers.map (·.data), t.mon.sel)) = some ([[7]], 0x1F03) := by decide
theorem test_trace_clear : seen (execMonTraceDump 0 .good (monitored fun m => { m with trace := [⟨5, 3, 1, 0, 0, 0⟩] })) (fun t => t.mon.trace.length) = some 0 ∧
    seen (execMonTraceDump 32 .good (monitored fun m => { m with trace := [⟨0x700000005, 3, 1, 5, 9, 0x40⟩] })) (fun t => t.mon.answers.map (·.data)) =
      some [[5, 7, 0x01200A43, 0x40]] := by decide
theorem test_cxemu : seen (execMonCxemu 3 1 .good (debugged id)) (fun t => bitOf (t.reg 0x500) 3) = some true ∧
    seen (execMonCxemu 64 1 .good (debugged id)) (fun t => t.mon.answers.map (·.no)) = some [6] := by decide
theorem witness_breakpoint : (fun s : State => coreGoes s 3 = true ∧ bkptAt s 3 = some 1)
    (chan.modDbg 3 fun d => { d with bkpt := [0, 0x40], bkptEn := 2 }) ∧ bkptAt chan 3 = none := by decide
theorem test_breakpoint : seen (execBreakpointHalt 3 (chan.modDbg 3 fun d => { d with bkpt := [0, 0x40], bkptEn := 2 })) (fun t => ((t.dbg 3).halted, (t.dbg 3).why)) =
    some (true, 5) := by decide

/-! ### The shape that every step keeps -/

theorem witness_shape : Inv dev where
  mem := by unfold MemOk; decide
  subs := by unfold KeysRise; decide
  src := by unfold KeysRise; decide
  general := tget_forall (P := fun x : CoreSt => x.g.length = 32) _ _ (by decide) (by decide)
  planes := tget_forall (P := fun x : CoreSt => x.sx.length = 256) _ _ (by decide) (by decide)
  positions := tget_forall (P := fun x : Brook => x.pos.length = 8) _ _ (by decide) (by decide)
  view := by decide
  late := by decide
  weirClasses := tget_forall (P := fun x : WeirReqSt => x.cnt.length = 2) _ _ (by decide) (by decide)
  weirTargets := by decide
  functions := by decide
  held := by decide
theorem test_front : seen (step { dev with pending := [.timebaseTick, .timebaseTick] }) (fun t => (t.now, t.pending.length)) = some (1000010, 1) := by
  decide
theorem test_idle : seen (step dev) (fun t => decide (t = dev)) = some true := by decide
end Sys2Proof.Tests
end

section
/-! What a submission queue's entry into ERROR does (R109, R110, R126, R127): the writes and events that go with it leave
the queue engine as it stands and lose no arrival. -/

namespace Sys2Proof.QueueErrors

open Sys2Proof.Machine Sys2Proof.Safety

/-! ### Event sources -/

theorem satInc_ne_zero (n : Nat) : satInc 255 n ≠ 0 := by
  unfold satInc
  split <;> omega

@[simp] theorem evSrc_modEvSrc (s : State) (i j : Nat) (f : EvSrc → EvSrc) :
    (s.modEvSrc i f).evSrc j = if i = j then f (s.evSrc i) else s.evSrc j := by
  simp [State.evSrc, State.modEvSrc, State.modEv]

theorem oneArrival_count_ne_zero (s : State) (n : Nat) (t : DWord) : ((oneArrival s n t).evSrc n).count ≠ 0 := by
  simpa [oneArrival] using satInc_ne_zero _

/-! ### Steps that spare the queue engine -/

/-- From s to t the queue engine is untouched, and no source loses its pending arrivals. -/
structure SparesQueues (s t : State) : Prop where
  q : t.q = s.q
  pending : ∀ n, (s.evSrc n).count ≠ 0 → (t.evSrc n).count ≠ 0

variable {s t u : State}

theorem SparesQueues.of_eq (hq : t.q = s.q) (he : t.ev.src = s.ev.src) : SparesQueues s t where
  q := hq
  pending n h := by simpa [State.evSrc, he] using h

theorem SparesQueues.refl (s : State) : SparesQueues s s := .of_eq rfl rfl

theorem SparesQueues.trans (h : SparesQueues s t) (g : SparesQueues t u) : SparesQueues s u where
  q := g.q.trans h.q
  pending n hn := g.pending n (h.pending n hn)

/-- A step that spares the queue engine, taken after changes outside it and the event sources. -/
theorem SparesQueues.after_eq (h : SparesQueues t u) (hq : t.q = s.q) (he : t.ev.src = s.ev.src) : SparesQueues s u :=
  (SparesQueues.of_eq hq he).trans h

theorem sparesQueues_oneArrival (s : State) (n : Nat) (t : DWord) : SparesQueues s (oneArrival s n t) where
  q := rfl
  pending m h := by
    by_cases hm : n = m
    · subst hm
      exact oneArrival_count_ne_zero s n t
    · simpa [oneArrival, hm] using h

theorem sparesQueues_sendMsi (s : State) (f v : Nat) : SparesQueues s (sendMsi s f v) := by
  unfold sendMsi
  dsimp only
  split
  · exact .of_eq rfl rfl
  · exact .of_eq rfl rfl

theorem sparesQueues_msiScan (s : State) (f : Nat) : SparesQueues s (msiScan s f) := by
  unfold msiScan
  split
  · exact .refl s
  · refine foldl_keeps (P := SparesQueues s) (fun a v ha => ?_) (.refl s)
    split
    · exact ha
    · exact ha.trans (sparesQueues_sendMsi a f v)

theorem sparesQueues_evalTargets (s : State) : SparesQueues s (evalTargets s) :=
  (sparesQueues_msiScan s 0).trans (sparesQueues_msiScan _ 1)

/-- What follows the arrival itself: the overflow report of the event controller, and presentation. -/
theorem sparesQueues_raiseEventAt_of_exists {n : Nat} (h : srcExists n = true) (t : DWord) :
    SparesQueues (oneArrival s n t) (raiseEventAt s n t) := by
  simp only [raiseEventAt, h, Bool.not_true, Bool.false_eq_true, if_false]
  split
  · have seen : SparesQueues (oneArrival s n t) ((oneArrival s n t).modEv fun v => { v with ovfSeen := true, ovfSrc := n }) :=
      .of_eq rfl rfl
    exact (seen.trans (sparesQueues_oneArrival _ _ _)).trans (sparesQueues_evalTargets _)
  · exact sparesQueues_evalTargets _

theorem sparesQueues_raiseEvent (s : State) (n : Nat) : SparesQueues s (raiseEvent s n) := by
  by_cases h : srcExists n = true
  · exact (sparesQueues_oneArrival s n _).trans (sparesQueues_raiseEventAt_of_exists h _)
  · simpa [raiseEvent, raiseEventAt, h] using SparesQueues.refl s

theorem raiseEvent_count_ne_zero {n : Nat} (h : srcExists n = true) : ((raiseEvent s n).evSrc n).count ≠ 0 :=
  (sparesQueues_raiseEventAt_of_exists h _).pending n (oneArrival_count_ne_zero s n _)

/-! ### Memory writes spare the queue engine: a register write is posted (R539) -/

theorem sparesQueues_modLevee (s : State) (f : Levee → Levee) : SparesQueues s (s.modLevee f) := .of_eq rfl rfl

theorem sparesQueues_leveeRefuse (s : State) (who : Initiator) (w : World) (k : Acc) (a : Nat) (entry : Option Nat) :
    SparesQueues s (leveeRefuse s who w k a entry) := by
  unfold leveeRefuse
  dsimp only
  split
  · exact sparesQueues_modLevee s _
  · exact ((sparesQueues_modLevee s _).trans (sparesQueues_modLevee _ _)).trans (sparesQueues_raiseEvent _ _)

theorem sparesQueues_leveeCheck (s : State) (who : Initiator) (w : World) (c : Col) (k : Acc) (t : Nat → Rgn) (a : Nat) :
    SparesQueues s (leveeCheck s who w c k t a).1 := by
  unfold leveeCheck
  split
  · exact sparesQueues_leveeRefuse ..
  · split
    · exact .refl s
    · exact sparesQueues_leveeRefuse ..

theorem sparesQueues_noteUe (s : State) (who : Initiator) (g : Nat) : SparesQueues s (noteUe s who g) := by
  unfold noteUe noteUeBy
  exact (sparesQueues_raiseEvent _ _).after_eq rfl rfl

theorem sparesQueues_pokeMem (s : State) (a : Nat) (bs : List Byte) : SparesQueues s (pokeMem s a bs) := by
  unfold pokeMem pokeMemBy pokeRaw markDirty
  dsimp only
  split
  · exact .of_eq rfl rfl
  · exact .of_eq rfl rfl

theorem sparesQueues_mbxNotify (s : State) (ch : Nat) (e : Bool) (bit : Nat) (always : Bool) :
    SparesQueues s (mbxNotify s ch e bit always) := by
  unfold mbxNotify
  dsimp only
  split
  · exact sparesQueues_raiseEvent _ _
  · exact .refl s

theorem sparesQueues_mbxTx (s : State) (ch : Nat) (e : Bool) (v : Word) : SparesQueues s (mbxTx s ch e v).1 := by
  unfold mbxTx
  split
  · exact .of_eq rfl rfl
  · exact (sparesQueues_mbxNotify _ _ _ _ _).after_eq rfl rfl

theorem sparesQueues_refuseCount (s : State) (who : Initiator) (o : Nat) (v : Word) : SparesQueues s (refuseCount s who o v) := by
  unfold refuseCount
  split
  · exact .of_eq rfl rfl
  · split
    · exact sparesQueues_mbxTx _ _ _ _
    · exact .refl s
  · exact .refl s

theorem sparesQueues_regWrites (s : State) (who : Initiator) (off : Nat) (bs : List Byte) :
    SparesQueues s (regWrites s who off bs).1 :=
  foldN_keeps (P := fun r : State × Nat × Option MemErr => SparesQueues s r.1) (fun r i hr => by
    dsimp only
    split
    · exact hr
    · split
      · exact SparesQueues.trans hr (sparesQueues_refuseCount _ _ _ _)
      · exact SparesQueues.trans hr (.of_eq rfl rfl)) (.refl s)

theorem sparesQueues_writePiece (s : State) (who : Initiator) (a : Nat) (bs : List Byte) :
    SparesQueues s (writePiece s who a bs).1 := by
  have checked : SparesQueues s
      (if unchecked who then (s, true) else leveeCheck s who (initWorld s who) .e .write (rgnNow s) a).1 := by
    split
    · exact .refl s
    · exact sparesQueues_leveeCheck ..
  revert checked
  unfold writePiece
  generalize (if unchecked who then (s, true) else leveeCheck s who (initWorld s who) .e .write (rgnNow s) a) = r
  intro checked
  split
  · exact .refl s
  · exact sparesQueues_regWrites _ _ _ _
  · dsimp only
    split
    · exact checked
    · split
      · exact checked.trans (sparesQueues_noteUe _ _ _)
      · exact checked.trans (sparesQueues_pokeMem _ _ _)

theorem sparesQueues_devWrite (s : State) (who : Initiator) (a : Nat) (bs : List Byte) :
    SparesQueues s (devWrite s who a bs).1 := by
  unfold devWrite
  split
  · exact .refl s
  · refine foldl_keeps (P := fun r : State × Nat × Option MemErr => SparesQueues s r.1) (fun r p hr => ?_) (.refl s)
    dsimp only
    split
    · exact hr
    · exact SparesQueues.trans hr (sparesQueues_writePiece _ _ _ _)

theorem sparesQueues_memWrite (s : State) (who : Initiator) (a : Addr) (bs : List Byte) :
    SparesQueues s (memWrite s who a bs).1 := by
  unfold memWrite memWriteN
  dsimp only
  split
  · split
    · exact .refl s
    · exact .of_eq rfl rfl
  · split
    · exact sparesQueues_devWrite _ _ _ _
    · exact .refl s

/-! ### Entering ERROR (R126, R127) -/

/-- From s to t queue k has entered ERROR with a code: its indices stand, the other queues and the rings are untouched, and
the queue engine's source has an arrival pending. -/
structure EntersError (s t : State) (k code : Nat) : Prop where
  st : (t.sq k).st = .error
  err : (t.sq k).err = code
  head : (t.sq k).head = (s.sq k).head
  tail : (t.sq k).tail = (s.sq k).tail
  others : ∀ j, j ≠ k → t.sq j = s.sq j
  rings : t.q.cq = s.q.cq
  event : (t.evSrc Config.srcQueueEngine).count ≠ 0

theorem SparesQueues.sq (h : SparesQueues s t) (j : Nat) : t.sq j = s.sq j := by
  unfold State.sq
  rw [h.q]

theorem EntersError.spares {k code : Nat} (h : EntersError s t k code) (g : SparesQueues t u) : EntersError s u k code where
  st := by rw [g.sq, h.st]
  err := by rw [g.sq, h.err]
  head := by rw [g.sq, h.head]
  tail := by rw [g.sq, h.tail]
  others j hj := by rw [g.sq, h.others j hj]
  rings := by rw [g.q, h.rings]
  event := g.pending _ h.event

theorem EntersError.setHeadDue {k code : Nat} (h : EntersError s t k code) (due : Bool) :
    EntersError s (t.modSq k fun x => { x with headDue := due }) k code where
  st := by simpa using h.st
  err := by simpa using h.err
  head := by simpa using h.head
  tail := by simpa using h.tail
  others j hj := by simpa [hj.symm] using h.others j hj
  rings := h.rings
  event := h.event

@[simp] theorem logQueueError_sq (s : State) (num : Nat) (isRing : Bool) (code idx j : Nat) :
    (logQueueError s num isRing code idx).sq j = s.sq j := by
  unfold logQueueError
  split <;> rfl

theorem logQueueError_cq (s : State) (num : Nat) (isRing : Bool) (code idx : Nat) :
    (logQueueError s num isRing code idx).q.cq = s.q.cq := by
  unfold logQueueError
  split <;> rfl

theorem queueFails_entersError (s : State) (k code idx : Nat) : EntersError s (queueFails s k code idx) k code := by
  unfold queueFails
  extract_lets s1 s2 s3
  have raised : SparesQueues s2 s3 := by
    unfold s3
    split
    · exact sparesQueues_raiseEvent _ _
    · exact .refl _
  have spared := raised.trans (sparesQueues_raiseEvent s3 Config.srcQueueEngine)
  have sq (j : Nat) : (raiseEvent s3 Config.srcQueueEngine).sq j = s1.sq j := by rw [spared.sq, logQueueError_sq]
  exact {
    st := by simp [sq, s1]
    err := by simp [sq, s1]
    head := by simp [sq, s1]
    tail := by simp [sq, s1]
    others := fun j hj => by simp [sq, s1, hj.symm]
    rings := by rw [spared.q, logQueueError_cq]; rfl
    event := raiseEvent_count_ne_zero rfl }

/-- R110: the head index write of a queue in ERROR, whether it succeeds or fails, leaves it as it entered ERROR. -/
theorem EntersError.headWrite {k code : Nat} (h : EntersError s t k code) : EntersError s (headWrite t k) k code := by
  unfold Machine.headWrite
  extract_lets t1 x
  have written : EntersError s (memWrite t1 (.queue x.desc.world) x.desc.headA (toBytes 4 x.head)).1 k code :=
    (h.setHeadDue false).spares (sparesQueues_memWrite _ _ _ _)
  have notEnabled : x.st ≠ .enabled := by simp [x, t1, h.st]
  split
  next v hv =>
    rw [hv] at written
    split
    · exact written.spares (sparesQueues_raiseEvent _ _)
    · exact written
  next v e hv =>
    rw [hv] at written
    rw [if_neg notEnabled]
    exact written

theorem EntersError.cutVisit {k code : Nat} (h : EntersError s t k code) : EntersError s (cutVisit t k) k code := by
  unfold Machine.cutVisit
  split
  · exact h.headWrite
  · exact h

theorem queueError_entersError (s : State) (k code idx : Nat) : EntersError s (queueError s k code idx) k code :=
  (queueFails_entersError s k code idx).cutVisit

/-! ### Index words (R105, R109) -/

theorem fld_low (w : Word) : fld w 15 0 = w.toNat % 65536 := by simp [fld]

theorem fld_high (w : Word) : fld w 31 16 = w.toNat / 65536 := by
  have := w.isLt
  simp only [fld, Nat.shiftRight_eq_div_pow]
  omega

/-- R109: a word is an index of a queue of 2^log2 entries when its lower half is in range and its upper half is zero. -/
theorem indexOf_eq_some {w : Word} {log2 : Nat} (hlow : fld w 15 0 < 2 ^ log2) (hhigh : fld w 31 16 = 0) :
    indexOf w log2 = some (fld w 15 0) := by
  rw [fld_high] at hhigh
  have whole : fld w 15 0 = w.toNat := by rw [fld_low]; omega
  rw [whole] at hlow ⊢
  exact if_pos hlow

theorem indexOf_eq_none {w : Word} {log2 : Nat} (hlog : log2 ≤ 16) (h : 2 ^ log2 ≤ fld w 15 0 ∨ fld w 31 16 ≠ 0) :
    indexOf w log2 = none := by
  have size : 2 ^ log2 ≤ 65536 := Nat.pow_le_pow_right (by decide) hlog
  rw [fld_low, fld_high] at h
  exact if_neg (by omega)

/-! ### The tail index read (R107, R109) -/

section
variable {k : Nat} {bs : List Byte} (hst : (s.sq k).st = .enabled) (hreading : (s.sq k).reading = true)
  (hread : memRead s (.queue (s.sq k).desc.world) (s.sq k).desc.tailA 4 = (s, .ok bs))
include hst hreading hread

theorem tailIndexReadComplete_of_none (h : indexOf (wordAt bs 0) (s.sq k).desc.log2 = none) :
    tailIndexReadComplete s k = queueError s k 2 (s.sq k).head := by
  simp [tailIndexReadComplete, hst, hreading, hread, h]

theorem tailIndexReadComplete_of_some {v : Nat} (h : indexOf (wordAt bs 0) (s.sq k).desc.log2 = some v) :
    tailIndexReadComplete s k =
      s.modSq k fun x => { x with tail := v, reading := x.again, again := false, readAt := s.now } := by
  simp [tailIndexReadComplete, hst, hreading, hread, h]

end

theorem available_of_none_issued {x : SubQ} (hst : x.st = .enabled) (hissued : x.issued = []) :
    available x = (x.tail + 2 ^ x.desc.log2 - x.head) % 2 ^ x.desc.log2 := by
  simp [available, hst, hissued]

/-- Settles O41: an index out of range takes the queue through `queueError`; one in range becomes its tail, and the entries
counted are the distance from head to tail modulo the queue's size. -/
theorem tailIndexOutOfRange : Obligations.TailIndexOutOfRange := by
  unfold Obligations.TailIndexOutOfRange
  intro s k bs q hst hreading hread hlog
  constructor
  · intro hbad
    obtain ⟨st, err, head, tail, others, rings, event⟩ := queueError_entersError s k.val 2 q.head
    have done := tailIndexReadComplete_of_none hst hreading hread (indexOf_eq_none hlog hbad)
    exact ⟨_, congrArg Host.Outcome.next done, st, err, head, tail, others, rings, event⟩
  · intro hlow hhigh
    have done := tailIndexReadComplete_of_some hst hreading hread (indexOf_eq_some hlow hhigh)
    refine ⟨_, congrArg Host.Outcome.next done, by simpa using hst, fun hissued _ => ?_⟩
    rw [available_of_none_issued (by simpa using hst) (by simpa using hissued)]
    simp [q]

end Sys2Proof.QueueErrors
end

section
/-! An offset that names no register (R536): which offsets those are, and what a write and a read of one do for each
initiator. -/

namespace Sys2Proof.UnnamedRegisters

open Sys2Proof.Machine Sys2Proof.Safety

/-! ### Offsets that the block indexes leave unnamed (R535) -/

theorem inWords_iff {o lo n : Nat} : inWords o lo n = true ↔ lo ≤ o ∧ o < lo + 4 * n := by
  simp [inWords]

theorem regAt_above_blocks {o : Nat} (h : 0xD0000 ≤ o) : regAt o = .none := by
  simp (disch := omega) only [regAt, ↓if_neg, ite_self]

/-- The index of the pins' block: the pins, the banks and the registers of the field die. -/
theorem regAt_pin_block {o : Nat} (halign : o % 4 = 0) (hlo : 0x40000 ≤ o) (hhi : o < 0x50000) :
    regAt o =
      if o < 0x41800 then (if o % 0x40 ≤ 0x2C then .pin ((o - 0x40000) / 0x40) (o % 0x40) else .none)
      else if 0x42000 ≤ o ∧ o < 0x42300 ∧ o % 0x40 ≤ 0x28 then .bank ((o - 0x42000) / 0x40) (o % 0x40)
      else if inWords o 0x43000 9 then .fdie (o - 0x43000) else .none := by
  unfold regAt
  iterate 9 rw [if_neg (by omega)]
  rw [if_pos hhi]

theorem regAt_between_pins_and_banks {o : Nat} (hlo : 0x41800 ≤ o) (hhi : o < 0x42000) : regAt o = .none := by
  by_cases halign : o % 4 = 0
  · rw [regAt_pin_block halign (by omega) (by omega), if_neg (by omega), if_neg (by omega),
      if_neg (by rw [inWords_iff]; omega)]
  · exact if_pos halign

theorem regAt_pin_tail {n o : Nat} (hn : n < 96) (halign : o % 4 = 0) (hlo : 0x30 ≤ o) (hhi : o < 0x40) :
    regAt (0x40000 + 0x40 * n + o) = .none := by
  rw [regAt_pin_block (by omega) (by omega) (by omega), if_pos (by omega), if_neg (by omega)]

theorem regAt_glob_gap {k : Nat} (hlo : 66 ≤ k) (hhi : k < 76) : regAt (0x600 + 4 * k) = .none := by
  unfold regAt
  rw [if_neg (by omega), if_pos (by omega), if_neg]
  simp only [inWords_iff]
  omega

/-! ### The checks and the effect of an access -/

section
variable {s : State} {who : Initiator} {off : Nat} {v : Word} (hnone : regAt off = .none)
include hnone

theorem regRefuses_unnamed : regRefuses s who off v = false := by
  simp [regRefuses, hnone, worldAllows, worldCode, busyIgnores, ruleRefuses]

theorem readRefused_unnamed : readRefused s who (regAt off) = false := by
  rw [hnone]; rfl

theorem refuseCount_unnamed : refuseCount s who off v = s := by
  simp [refuseCount, hnone]

theorem regEffect_unnamed : regEffect s who off v = s := by
  simp [regEffect, hnone]

theorem readReg_unnamed : readReg s who off = (s, 0) := by
  simp [readReg, hnone, pairOf, regValue]

theorem ne_dbellReachReset_of_unnamed : off ≠ Reg.dbellReachReset := by
  rintro rfl
  exact absurd hnone (by decide)

/-! ### A core's access (R537, R539) -/

variable {k : Nat} (halign : off % 4 = 0) (hgoes : coreGoes s k = true)
include halign hgoes

/-- A supervisor core performs its register writes at once. -/
theorem coreRegWrite_unnamed_supervisor (hk : 64 ≤ k) : coreRegWrite s k off v = s := by
  simp [coreRegWrite, hgoes, halign, regRefuses_unnamed hnone, regEffect_unnamed hnone, Nat.not_lt.mpr hk]

/-- A channel core holds the write until its commit point, as it holds every register write (R246). -/
theorem coreRegWrite_unnamed_channel (hk : k < 64) (hheld : (s.te k).held = {}) :
    coreRegWrite s k off v = s.modTe k fun t => { t with held := { regs := [(off, v)] } } := by
  simp [coreRegWrite, hgoes, halign, regRefuses_unnamed hnone, hk, hheld, sbReg, heldUsed]

theorem coreRegRead_unnamed : coreRegRead s k off = s.answers [0] := by
  simp [coreRegRead, hgoes, halign, readRefused_unnamed hnone, readReg_unnamed hnone]

end

/-! ### An initiator's access -/

theorem drain_of_posted_eq_nil {s : State} (h : s.posted = []) : drain s = s := if_pos h

section
variable {s : State} {off : Nat} {v : Word} (hnone : regAt off = .none) (halign : off % 4 = 0) (hoff : off < bar2Off)
include hnone halign

theorem regWriteBy_unnamed_te {n : Fin 64} (hgoes : coreGoes s n = true) (hposted : s.posted = [])
    (hheld : (s.te n).held = {}) :
    regWriteBy s (.te n) off v = s.modTe n fun t => { t with held := { regs := [(off, v)] } } :=
  (congrArg drain (coreRegWrite_unnamed_channel hnone halign hgoes n.isLt hheld)).trans (drain_of_posted_eq_nil hposted)

include hoff

theorem regWriteBy_unnamed {who : Initiator} (hreach : Reaches s who) (hposted : s.posted = []) :
    regWriteBy s who off v = s := by
  refine Eq.trans (congrArg drain ?_) (drain_of_posted_eq_nil hposted)
  match who, hreach with
  | .scS, hgoes | .scV, hgoes =>
    rw [if_neg (ne_dbellReachReset_of_unnamed hnone)]
    exact coreRegWrite_unnamed_supervisor hnone halign hgoes (by decide)
  | .pf f, ⟨hready, hserves⟩ =>
    simp [hoff, hostRegWrite, hostWrites, hready, hserves, halign, regRefuses_unnamed hnone, regEffect_unnamed hnone]
  | .queue _, _ | .device, _ | .dma _, _ | .seq _, _ | .mover _, _ | .commit _, _ =>
    simp [halign, regRefuses_unnamed hnone, regEffect_unnamed hnone]

theorem regReadBy_unnamed {who : Initiator} (hreach : Reaches s who) : regReadBy s who off = s.answers [0] := by
  match who, hreach with
  | .scS, hgoes | .scV, hgoes => exact coreRegRead_unnamed hnone halign hgoes
  | .pf f, ⟨hready, hserves⟩ =>
    simp [regReadBy, hoff, hostRegRead, hostReads, hready, hserves, halign, readRefused_unnamed hnone,
      readReg_unnamed hnone]
  | .queue _, _ | .device, _ | .dma _, _ | .seq _, _ | .mover _, _ | .commit _, _ =>
    simp [regReadBy, halign, readRefused_unnamed hnone, readReg_unnamed hnone]

end

/-- Settles O38: no check refuses the access and its effect is none, so each initiator's access reduces to what it does
around the register itself: nothing, or a channel core's held store. -/
theorem unnamedOffsets : Obligations.UnnamedOffsets := by
  unfold Obligations.UnnamedOffsets
  refine ⟨fun s who off v hoff hnone halign => ?_, fun o h _ => regAt_above_blocks h,
    fun o => regAt_between_pins_and_banks, fun n o hn ho => ?_, fun k => regAt_glob_gap⟩
  · refine ⟨regRefuses_unnamed hnone, readRefused_unnamed hnone, refuseCount_unnamed hnone, regEffect_unnamed hnone,
      readReg_unnamed hnone, fun hreach hposted => ?_, fun hreach => ?_, ?_⟩
    · exact congrArg Host.Outcome.next (regWriteBy_unnamed hnone halign hoff hreach hposted)
    · exact congrArg Host.Outcome.next (regReadBy_unnamed hnone halign hoff hreach)
    · rintro n rfl hgoes hposted hheld
      exact ⟨congrArg Host.Outcome.next (coreRegRead_unnamed hnone halign hgoes),
        congrArg Host.Outcome.next (regWriteBy_unnamed_te hnone halign hgoes hposted hheld)⟩
  · simp only [List.mem_cons, List.not_mem_nil, or_false] at ho
    exact regAt_pin_tail hn (by omega) (by omega) (by omega)

end Sys2Proof.UnnamedRegisters
end
